-- ==== Sys2Proof/Word.lean ====
section
/-! DEFINITION. The word types of the part (R7: 32-bit registers, 64-bit scalars, bytes in memory). -/

namespace Sys2Proof

/-- One byte of memory. -/
abbrev Byte := BitVec 8
/-- A half word (a generation, a bank tag). -/
abbrev W16 := BitVec 16
/-- A register of the register space, and one FP32 or INT32 lane. -/
abbrev W32 := BitVec 32
/-- A scalar register of a tile core, an event value, a Beat value. -/
abbrev W64 := BitVec 64
/-- The 32 bytes of a notice or completion entry, and what a pop port answers. -/
abbrev W256 := BitVec 256
/-- The 64 bytes of a ring command or a tensor descriptor. -/
abbrev W512 := BitVec 512
/-- One 128-byte line of the Crucible. -/
abbrev W1024 := BitVec 1024
/-- One vector register of a tile core (R212). -/
abbrev W2048 := BitVec 2048

/-- What the companion answers to the requests and snoops that a command makes at once: (device address, byte) pairs of
the companion window, or of aperture lines it holds in M; the 64-byte units (address / 64) it grants E, answers with
STATUS 3 POISON, or does not answer in time; and those whose answer has come before the command (they need no
request). An address not listed is one its IOMMU does not map (Table 7.4). (DESIGN CHOICE, log 11.) -/
structure Ext where
  bytes : List (Nat × Byte) := []
  excl : List Nat := []
  poisoned : List Nat := []
  silent : List Nat := []
  got : List Nat := []
deriving DecidableEq, Repr

/-- Who makes a register access (R10, R238, R247, R260): the companion over the Sprue at user or kernel privilege, the
management core, the secure side, a command of ring `r`, the chain runner, or an unlocked debug port (R397). -/
inductive Requester where
  | sprue (kernel : Bool)
  | mgmt
  | secure
  | ring (r : Nat)
  | chain
  | debug
deriving DecidableEq, Repr

/-- The coherence states of Table 7.2. -/
inductive Coherence where
  | i | s | e | m
deriving DecidableEq, Repr

/-- The widths of the Sprue (SPR_STATUS.WIDTH). -/
inductive LinkWidth where
  | down | half | full
deriving DecidableEq, Repr

/-- A work counter's state registers (R65). -/
inductive WcReg where
  | index | limit | gen
deriving DecidableEq, Repr

/-- How a message of the companion is protected (R384): in clear, sealed and authenticated, or sealed and failing. -/
inductive SealMark where
  | clear | authentic | failed
deriving DecidableEq, Repr

/-- What a checker finds of a stored word and its check bits (R83, R85, R86): right, wrong in one symbol, or wrong in
a way that it detects and cannot correct. -/
inductive WordState where
  | clean | corrected | uncorrectable
deriving DecidableEq, Repr

/-- Who pops a notice queue at the instant of a flush (R72): nobody, the core whose `npop` word is at its program
counter, or a requester that reads the pop port under a tag. -/
inductive Popper where
  | none
  | core (c : Nat) (w : W64)
  | port (rq : Requester) (tag : Nat)
deriving DecidableEq, Repr

/-- A Sprue frame as the receiver sees it after FEC (Table 7.1): whether its CRC holds, its header, and the slot
credits returned per class. -/
structure SprueFrame where
  crcOk : Bool
  seq : Nat
  ftype : Nat
  ack : Nat
  nak : Bool
  credits : Nat × Nat × Nat × Nat
deriving DecidableEq, Repr

/-- A message of the runner links (Table 9.2), fields unpacked: `ring` is ADDR[53:48], `hi` ADDR[63:54]. The data is
the message's exact bytes. `e2eOk`: its end-to-end CRC holds where it arrives (R293). -/
structure RunMsg where
  opc : Nat
  vc : Nat := 0
  dateline : Nat := 0
  ackReq : Bool := false
  dest : Nat := 0
  src : Nat := 0
  stream : Nat := 0
  addr : Nat := 0
  ring : Nat := 0
  hi : Nat := 0
  poison : W64 := 0
  seq : Nat := 0
  ext : Option W256 := none
  data : List Byte := []
  e2eOk : Bool := true
  /-- The deadline that the sending collective engine checks before it sends the message (R310); 0 for none. It is not
  part of the message. -/
  late : Nat := 0
deriving DecidableEq, Repr

/-- A runner frame as the receiver sees it after FEC (Table 9.1): whether its CRC holds and, on a sealed link, its seal
trailer verifies (R383); FEC symbols corrected; its header; and the units returned per virtual channel. (DESIGN
CHOICE, log 18.) -/
structure RunnerFrame where
  crcOk : Bool
  sealOk : Bool
  fec : Nat
  seq : Nat
  ftype : Nat
  ack : Nat
  nak : Bool
  credits : List Nat
deriving DecidableEq, Repr

/-- What a die's sensors show (R435): junction in 1/16 °C, supply current in A, words corrected in the last second,
delay margin in ps, and the wear index. -/
structure DieSample where
  junction : Nat
  current : Nat
  corrected : Nat
  margin : Nat
  wear : Nat
deriving DecidableEq, Repr

/-- What the Regulator finds when it decides (R423, R428, R429, R431, R439): a row of base die `k` at CE_SPARE; a row of
an HBM page at CE_RETIRE for which no repair is left; a bank of a slice at CE_SPARE or with poison that a rewrite does
not clear; an operand-buffer row of core `c` at CE_SPARE; a unit (slice `u`, base die 16 + k) whose corrected-word rate
has it scrubbed twice or half as often. (DESIGN CHOICE, log 142.) -/
inductive RglFind where
  | softRow (k row : Nat)
  | page (page : Nat)
  | bank (slice bank : Nat)
  | obRow (c row : Nat)
  | scrub (u : Nat) (faster : Bool)
deriving DecidableEq, Repr

/-- A register file of a core, or its operand buffer, as the debug port names it (R395). -/
inductive CoreFile where
  | x | f | v | p | d | k | acc | ob | pc
deriving DecidableEq, Repr

/-- What a DBG_ACCESS does (R395, Table 12.12). CORE scope: halt, resume or step core `c`, and read or write 32 bytes,
part `part`, of entry `i` of a file (a part of an accumulator is eight of its positions; an entry of the operand buffer
is an offset). MEMORY scope: a register of class P, and up to 32 bytes read or any bytes written of device memory. SCAN scope:
a read of the internal scan. FABRIC scope: the loopback test of link `l`. A Blank or Test device's firmware load: the
64 bytes of a boot descriptor. -/
inductive DbgOp where
  | halt (c : Nat)
  | resume (c : Nat)
  | step (c : Nat)
  | coreRead (c : Nat) (file : CoreFile) (i part : Nat)
  | coreWrite (c : Nat) (file : CoreFile) (i part : Nat) (v : W256)
  | regRead (off : Nat)
  | regWrite (off : Nat) (v : W32) (good : Nat)
  | memRead (a n : Nat)
  | memWrite (a : Nat) (data : List Byte)
  | scan
  | linkTest (l : Nat) (on : Bool)
  | loadFirmware (desc : W512)
deriving DecidableEq, Repr

end Sys2Proof
end

