-- ==== Sys2Proof/Syntax.lean ====
section
/-! DEFINITION. The commands and events of the part: one constructor for each row of spec/opcode_table.json. -/

namespace Sys2Proof

/-- The part's steps (opcode_table.json). A tile-core instruction carries the core id `c` and the instruction word
 `w` at the core's program counter (with its second word `e` where it has one); an Escapement command carries its
 ring `r` and the companion bytes `ext` it meets; the other rows carry what the event brings. (DESIGN CHOICE, log
10.) -/
inductive Instr where
  /-- NOP (R204). The nop instruction retires and does nothing. -/
  | nop (c : Nat) (w : W64)
  /-- INT_ALU (R204). A register-register integer instruction (add, sub, mul, mulhu, logic, shifts, min and max) writes xd from xa and xb. -/
  | intAlu (c : Nat) (w : W64)
  /-- INT_ALU_IMM (R204). The immediate form of an integer instruction writes xd from xa and the sign-extended IMM32. -/
  | intAluImm (c : Nat) (w : W64)
  /-- LI (R204). li loads a sign-extended 32-bit immediate into xd. -/
  | li (c : Nat) (w : W64)
  /-- LUI (R204). lui places IMM32 in the upper half of xd above xa[31:0]. -/
  | lui (c : Nat) (w : W64)
  /-- LID (R204). The 128-bit lid instruction loads a 64-bit immediate into xd. -/
  | lid (c : Nat) (w : W64) (e : W64)
  /-- PCMP (R204). pcmp sets a predicate to all ones or to zero from an integer comparison. -/
  | pcmp (c : Nat) (w : W64)
  /-- PREDICATE_LOGIC (R204). pand, por, pxor or pnot combine predicates bitwise. -/
  | predicateLogic (c : Nat) (w : W64)
  /-- PGET (R204). pget copies a predicate into a scalar register. -/
  | pget (c : Nat) (w : W64)
  /-- PSET (R204). pset copies a scalar register into a predicate. -/
  | pset (c : Nat) (w : W64)
  /-- SEL (R204). sel selects xa or xb by bit 0 of a predicate. -/
  | sel (c : Nat) (w : W64)
  /-- SCALAR_FLOAT_OP (R204). fadd, fsub, fmul, ffma, fmin, fmax, fdiv, fsqrt or fexp computes an FP32 result under R122 and raises conditions. -/
  | scalarFloatOp (c : Nat) (w : W64)
  /-- FCVT_F_X (R204). fcvt.f.x converts a signed 64-bit integer to FP32 by RNE. -/
  | fcvtFX (c : Nat) (w : W64)
  /-- FCVT_X_F (R204). fcvt.x.f converts FP32 to a saturated signed 64-bit integer by RTZ. -/
  | fcvtXF (c : Nat) (w : W64)
  /-- FMV_X_F (R204). fmv.x.f moves raw FP32 bits into a scalar register, zero-extended. -/
  | fmvXF (c : Nat) (w : W64)
  /-- FMV_F_X (R204). fmv.f.x moves raw 32 bits from a scalar register into an f register. -/
  | fmvFX (c : Nat) (w : W64)
  /-- FCMP (R204). fcmp sets a predicate from an FP32 comparison. -/
  | fcmp (c : Nat) (w : W64)
  /-- FLI (R204). fli loads the 32 bits of IMM32 into an f register. -/
  | fli (c : Nat) (w : W64)
  /-- BR (R196). br branches when two scalars satisfy the condition, trapping on a bad target. -/
  | br (c : Nat) (w : W64)
  /-- BP (R204). bp branches when bit 0 of a predicate is 1. -/
  | bp (c : Nat) (w : W64)
  /-- BPN (R204). bpn branches when bit 0 of a predicate is 0. -/
  | bpn (c : Nat) (w : W64)
  /-- JMP (R204). jmp branches always. -/
  | jmp (c : Nat) (w : W64)
  /-- CALL (R204). The call instruction saves the return offset in x31 and branches. -/
  | callInst (c : Nat) (w : W64)
  /-- JR (R204). jr jumps to the code offset held in xa. -/
  | jr (c : Nat) (w : W64)
  /-- KERNEL_END (R181). The end instruction waits for acceptance and empty unit queues, commits any held tile and ends the core's part of the dispatch. -/
  | kernelEnd (c : Nat) (w : W64)
  /-- TEND (R181). tend waits for the held tile's writes to be accepted, sends its RACC_COMMIT and clears HELD. -/
  | tend (c : Nat) (w : W64)
  /-- LD (R205). A scalar load reads 1 to 8 bytes from the operand buffer or a device address. -/
  | ld (c : Nat) (w : W64)
  /-- ST (R205). A scalar store writes 1 to 8 bytes, locally or as a put to a peer. -/
  | st (c : Nat) (w : W64)
  /-- VLD (R205). vld loads 256 bytes into a vector register. -/
  | vld (c : Nat) (w : W64)
  /-- VST (R205). vst stores 256 bytes of a vector register with an optional lane mask and counts non-finite lanes. -/
  | vst (c : Nat) (w : W64)
  /-- DLD (R201). dld loads a 64-byte tensor descriptor from memory into a d register. -/
  | dld (c : Nat) (w : W64)
  /-- DST (R201). dst stores a d register's 64-byte descriptor to memory. -/
  | dst (c : Nat) (w : W64)
  /-- DSET (R203). dset writes one descriptor field from a scalar register without checks. -/
  | dset (c : Nat) (w : W64)
  /-- DGET (R201). dget reads one descriptor field into a scalar register. -/
  | dget (c : Nat) (w : W64)
  /-- DMA (R206). dma checks its descriptors and starts copying one tensor into another in the DMA engine. -/
  | dma (c : Nat) (w : W64)
  /-- PUT (R207). The put instruction copies a tensor to a device address, possibly on a peer, and has a flag written after the payload. -/
  | put (c : Nat) (w : W64)
  /-- DWAIT (R205). dwait waits until every DMA, put and racc with a selected tag has completed. -/
  | dwait (c : Nat) (w : W64)
  /-- FENCE_L (R205). fence.l waits until earlier loads, stores and atomics are performed at their slices. -/
  | fenceL (c : Nat) (w : W64)
  /-- FENCE_A (R205). fence.a also waits until earlier writes, puts and RACCs are accepted by the local Crucible. -/
  | fenceA (c : Nat) (w : W64)
  /-- FENCE_R (R301). fence.r also waits until every earlier put and its flag are written at the destination, as counted from WACKs. -/
  | fenceR (c : Nat) (w : W64)
  /-- MM (R208). The matrix instruction checks its shapes and queues its passes and epilogue in the MXE. -/
  | mm (c : Nat) (w : W64)
  /-- PLOAD (R210). pload loads a weight tile into a plane, records its format and K and sets VALID. -/
  | pload (c : Nat) (w : W64)
  /-- TEPI (R210). tepi runs the epilogue on the live part of an accumulator tile. -/
  | tepi (c : Nat) (w : W64)
  /-- VTGET (R210). vtget copies one accumulator tile row or segment into a vector register. -/
  | vtget (c : Nat) (w : W64)
  /-- VTPUT (R210). vtput copies a vector register into one accumulator tile row or segment. -/
  | vtput (c : Nat) (w : W64)
  /-- ATTN (R211). The fused attention instruction runs one block of scores, row function and P·V. -/
  | attn (c : Nat) (w : W64) (e : W64)
  /-- VECTOR_ARITH (R213). vadd, vsub, vmul, vfma, vmin, vmax, vabs or vneg operates lane-wise. -/
  | vectorArith (c : Nat) (w : W64)
  /-- VECTOR_DIV_SQRT (R213). vdiv or vsqrt computes correctly rounded FP32 lanes. -/
  | vectorDivSqrt (c : Nat) (w : W64)
  /-- VECTOR_FUNCTION (R213). vexp, vrelu, vsilu or vgelu applies the defined elementary function to each lane. -/
  | vectorFunction (c : Nat) (w : W64)
  /-- VECTOR_BITWISE (R213). vand, vor, vxor, vshl, vshr or vsra operates on INT32 lanes. -/
  | vectorBitwise (c : Nat) (w : W64)
  /-- VMOV (R213). vmov copies a vector register. -/
  | vmov (c : Nat) (w : W64)
  /-- VCMP (R213). vcmp sets predicate bits from lane-wise comparisons. -/
  | vcmp (c : Nat) (w : W64)
  /-- VSEL (R213). vsel selects lanes from two vector registers by a predicate. -/
  | vsel (c : Nat) (w : W64)
  /-- VBCAST (R213). vbcast broadcasts a scalar or FP32 value into every lane. -/
  | vbcast (c : Nat) (w : W64)
  /-- VLANE (R213). vlane reads one lane into a scalar register. -/
  | vlane (c : Nat) (w : W64)
  /-- VRED (R213). vred.sum, vred.max or vred.min reduces 64 FP32 lanes into an f register. -/
  | vred (c : Nat) (w : W64)
  /-- VRED_ISUM (R213). vred.isum sums the INT32 lanes exactly into a scalar register. -/
  | vredIsum (c : Nat) (w : W64)
  /-- VCVT (R214). vcvt converts 64 elements between formats with the named rounding. -/
  | vcvt (c : Nat) (w : W64)
  /-- VQUANT (R214). vquant quantises two 32-element blocks into a block format. -/
  | vquant (c : Nat) (w : W64)
  /-- VDEQ (R214). vdeq decodes two blocks into FP32 lanes. -/
  | vdeq (c : Nat) (w : W64)
  /-- SRSEED (R214). srseed sets SR_SEED for later instructions. -/
  | srseed (c : Nat) (w : W64)
  /-- EREC (R215). erec applies a MAX update to an event slot. -/
  | erec (c : Nat) (w : W64)
  /-- EWAIT (R215). ewait starts waiting until an event slot reaches a value. -/
  | ewait (c : Nat) (w : W64)
  /-- EWAIT_WAKE (R269). A core waiting in ewait resumes once the slot's value reaches its operand. -/
  | ewaitWake (c : Nat)
  /-- MWAIT (R215). mwait sets a watch on a scratch word at its slice and waits. -/
  | mwait (c : Nat) (w : W64)
  /-- MWAIT_WAKE (R215). A write makes the watched word meet its condition and the waiting core resumes. -/
  | mwaitWake (c : Nat)
  /-- NPOST (R215). npost posts a notice to a queue and returns accepted, dropped or refused. -/
  | npost (c : Nat) (w : W64)
  /-- NPOP (R215). npop pops the highest-priority oldest notice, or EMPTY, into a vector register. -/
  | npop (c : Nat) (w : W64)
  /-- TSTAMP (R216). tstamp reads the die's Beat copy into xd. -/
  | tstamp (c : Nat) (w : W64)
  /-- TSTAMP_T (R216). tstamp.t emits a USER trace record with a tag, a value and the Beat. -/
  | tstampT (c : Nat) (w : W64)
  /-- CNTR (R216). cntr reads a core counter, coarsened under seal. -/
  | cntr (c : Nat) (w : W64)
  /-- TAKE (R178). take obtains a tile index and generation from a work counter, or its static form under DET. -/
  | take (c : Nat) (w : W64)
  /-- AMO_ADD (R216). amo.add fetch-adds an integer at an aligned scratch address. -/
  | amoAdd (c : Nat) (w : W64)
  /-- AMO_FADD (R216). amo.fadd or its posted form adds FP32 at an aligned scratch address. -/
  | amoFadd (c : Nat) (w : W64)
  /-- AMO_CAS (R216). amo.cas compares and swaps a scratch word. -/
  | amoCas (c : Nat) (w : W64)
  /-- RACC (R217). The racc instruction sends a tensor as remote-accumulate contributions to an HBM shard. -/
  | racc (c : Nat) (w : W64)
  /-- SQRES (R218). sqres reserves consecutive stage-queue slots or starts waiting for credits. -/
  | sqres (c : Nat) (w : W64)
  /-- SQRES_WAKE (R75). A waiting reservation is granted once enough credits have returned. -/
  | sqresWake (c : Nat)
  /-- SQPUB (R76). sqpub publishes a reserved entry with its length. -/
  | sqpub (c : Nat) (w : W64)
  /-- SQPOP (R218). sqpop returns the oldest visible entry or starts waiting. -/
  | sqpop (c : Nat) (w : W64)
  /-- SQPOP_WAKE (R77). A waiting pop returns once an entry becomes visible. -/
  | sqpopWake (c : Nat)
  /-- SQREL (R77). sqrel releases the oldest popped entry and returns its credits. -/
  | sqrel (c : Nat) (w : W64)
  /-- KSET (R219). kset writes the three values of a k register. -/
  | kset (c : Nat) (w : W64)
  /-- KGET (R219). kget reads one value of a k register. -/
  | kget (c : Nat) (w : W64)
  /-- TRAPEN (R219). trapen sets the core's arithmetic trap enables. -/
  | trapen (c : Nat) (w : W64)
  /-- FLAGS (R219). flags reads the sticky flags and DET into xd. -/
  | flags (c : Nat) (w : W64)
  /-- DMA_DONE (R206). A DMA, put or racc transfer completes in the DMA engine and releases its tag and granules. -/
  | dmaDone (c : Nat) (ext : Ext)
  /-- MXE_DONE (R197). A matrix-engine instruction retires from the MXE queue and may take an ARITH trap. -/
  | mxeDone (c : Nat)
  /-- VECTOR_DONE (R197). A vector or conversion instruction retires from the vector queue and may take an ARITH trap. -/
  | vectorDone (c : Nat)
  /-- CORE_FAULT (R183). A core's own hardware fails and the management core resets it and re-issues its held tile. -/
  | coreFault (c : Nat) (storage : Bool) (rowsOk : Bool)
  /-- CORE_HANG (R183). No instruction retires on a core for 131,072 Beats outside a T wait, which is a core fault. -/
  | coreHang (c : Nat)
  /-- PER_CORE_RESET_DONE (R448). A per-core reset ends and the core restarts the kernel or the dispatch ends with CORE_RESET. -/
  | perCoreResetDone (c : Nat)
  /-- PARTITION_CHANGE (R52). A CRU_PARTITION write holds accesses and starts moving the scratch boundary. -/
  | partitionChange (rq : Requester) (v : W32)
  /-- PARTITION_DONE (R52). A partition change ends, BUSY clears and held accesses are performed. -/
  | partitionDone (ext : Ext)
  /-- FLUSH (R491). CRU_CACHE_CTL.FLUSH starts writing back every dirty cache-window line. -/
  | flush (rq : Requester)
  /-- INVAL (R491). CRU_CACHE_CTL.INVAL starts writing back and invalidating the cache window. -/
  | inval (rq : Requester)
  /-- FLUSH_DONE (R491). A flush or invalidate ends and FLUSH_ACTIVE and BUSY clear. -/
  | flushDone
  /-- CRU_WIPE (R88). CRU_WIPE.START begins a Crucible wipe. -/
  | cruWipe (rq : Requester)
  /-- CRUCIBLE_WIPE_DONE (R87). A Crucible wipe ends and held accesses are performed against the zeroed store. -/
  | crucibleWipeDone (ext : Ext)
  /-- WC_STATE_WRITE (R65). A write of WC_INDEX, WC_LIMIT or WC_GEN takes effect or is dropped when the counter is enabled. -/
  | wcStateWrite (rq : Requester) (n : Nat) (reg : WcReg) (v : W32)
  /-- WC_CTL_WRITE (R354). Setting or clearing a work counter's ENABLE records its base generation or empties its re-issue list. -/
  | wcCtlWrite (rq : Requester) (n : Nat) (v : W32)
  /-- NQ_CTL_WRITE (R492). A write of NQ_CTL enables, disables or reconfigures a notice queue, or is dropped. -/
  | nqCtlWrite (rq : Requester) (n : Nat) (v : W32)
  /-- NQ_FLUSH (R72). NQ_CTL.FLUSH empties a notice queue and rearms its interrupts. -/
  | nqFlush (rq : Requester) (n : Nat) (popping : Popper)
  /-- NQ_BASE_WRITE (R492). A write of NQ_BASE_LO or NQ_BASE_HI sets the ring address or is dropped while enabled. -/
  | nqBaseWrite (rq : Requester) (n : Nat) (hi : Bool) (v : W32)
  /-- NOTICE_POST (R67). A 32-byte post reaches its queue's slice and is accepted, dropped or refused. -/
  | noticePost (n : Nat) (source : W16) (sw : Bool) (entry : W256)
  /-- NQ_PORT_READ (R73). A 32-byte read of NQ_PORT pops one entry for the management core or companion. -/
  | nqPortRead (rq : Requester) (n : Nat)
  /-- NQ_STALE_TIMEOUT (R71). A non-empty queue passes NQ_STALE Beats without a pop and sets STALE_HIT. -/
  | nqStaleTimeout (n : Nat)
  /-- SQ_CTL_WRITE (R79). A write of SQ_CTL configures a stage queue, and clearing ENABLE discards its entries. -/
  | sqCtlWrite (rq : Requester) (n : Nat) (v : W32)
  /-- CACHE_FILL (R56). A fill for a cache-window miss arrives and serves the merged requests in order. -/
  | cacheFill (line : Nat) (bad : List (Nat × WordState))
  /-- SCRUB (R86). A slice or base die scrub interval expires and one word is checked and rewritten. -/
  | scrub (unit : Nat) (addr : Nat) (bad : List (Nat × WordState))
  /-- SPRUE_FRAME_RX (R224). A Sprue frame arrives, is corrected and checked, and its ACK, NAK and credits are taken. -/
  | sprueFrameRx (frame : SprueFrame)
  /-- SPRUE_ACK_TIMEOUT (R225). 100 µs pass without ACK advancing and the Sprue retrains. -/
  | sprueAckTimeout
  /-- SPRUE_RETRAIN_DONE (R226). A Sprue retrain ends at full width, half width or down. -/
  | sprueRetrainDone (width : LinkWidth) (failed : List Nat) (ext : Ext)
  /-- MEM_RD (R239). A companion read of 64 bytes at a device address is performed or refused. -/
  | memRd (kernel : Bool) (tag : Nat) (addr : Nat) (mark : SealMark)
  /-- MEM_WR (R239). A companion write of 64 bytes at a device address is performed or refused. -/
  | memWr (kernel : Bool) (tag : Nat) (addr : Nat) (mark : SealMark) (data : W512) (poison : Bool)
  /-- MEM_WR_PARTIAL (R239). A companion masked write is performed or refused. -/
  | memWrPartial (kernel : Bool) (tag : Nat) (addr : Nat) (mark : SealMark) (mask : W64) (data : W512) (poison : Bool)
  /-- REG_RD (R247). A companion register read is answered after earlier writes, or pops a notice port. -/
  | regRd (kernel : Bool) (tag : Nat) (off : Nat) (ext : Ext)
  /-- REG_WR (R247). A posted companion register write is applied under the register conventions. -/
  | regWr (kernel : Bool) (off : Nat) (v : W32) (good : Nat) (ext : Ext)
  /-- AP_RD_SHARED (R235). The companion fills an aperture line in S. -/
  | apRdShared (kernel : Bool) (tag : Nat) (addr : Nat)
  /-- AP_RD_OWN (R235). The companion takes an aperture line in E after the window copy is invalidated. -/
  | apRdOwn (kernel : Bool) (tag : Nat) (addr : Nat)
  /-- AP_WB_DIRTY (R235). The companion writes back an M aperture line, which becomes I. -/
  | apWbDirty (kernel : Bool) (tag : Nat) (addr : Nat) (data : W512) (poison : Bool)
  /-- AP_EVICT (R235). The companion drops an S or E aperture line to I. -/
  | apEvict (kernel : Bool) (tag : Nat) (addr : Nat)
  /-- SNP_INV (R232). A companion snoop sends a device-held sector to I with data if it was M. -/
  | snpInv (tag : Nat) (addr : Nat) (mark : SealMark)
  /-- SNP_SHARE (R232). A companion snoop sends a device-held sector to S with data if it was M. -/
  | snpShare (tag : Nat) (addr : Nat) (mark : SealMark)
  /-- RSP_DATA (R232). Read data with a granted state arrives for a device request. -/
  | rspData (tag : Nat) (status : Nat) (st : Coherence) (mark : SealMark) (data : W512)
  /-- RSP_ACK (R233). A dataless completion arrives for a device request. -/
  | rspAck (tag : Nat) (status : Nat) (st : Coherence) (mark : SealMark)
  /-- SNP_RSP (R236). The companion's answer to an aperture snoop arrives and the base die updates HBM and the directory. -/
  | snpRsp (addr : Nat) (st : Coherence) (data : Option W512) (poison : Bool)
  /-- SPRUE_REQ_TIMEOUT (R233). A device request gets no response in SPR_REQ_TIMEOUT and ends with poison or as lost. -/
  | sprueReqTimeout (tag : Nat)
  /-- SPRUE_SNP_TIMEOUT (R237). A snoop of the companion is unanswered in SPR_SNP_TIMEOUT and the line is poisoned. -/
  | sprueSnpTimeout (addr : Nat)
  /-- SPR_INT_EOI (R240). An end-of-interrupt write clears IN_FLIGHT and resends a pending vector. -/
  | sprIntEoi (rq : Requester) (v : W32)
  /-- SPR_INT_MASK_WRITE (R240). A mask write that unmasks a pending vector sends its INT. -/
  | sprIntMaskWrite (rq : Requester) (n : Nat) (v : W32)
  /-- SPR_AP_CTL_WRITE (R234). A write of SPR_AP_CTL enables the aperture or snoops out every held line on disable. -/
  | sprApCtlWrite (rq : Requester) (v : W32)
  /-- MAP (R245). GLB_XLAT_CMD OP MAP asks firmware to map a range of pages. -/
  | xlatMap (rq : Requester) (v : W32)
  /-- UNMAP (R245). GLB_XLAT_CMD OP UNMAP asks firmware to remove mappings. -/
  | unmap (rq : Requester) (v : W32)
  /-- PROTECT (R245). GLB_XLAT_CMD OP PROTECT changes the entry bits of mapped pages. -/
  | protect (rq : Requester) (v : W32)
  /-- INVALIDATE_ALL (R245). GLB_XLAT_CMD OP INVALIDATE_ALL removes every mapping outside firmware's region. -/
  | invalidateAll (rq : Requester) (v : W32)
  /-- XLAT_DONE (R246). A translation request completes, caches are clean and BUSY clears with its ERR. -/
  | xlatDone
  /-- MBX_SEL (R255). A write of MBX_SEL starts a mailbox request. -/
  | mbxSel (rq : Requester) (v : W32)
  /-- MBX_SAMPLE_DONE (R255). The selected value is sampled into MBX_DATA and VALID is set. -/
  | mbxSampleDone
  /-- MBX_DATA3_READ (R255). A read of MBX_DATA[3] returns its word and clears VALID. -/
  | mbxData3Read (rq : Requester)
  /-- RC_REGISTER_READ (R249). A read of an RC register returns and clears its status bits atomically. -/
  | rcRegisterRead (rq : Requester) (off : Nat) (ext : Ext)
  /-- GLB_ACCESS_STATUS_READ (R254). A read of GLB_ACCESS_STATUS clears it and rearms denial recording. -/
  | glbAccessStatusRead (rq : Requester) (ext : Ext)
  /-- REGISTER_WRITE (R251). A write to a register without its own row is applied, dropped or denied under the conventions. -/
  | registerWrite (rq : Requester) (off : Nat) (v : W32) (good : Nat) (ext : Ext)
  /-- RWP_WRITE_DONE (R252). A posted write takes effect in its block and BUSY clears. -/
  | rwpWriteDone (off : Nat) (ext : Ext)
  /-- PARITY_SWEEP (R253). The 1 ms sweep checks configuration register parity and raises CSR_PARITY on a mismatch. -/
  | paritySweep (bad : List (Nat × W32)) (secure : Bool) (ext : Ext)
  /-- RING_CTL_WRITE (R261). A write of RING_CTL enables, disables or configures a ring, or is dropped. -/
  | ringCtlWrite (rq : Requester) (r : Nat) (v : W32) (ext : Ext)
  /-- RING_TAIL_WRITE (R259). A write of RING_TAIL or DB_TAIL advances a ring's tail or is dropped. -/
  | ringTailWrite (rq : Requester) (r : Nat) (db : Bool) (v : W32)
  /-- TAIL_WORD_WRITE (R259). A write to a watched tail word advances a ring with TAIL_SRC 1. -/
  | tailWordWrite (r : Nat) (ext : Ext)
  /-- RESUME (R285). RING_CMD RESUME returns a halted or paused ring to ACTIVE or is refused. -/
  | resume (rq : Requester) (r : Nat) (ext : Ext)
  /-- PAUSE (R261). RING_CMD PAUSE stops admission on a ring. -/
  | pause (rq : Requester) (r : Nat) (ext : Ext)
  /-- ABORT_ONE (R282). An abort with MODE 0 asks the arbiter to end the named command. -/
  | abortOne (rq : Requester) (r : Nat) (seq : W32) (ext : Ext)
  /-- ABORT_ONWARD (R282). An abort with MODE 1 ends the named command and every later one. -/
  | abortOnward (rq : Requester) (r : Nat) (seq : W32) (ext : Ext)
  /-- ABORT_ALL (R282). An abort with MODE 2 ends every command of the ring. -/
  | abortAll (rq : Requester) (r : Nat) (ext : Ext)
  /-- RING_CQ_HEAD_WRITE (R278). The consumer advances RING_CQ_HEAD and a waiting CQE can be written. -/
  | ringCqHeadWrite (rq : Requester) (r : Nat) (db : Bool) (v : W32) (ext : Ext)
  /-- EVENT_SET (R268). A write of ESC_EVT_HI sets an event slot to a 64-bit value. -/
  | eventSet (rq : Requester) (v : W32)
  /-- CMD_NOP (R264). A NOP command is admitted and completes. -/
  | cmdNop (r : Nat) (ext : Ext)
  /-- DISPATCH (R174). A DISPATCH is checked and starts a kernel on its core set. -/
  | cmdDispatch (r : Nat) (ext : Ext)
  /-- DISPATCH_CORE_START (R262). A core busy with another dispatch becomes free and the waiting dispatch starts on it. -/
  | dispatchCoreStart (r : Nat) (n : Nat) (c : Nat)
  /-- DISPATCH_COMPLETE (R190). Every core of the set has ended or stopped and the DISPATCH commits its status. -/
  | dispatchComplete (r : Nat) (n : Nat) (ext : Ext)
  /-- COPY (R266). A COPY is split into pieces and handed to the store-die copy engines. -/
  | copy (r : Nat) (ext : Ext)
  /-- COPY_PIECE_DONE (R266). One piece of a COPY finishes and the COPY completes after its last piece. -/
  | copyPieceDone (r : Nat) (n : Nat) (k : Nat) (ext : Ext)
  /-- RECORD_MAX (R268). A RECORD with OP MAX raises an event slot to VALUE. -/
  | recordMax (r : Nat) (ext : Ext)
  /-- RECORD_ADD (R268). A RECORD with OP ADD adds VALUE to an event slot, saturating. -/
  | recordAdd (r : Nat) (ext : Ext)
  /-- WAIT (R269). A WAIT command starts waiting for an event slot. -/
  | wait (r : Nat) (ext : Ext)
  /-- WAIT_WAKE (R269). A running WAIT completes once its slot's value reaches VALUE. -/
  | waitWake (r : Nat) (n : Nat) (ext : Ext)
  /-- BARRIER_LOCAL (R267). A local BARRIER arrives in its slot and completes all participants when COUNT are running. -/
  | barrierLocal (r : Nat) (ext : Ext)
  /-- BARRIER_FABRIC (R306). A fabric BARRIER sends its arrival up the job-set tree. -/
  | barrierFabric (r : Nat) (ext : Ext)
  /-- STRIKE (R350). A STRIKE is admitted and waits for its Beat, or commits at once as late. -/
  | strike (r : Nat) (ext : Ext)
  /-- STRIKE_FIRE (R349). The master Beat reaches a STRIKE's TARGET and the STRIKE commits. -/
  | strikeFire (r : Nat) (n : Nat) (ext : Ext)
  /-- IF (R271). An IF evaluates its condition and opens a frame or skips. -/
  | cmdIf (r : Nat) (ext : Ext)
  /-- ELSE (R272). An ELSE ends the taken branch and skips to its END. -/
  | cmdElse (r : Nat) (ext : Ext)
  /-- END (R272). An END closes an IF or repeats or leaves a LOOP. -/
  | cmdEnd (r : Nat) (ext : Ext)
  /-- LOOP_COUNT (R272). A LOOP in count mode opens a frame or skips its body. -/
  | loopCount (r : Nat) (ext : Ext)
  /-- LOOP_CONDITION (R272). A LOOP in condition mode tests its condition and opens a frame or skips. -/
  | loopCondition (r : Nat) (ext : Ext)
  /-- CMD_CALL (R272). A CALL command pushes a frame and runs the entries of a command buffer. -/
  | cmdCall (r : Nat) (ext : Ext)
  /-- RETURN (R272). A RETURN pops frames to the innermost CALL and resumes after it. -/
  | cmdReturn (r : Nat) (ext : Ext)
  /-- TIMESTAMP (R267). A TIMESTAMP reads the master Beat and writes it to ADDR and DETAIL. -/
  | timestamp (r : Nat) (ext : Ext)
  /-- NOTICE (R267). A NOTICE command posts a software notice with SOURCE 0x0100. -/
  | notice (r : Nat) (ext : Ext)
  /-- WRITE (R267). A WRITE command writes a memory word or a register with the ring's class. -/
  | write (r : Nat) (good : Nat) (ext : Ext)
  /-- COMMAND_TIMEOUT (R275). A command's timer passes its limit and the arbiter ends it with TIMEOUT. -/
  | commandTimeout (r : Nat) (n : Nat) (ext : Ext)
  /-- MUTUAL_WAIT (R277). The conditions of R276 hold for 1 ms and the blocked rings' waits end with MUTUAL_WAIT. -/
  | mutualWait (ext : Ext)
  /-- CHAIN_START (R286). A write of ESC_CHAIN_HI starts the chain runner at a descriptor. -/
  | chainStart (rq : Requester) (v : W32)
  /-- CHAIN_COPY (R286). A chain descriptor of KIND COPY starts copying bytes. -/
  | chainCopy (ext : Ext)
  /-- CHAIN_FILL (R286). A chain descriptor of KIND FILL starts filling memory with a pattern. -/
  | chainFill (ext : Ext)
  /-- CHAIN_WRITE (R286). A chain descriptor of KIND WRITE writes a register or word. -/
  | chainWrite (good : Nat) (ext : Ext)
  /-- CHAIN_POLL (R286). A chain descriptor of KIND POLL starts watching a word. -/
  | chainPoll (ext : Ext)
  /-- CHAIN_POLL_MATCH (R286). The polled word matches and the POLL descriptor completes. -/
  | chainPollMatch (ext : Ext)
  /-- CHAIN_WIPE (R286). A chain descriptor of KIND WIPE starts a Crucible wipe. -/
  | chainWipe (ext : Ext)
  /-- CHAIN_NOTICE (R286). A chain descriptor of KIND NOTICE posts a notice. -/
  | chainNotice (ext : Ext)
  /-- CHAIN_DESCRIPTOR_DONE (R286). A chain descriptor's work ends, its STATUS is written and the next starts or the chain ends. -/
  | chainDescriptorDone (ext : Ext)
  /-- CHAIN_TIMEOUT (R286). A chain descriptor exceeds its TIMEOUT and ends the chain. -/
  | chainTimeout (ext : Ext)
  /-- REDUCE_OPEN (R307). A REDUCE_OPEN creates a reduction record at the shard's base die. -/
  | reduceOpen (r : Nat) (ext : Ext)
  /-- REDUCE_SEND (R304). A REDUCE_SEND sends shard contributions, optionally compressed, then RACC_END. -/
  | reduceSend (r : Nat) (ext : Ext)
  /-- RING_REDUCE_SCATTER (R317). A RING_REDUCE_SCATTER starts the two-direction ring reduction of chunks. -/
  | ringReduceScatter (r : Nat) (ext : Ext)
  /-- RING_ALL_REDUCE (R304). A RING_ALL_REDUCE runs a reduce-scatter then gathers the result. -/
  | ringAllReduce (r : Nat) (ext : Ext)
  /-- ALL_GATHER (R305). An ALL_GATHER multicasts the local shard to every member. -/
  | allGather (r : Nat) (ext : Ext)
  /-- MULTICAST (R305). A MULTICAST sends data to every other member of the group. -/
  | multicast (r : Nat) (ext : Ext)
  /-- PARAM_COMMIT (R312). A PARAM_COMMIT writes new parameters, adds norms and multicasts them. -/
  | paramCommit (r : Nat) (ext : Ext)
  /-- CHECKPOINT (R304). A CHECKPOINT copies bytes to the D+ buddy over VC5. -/
  | checkpoint (r : Nat) (ext : Ext)
  /-- RUNNER_FRAME_RX (R290). A runner frame arrives, is decoded and checked, and its ACK, credits and messages are taken. -/
  | runnerFrameRx (l : Nat) (frame : RunnerFrame) (ext : Ext)
  /-- RUNNER_ACK_TIMEOUT (R291). 100 µs pass without ACK advancing on a runner link and it retrains. -/
  | runnerAckTimeout (l : Nat)
  /-- RUNNER_RETRAIN_DONE (R292). A runner retrain ends with the link UP or DOWN. -/
  | runnerRetrainDone (l : Nat) (ok : Bool) (failed : List Nat) (ext : Ext)
  /-- RUNNER_PUT (R294). A PUT message writes its data at the destination or is forwarded. -/
  | runnerPut (l : Nat) (m : RunMsg) (ext : Ext)
  /-- PUT_FLAG (R207). The last message of a put writes its data and then the flag word. -/
  | putFlag (l : Nat) (m : RunMsg) (ext : Ext)
  /-- SQ_DATA (R75). Stage-queue data arrives into reserved slots. -/
  | sqData (l : Nat) (m : RunMsg) (ext : Ext)
  /-- SQ_PUBLISH (R76). A remote publish makes an entry visible in reservation order. -/
  | sqPublish (l : Nat) (m : RunMsg) (ext : Ext)
  /-- SQ_CREDIT (R77). Released slots return as credits to the producer. -/
  | sqCredit (l : Nat) (m : RunMsg) (ext : Ext)
  /-- WACK (R301). A write acknowledgement reduces the origin's outstanding ACK_REQ count. -/
  | wack (l : Nat) (m : RunMsg) (ext : Ext)
  /-- RUNNER_RACC (R308). A RACC contribution reaches its owner and is added or staged. -/
  | runnerRacc (l : Nat) (m : RunMsg) (ext : Ext)
  /-- RACC_COMMIT (R308). A tile commit completes a unit at the owner. -/
  | raccCommit (l : Nat) (m : RunMsg) (ext : Ext)
  /-- RACC_END (R308). A contributor's end completes its unit at the owner. -/
  | raccEnd (l : Nat) (m : RunMsg) (ext : Ext)
  /-- RACC_TAINT (R308). A re-issued tile taints a DIRECT record, which closes as CORE_RESET. -/
  | raccTaint (l : Nat) (m : RunMsg) (ext : Ext)
  /-- RING_PART (R318). A ring partial sum arrives, is added to the local chunk and forwarded or written. -/
  | ringPart (l : Nat) (m : RunMsg) (ext : Ext)
  /-- MCAST (R305). Multicast data arrives, is written locally and forwarded while hops remain. -/
  | mcast (l : Nat) (m : RunMsg) (ext : Ext)
  /-- BAR_ARRIVE (R306). A barrier arrival is combined up the tree, and at the root releases it. -/
  | barArrive (l : Nat) (m : RunMsg) (ext : Ext)
  /-- BAR_RELEASE (R306). A barrier release travels down the tree and completes each participant. -/
  | barRelease (l : Nat) (m : RunMsg) (ext : Ext)
  /-- BAR_WITHDRAW (R306). A withdrawal removes an arrival from the barrier tree. -/
  | barWithdraw (l : Nat) (m : RunMsg) (ext : Ext)
  /-- VETO (R328). A VETO message is forwarded and applied to the current or next step. -/
  | veto (l : Nat) (m : RunMsg) (ext : Ext)
  /-- STRIKE_SET (R351). A STRIKE_SET arrival sets the strike register, counts and records the event. -/
  | strikeSet (l : Nat) (m : RunMsg) (ext : Ext)
  /-- CKPT (R301). Checkpoint data arrives at the buddy and is written. -/
  | ckpt (l : Nat) (m : RunMsg) (ext : Ext)
  /-- SYNC_REQ (R346). A parent answers a child's Beat synchronisation request with SYNC_RSP. -/
  | syncReq (l : Nat) (m : RunMsg) (ext : Ext)
  /-- SYNC_RSP (R347). A child computes its offset and trims or steps its Beat. -/
  | syncRsp (l : Nat) (m : RunMsg) (ext : Ext)
  /-- MAINT (R294). Other firmware and management traffic arrives on VC7. -/
  | maint (l : Nat) (m : RunMsg) (ext : Ext)
  /-- NAK (R300). A refusal arrives and completes the named command or is logged. -/
  | nak (l : Nat) (m : RunMsg) (ext : Ext)
  /-- FLOOD (R299). A frame header carries an unseen abort flood, which is relayed and, for this job, applied. -/
  | flood (l : Nat) (job : Nat) (serial : Nat) (ext : Ext)
  /-- FLOOD_RELAY_END (R299). The 2 µs in which a flood is carried in every frame header ends. -/
  | floodRelayEnd
  /-- REDUCTION_DEADLINE (R310). A reduction record's deadline passes and it closes with incomplete units excluded. -/
  | reductionDeadline (red : Nat)
  /-- REDUCTION_CLOSE_DONE (R311). The close work of MEAN and NORMS ends and the REDUCE_OPEN completes. -/
  | reductionCloseDone (red : Nat) (ext : Ext)
  /-- QUIET_END (R453). The quiet period after a flood ends and QUIET clears. -/
  | quietEnd
  /-- LINK_ENABLE (R475). RUN_LINK_CTL.ENABLE puts a link in service and starts training. -/
  | linkEnable (rq : Requester) (l : Nat) (on : Bool)
  /-- LINK_RETRAIN (R291). RUN_LINK_CTL.RETRAIN forces a link retrain. -/
  | linkRetrain (rq : Requester) (l : Nat)
  /-- LINK_LOOPBACK (R302). RUN_LINK_CTL.LOOPBACK puts a link into near-end loopback. -/
  | linkLoopback (rq : Requester) (l : Nat) (on : Bool)
  /-- LINK_TRAIN_DONE (R302). Link training ends and the peer's id and port are checked against the port map. -/
  | linkTrainDone (l : Nat) (ok : Bool) (peerId : Nat) (peerPort : Nat) (lanes : Nat) (credits : List Nat)
  /-- RUN_JOB_SET_WRITE (R496). A write of RUN_JOB_SET narrows the job set or is dropped. -/
  | runJobSetWrite (rq : Requester) (v : W32)
  /-- GATE_WIRE_FAIL (R432). A gate wire fails and is replaced by a spare, or the gate goes out of service. -/
  | gateWireFail (die : Nat) (wire : Nat) (ext : Ext)
  /-- SOFTWARE_VETO (R326). A write of TRN_CTL.VETO vetoes the current step or is dropped. -/
  | softwareVeto (rq : Requester) (ext : Ext)
  /-- STEP_GATE_ARRIVE (R331). The device's last reduction record closes and its held step-gate arrival is sent. -/
  | stepGateArrive (ext : Ext)
  /-- STEP_END (R333). TRN_CTL.STEP_END updates scale, step and counts and writes the step word. -/
  | stepEnd (rq : Requester) (ext : Ext)
  /-- BEAT_BROADCAST (R341). Every 1,024 Beats the master sends its value and mismatched copies reload. -/
  | beatBroadcast (drift : List (Nat × W64))
  /-- BEAT_RELOAD_DONE (R344). A powered-up die's Beat copy finishes reloading and held stamps proceed. -/
  | beatReloadDone (die : Nat)
  /-- RELOAD_FAIL (R344). A copy reload does not end within 4 µs and the die is treated as failed. -/
  | reloadFail (die : Nat) (ext : Ext)
  /-- SYNC_INTERVAL (R346). The synchronisation interval expires and SYNC_REQ is sent to the parent. -/
  | syncInterval
  /-- STRIKE_SET_SEND (R351). A write of BEAT_SS_SEND_HI sends a strike target over the tree. -/
  | strikeSetSend (rq : Requester) (v : W32)
  /-- LATCH_ARM (R359). A write of CNT_LATCH_HI arms the counter latch at a target Beat. -/
  | latchArm (rq : Requester) (v : W32)
  /-- LATCH_FIRE (R359). A die's copy reaches the target and copies its counters into the latch bank. -/
  | latchFire
  /-- TRACE_SAMPLE (R360). A TRC_SAMPLE interval expires and a COUNTER trace record is produced. -/
  | traceSample (n : Nat)
  /-- TRACE_RECORD_ACCEPT (R361). A buffered trace record reaches its sink and is queued, written or dropped. -/
  | traceRecordAccept (n : Nat) (die : Nat)
  /-- GROUP_CLOSE_TIMEOUT (R364). 4,096 Beats pass since a packet group opened and it closes into a GROUP record. -/
  | groupCloseTimeout (l : Nat) (v : Nat)
  /-- RR_RECORD_START (R363). RR_CTL MODE RECORD starts logging external inputs. -/
  | rrRecordStart (rq : Requester) (wrap : Bool)
  /-- RR_REPLAY_START (R366). RR_CTL MODE REPLAY enters replay or is refused. -/
  | rrReplayStart (rq : Requester)
  /-- RR_OFF (R366). RR_CTL MODE OFF stops recording or ends replay. -/
  | rrOff (rq : Requester)
  /-- RR_MARK (R365). RR_CTL.MARK logs a SOFTWARE mark. -/
  | rrMark (rq : Requester)
  /-- REPLAY_INJECT (R366). The next log record's Beat is reached and it is injected at its port. -/
  | replayInject (ext : Ext)
  /-- REPLAY_DIVERGED (R366). An input cannot be applied within 1 ms of its Beat and replay stops. -/
  | replayDiverged
  /-- IMAGE_VERIFY_DONE (R375). Assay's hash of an admitted image ends and the waiting DISPATCH proceeds or is denied. -/
  | imageVerifyDone (r : Nat) (n : Nat) (ext : Ext)
  /-- SEAL_WIPE_DONE (R374). The seal wipe ends and seal entry or exit finishes. -/
  | sealWipeDone (ext : Ext)
  /-- FULL_WIPE_DONE (R392). A full wipe ends and bring-up continues. -/
  | fullWipeDone
  /-- IDCODE (R394). The debug port's IDCODE instruction. -/
  | idcode
  /-- BYPASS (R394). The debug port's BYPASS instruction. -/
  | bypass
  /-- SAMPLE (R394). The debug port's SAMPLE instruction, admitted only in permitted states. -/
  | sample
  /-- EXTEST (R394). The debug port's EXTEST instruction, admitted only in permitted states. -/
  | extest
  /-- DBG_ACCESS (R397). A debug access within the unlocked scope. -/
  | dbgAccess (op : DbgOp) (ext : Ext)
  /-- DBG_CHALLENGE (R396). Assay draws a new debug challenge. -/
  | dbgChallenge (rq : Requester)
  /-- DBG_UNLOCK (R396). Two debug tokens are verified and on success the device wipes and unlocks. -/
  | dbgUnlock (rq : Requester) (input : List Byte)
  /-- CHALLENGE (R404). Assay returns a fresh 32-byte challenge. -/
  | challenge (rq : Requester)
  /-- HALLMARK (R413). Assay signs a PLAIN Hallmark over a supplied nonce. -/
  | hallmark (rq : Requester)
  /-- PROVISION (R400). A vendor statement moves Test to Provisioned and creates the identity seed. -/
  | provision (rq : Requester) (good : Nat) (ext : Ext)
  /-- ENROLL (R400). A vendor statement enrols an owner and moves Provisioned to Owned. -/
  | enroll (rq : Requester) (good : Nat) (ext : Ext)
  /-- TRANSFER (R402). An owner statement revokes the owner slot and commits a new owner. -/
  | transfer (rq : Requester) (good : Nat) (ext : Ext)
  /-- RELEASE (R400). An owner statement revokes the owner and returns to Provisioned. -/
  | release (rq : Requester) (good : Nat) (ext : Ext)
  /-- RETIRE (R403). A statement retires the device and destroys its identity key. -/
  | retire (rq : Requester) (good : Nat) (ext : Ext)
  /-- ADVANCE_SVN (R408). A statement programs MIN_SVN cells up to ARG. -/
  | advanceSvn (rq : Requester) (good : Nat) (ext : Ext)
  /-- POLICY (R418). An owner statement delivers a Regulator policy blob, which is applied with clamping. -/
  | policy (rq : Requester)
  /-- SEAL_OFFER (R410). Assay makes an ML-KEM key pair and returns it with a SEAL_OFFER Hallmark. -/
  | sealOffer (rq : Requester)
  /-- SEAL_ENTER (R420). Assay unwraps the job keys, checks the manifest and starts seal entry. -/
  | sealEnter (rq : Requester) (ext : Ext)
  /-- SEAL_EXIT (R421). An authenticated exit request signs a SEAL_EXIT Hallmark and ends the seal. -/
  | sealExit (rq : Requester) (ext : Ext)
  /-- COMPLETE (R401). COMPLETE after a life-cycle transition performs the device reset. -/
  | complete (rq : Requester) (ext : Ext)
  /-- ASSAY_DONE (R416). An Assay operation ends, DONE sets and the result and output are posted. -/
  | assayDone
  /-- LC_PENDING_TIMEOUT (R401). 10 s pass after a transition's receipt without COMPLETE and the device resets. -/
  | lcPendingTimeout (ext : Ext)
  /-- ENTROPY (R409). The entropy source fails its health test and the DRBG stops. -/
  | entropy
  /-- MANUFACTURE_PROGRAM (R400). A manufacturing write through the debug port moves Blank to Test. -/
  | manufactureProgram (serial : BitVec 128) (rootKey : W256) (debugDigest : W256) (good : Nat)
  /-- REGULATOR_SAMPLE (R435). The Regulator samples every sensor, at least every 10 µs. -/
  | regulatorSample (watts : Nat) (dies : List (Nat × DieSample))
  /-- REGULATOR_DECIDE (R436). Every 1 ms the Regulator sets supplies, taps, scrub rates and Risers and reports rates. -/
  | regulatorDecide (supplies : List (Nat × Nat × Nat)) (power : Bool) (temp : Bool) (finds : List RglFind) (ext : Ext)
  /-- THERMAL_TRIP (R438). A die reaches its absolute maximum junction and loses power, an uncontained fault. -/
  | thermalTrip (die : Nat) (junction : Nat) (ext : Ext)
  /-- IDLE_GATE (R438). A compute die's cores stay idle for IDLE_GATE_US and the die is power-gated. -/
  | idleGate (die : Nat)
  /-- BANK_SPARE_DONE (R431). A bank's copy to the spare ends and its address switches. -/
  | bankSpareDone (slice : Nat)
  /-- RETIRE_REQUEST_TIMEOUT (R429). 10 s pass after RETIRE_REQUEST and the page is retired. -/
  | retireRequestTimeout (page : Nat)
  /-- WINDOW_GRANT (R442). A write of RGL_WINDOW grants a pending repair request or is refused. -/
  | windowGrant (rq : Requester) (v : W32)
  /-- WINDOW_BEGIN (R443). A granted window's unit becomes quiet and the repair starts. -/
  | windowBegin
  /-- REPAIR_DONE (R444). A repair finishes and its window ends. -/
  | repairDone (ok : Bool) (rows : List Nat) (cols : List Nat) (ext : Ext)
  /-- WINDOW_EXPIRE (R444). A window's duration expires and an unfinished repair is abandoned. -/
  | windowExpire
  /-- WINDOW_END_REQUEST (R444). A write of RGL_WINDOW with the active id and 0 ends the window. -/
  | windowEndRequest (rq : Requester) (id : Nat)
  /-- RECORD_RETRY (R446). While UNSAVED, the Riser record write is retried every 1 s. -/
  | recordRetry (ext : Ext)
  /-- COMPUTE_RESET (R449). RSR_RESET.COMPUTE resets cores and disables rings, keeping memory. -/
  | computeReset (rq : Requester) (ext : Ext)
  /-- COMPUTE_RESET_DONE (R449). A compute reset completes and BUSY clears. -/
  | computeResetDone
  /-- DEVICE_RESET (R450). RSR_RESET.DEVICE resets every unit, wipes and restarts bring-up. -/
  | deviceReset (rq : Requester) (ext : Ext)
  /-- FLOOD_START (R452). RSR_FLOOD.START begins an abort flood for the job. -/
  | floodStart (rq : Requester) (ext : Ext)
  /-- RESET_N_RELEASE (R479). RESET_N rises with rails and reference good and bring-up begins in CTRL_SELECT. -/
  | resetNRelease (good : Bool)
  /-- CTRL_SELECT (R461). Control die checks end and one die is chosen to serve, with storage reconciled. -/
  | ctrlSelect (aOk : Bool) (bOk : Bool)
  /-- DIE_INIT (R463). Every die is powered, gates trained and Beat copies loaded. -/
  | dieInit (excluded : List Nat) (badDie : Option Nat) (badGate : Option (Nat × Nat))
  /-- HBM_INIT (R464). HBM PHY training and stack initialisation end. -/
  | hbmInit (badStack : Option Nat)
  /-- BOOT_GO (R468). GO becomes 1 and the ROM checks the boot descriptor. -/
  | bootGo
  /-- FW_VERIFY (R469). Assay's checks of the firmware image end with admission or a failure report. -/
  | fwVerify
  /-- FW_TIMEOUT (R469). FW_WAIT lasts longer than 60 s and the device fails. -/
  | fwTimeout
  /-- FW_START (R470). Firmware moves its body to HBM and installs the coordinate. -/
  | fwStart
  /-- RECORD (R471). The Riser record is checked and applied. -/
  | record
  /-- MEM_TEST (R472). HBM and Crucible march tests end, with repairs and retirements. -/
  | memTest (rows : List (Nat × Nat)) (pages : List Nat) (banks : List (Nat × Nat)) (badSlice : Option Nat)
  /-- CORE_TEST (R473). Core self-tests end and logical slots are assigned. -/
  | coreTest (failed : List (Nat × Nat)) (cells : List (Nat × Nat × Nat × Bool))
  /-- CHARACTERISE (R474). First characterisation ends and each die's tap and supply are chosen. -/
  | characterise (noMargin : List Nat) (dies : List (Nat × Nat × Nat))
  /-- LINKS (R475). Runner link training ends or times out and the device enters READY. -/
  | links
  /-- SPRUE_LOCK (R466). The LOCK phase of Sprue training completes with equalisation adapted. -/
  | sprueLock
  /-- SPRUE_ALIGN (R466). The ALIGN phase of Sprue training completes. -/
  | sprueAlign
  /-- SPRUE_MAP (R466). The MAP phase of Sprue training agrees the lane map. -/
  | sprueMap (failed : List Nat)
  /-- SPRUE_UP (R466). Sprue training reaches UP, credits are exchanged and DATA frames begin. -/
  | sprueUp (credits : Nat × Nat × Nat × Nat)
  /-- SPRUE_TRAIN_TIMEOUT (R466). Training does not reach UP within 1 s and restarts or fails. -/
  | sprueTrainTimeout (lanes : Nat)
  /-- RESET_N_LOW (R481). RESET_N is low for 1 µs with rails in range and the device resets. -/
  | resetNLow (ext : Ext)
  /-- RAIL_FAULT (R481). A rail leaves its range too long and every die is held in reset with FAULT_N low. -/
  | railFault
  /-- REFCLK_LOSS (R483). The reference stops or drifts too far and the PLLs lose lock. -/
  | refclkLoss
  /-- THERMTRIP (R485). A hardware comparator sees 115 °C and drives THERMTRIP_N low. -/
  | thermtrip
  /-- BMI_READ (R490). The board controller reads the management interface, and a read of byte 0 releases BMI_ALERT_N. -/
  | bmiRead (off : Nat)
  /-- COLLECTIVE_SEND_ACCEPTED (R304). The last message of a REDUCE_SEND, MULTICAST or PARAM_COMMIT is accepted by the local Crucible and the COLLECTIVE commits its status. -/
  | collectiveSendAccepted (r : Nat) (n : Nat) (ext : Ext)
  /-- RAILS_IN_RANGE (R481). With RESET_N already high, the last rail or the reference comes within its limits and bring-up begins. -/
  | railsInRange
  /-- DIE_POWER_RESTORED (R438). Power returns to a power-gated compute die, its Beat copy starts reloading and the dispatch's cores on it start within 25 µs. -/
  | diePowerRestored (die : Nat)
deriving DecidableEq, Repr

end Sys2Proof
end

