-- ==== Sys2Proof/Decode.lean ====
section
/-! DEFINITION. Commands as words. The rows of the command table give no bits, so no word spells a command. -/

namespace Sys2Proof

/-- The command that the table's bits of a word spell: none, for no row of the table has bits. -/
def decodeTableWord (_nbits _w : Nat) : Option Instr := none

end Sys2Proof
end

