-- ==== Sys2Proof/Machine/Tab.lean ====
section
/-! DEFINITION. Sparse tables: the one shape in which the model holds every large array of the spec (register
instances, bytes of memory, cores, queues, counters). A table is a list of (key, value) pairs with keys strictly
rising and no entry equal to the value an unlisted key reads as, so equal tables are equal data. -/

namespace Sys2Proof.Machine

/-- A sparse table over natural-number keys. -/
abbrev Tab (α : Type) := List (Nat × α)

namespace Tab
variable {α : Type}

/-- The listed value of a key, if there is one. -/
def find? : Tab α → Nat → Option α
  | [], _ => none
  | (k', v) :: t, k => if k' = k then some v else find? t k

/-- The value at a key; `d` is what an unlisted key reads as. -/
def get (d : α) (t : Tab α) (k : Nat) : α := (find? t k).getD d

/-- Removes every entry of a key. -/
def erase : Tab α → Nat → Tab α
  | [], _ => []
  | (k', v) :: t, k => if k' = k then erase t k else (k', v) :: erase t k

/-- Lists a value under a key, in key order. -/
def insert : Tab α → Nat → α → Tab α
  | [], k, v => [(k, v)]
  | (k', v') :: t, k, v =>
    if k < k' then (k, v) :: (k', v') :: t
    else if k' = k then (k, v) :: t
    else (k', v') :: insert t k v

/-- Writes a key: an entry equal to the default is removed, any other is listed. -/
def set [DecidableEq α] (d : α) (t : Tab α) (k : Nat) (v : α) : Tab α :=
  if v = d then erase t k else insert t k v

/-- Reads, changes and writes one key. -/
def modify [DecidableEq α] (d : α) (t : Tab α) (k : Nat) (f : α → α) : Tab α := set d t k (f (get d t k))

/-- Every key of a table is above a bound. -/
def above (b : Nat) : Tab α → Bool
  | [] => true
  | (k, _) :: t => (b < k) && above b t

/-- The canonical form: keys strictly rise and no entry equals the default. -/
def wf [DecidableEq α] (d : α) : Tab α → Bool
  | [] => true
  | (k, v) :: t => decide (v ≠ d) && above k t && wf d t

end Tab
end Sys2Proof.Machine
end

