-- ==== Sys2Proof/Machine/Bytes.lean ====
section
/-! DEFINITION. Bit fields and little-endian byte lists (R7). -/

namespace Sys2Proof.Machine

/-- Bits [hi:lo] of a number. -/
def bits (v hi lo : Nat) : Nat := (v >>> lo) % 2 ^ (hi + 1 - lo)

/-- A number with bits [hi:lo] replaced by a value's low bits. -/
def putBits (v hi lo x : Nat) : Nat :=
  v - (bits v hi lo) <<< lo + (x % 2 ^ (hi + 1 - lo)) <<< lo

/-- Bit `i` of a number. -/
def bit (v i : Nat) : Bool := v.testBit i

/-- 1 for true, 0 for false. -/
def b2n (b : Bool) : Nat := if b then 1 else 0

/-- The signed reading of the low `w` bits. -/
def sext (w v : Nat) : Int :=
  let v := v % 2 ^ w
  if 2 ^ (w - 1) ≤ v then (v : Int) - (2 ^ w : Nat) else v

/-- The low `w` bits of an integer, two's complement. -/
def wrap (w : Nat) (i : Int) : Nat := (i % (2 ^ w : Nat)).toNat

/-- Saturating addition at the largest `w`-bit value. -/
def satAdd (w a b : Nat) : Nat := min (a + b) (2 ^ w - 1)

/-- The first `n` bytes of a number, least significant first (R7). -/
def toBytes : Nat → Nat → List Byte
  | 0, _ => []
  | n + 1, v => BitVec.ofNat 8 v :: toBytes n (v / 256)

/-- The number a byte list spells, least significant byte first (R7). -/
def ofBytes : List Byte → Nat
  | [] => 0
  | b :: t => b.toNat + 256 * ofBytes t

/-- The numbers from `a`, `n` of them. -/
def upFrom (a : Nat) : Nat → List Nat
  | 0 => []
  | n + 1 => a :: upFrom (a + 1) n

/-- Replaces the element at an index of a list. -/
def listSet {α : Type} : List α → Nat → α → List α
  | [], _, _ => []
  | _ :: t, 0, v => v :: t
  | h :: t, n + 1, v => h :: listSet t n v

/-- Removes the first element that a test accepts. -/
def eraseFirst {α : Type} (p : α → Bool) : List α → List α
  | [] => []
  | h :: t => if p h then t else h :: eraseFirst p t

/-- Applies a function to every element that a test accepts. -/
def updateWhere {α : Type} (p : α → Bool) (f : α → α) (l : List α) : List α :=
  l.map fun a => if p a then f a else a

/-- Folds a state change over a list of items, in order. -/
def forEach {α σ : Type} (f : α → σ → σ) : List α → σ → σ
  | [], s => s
  | a :: t, s => forEach f t (f a s)

end Sys2Proof.Machine
end

