-- ==== Sys2Proof/Machine/Float.lean ====
section
/-! DEFINITION. Floating-point elements and their arithmetic, bit for bit (R89 to R92, R99 to R103, R117, R122, R149,
R153, R154). A value is unpacked into sign, integer magnitude and binary exponent; every operation is exact on the
unpacked value and is rounded once. -/

namespace Sys2Proof.Machine

/-- An unpacked value: a NaN, an infinity, or (−1)^neg · m · 2^e. -/
inductive Val where
  | nan
  | inf (neg : Bool)
  | fin (neg : Bool) (m : Nat) (e : Int)
deriving DecidableEq, Repr

/-- What an operation raises and counts (Table 3.8). -/
structure Conds where
  nv : Bool := false
  ov : Bool := false
  sat : Bool := false
  nanIn : Bool := false
  nonfinite : Nat := 0
  flushed : Nat := 0
deriving DecidableEq, Repr

namespace Conds
/-- Nothing raised. -/
def none : Conds := {}
/-- The conditions of two operations together. -/
def join (a b : Conds) : Conds :=
  { nv := a.nv || b.nv, ov := a.ov || b.ov, sat := a.sat || b.sat, nanIn := a.nanIn || b.nanIn,
    nonfinite := a.nonfinite + b.nonfinite, flushed := a.flushed + b.flushed }
/-- The conditions of a list of operations together. -/
def joinAll : List Conds → Conds
  | [] => none
  | c :: cs => join c (joinAll cs)
end Conds

/-- A floating-point element layout of Table 3.2: exponent and mantissa bits, bias, the code of the largest finite
magnitude, the infinity's code and the canonical NaN (Table 3.3) where the format has them. -/
structure FFmt where
  eb : Nat
  mb : Nat
  bias : Nat
  maxCode : Nat
  infCode : Option Nat
  nanCode : Option Nat
deriving DecidableEq, Repr

namespace FFmt
/-- IEEE 754 binary32. -/
def fp32 : FFmt := ⟨8, 23, 127, 0x7F7FFFFF, some 0x7F800000, some 0x7FC00000⟩
/-- IEEE 754 binary16. -/
def fp16 : FFmt := ⟨5, 10, 15, 0x7BFF, some 0x7C00, some 0x7E00⟩
/-- bfloat16. -/
def bf16 : FFmt := ⟨8, 7, 127, 0x7F7F, some 0x7F80, some 0x7FC0⟩
/-- OCP E4M3: no infinity, NaN only at all ones (R98). -/
def e4m3 : FFmt := ⟨4, 3, 7, 0x7E, none, some 0x7F⟩
/-- OCP E5M2. -/
def e5m2 : FFmt := ⟨5, 2, 15, 0x7B, some 0x7C, some 0x7E⟩
/-- OCP E3M2. -/
def e3m2 : FFmt := ⟨3, 2, 3, 0x1F, none, none⟩
/-- OCP E2M3. -/
def e2m3 : FFmt := ⟨2, 3, 1, 0x1F, none, none⟩
/-- OCP E2M1. -/
def e2m1 : FFmt := ⟨2, 1, 1, 0x7, none, none⟩

/-- The bit that holds the sign. -/
def signBit (f : FFmt) : Nat := f.eb + f.mb
/-- A magnitude code with its sign. -/
def signed (f : FFmt) (neg : Bool) (mag : Nat) : Nat := if neg then mag + 2 ^ f.signBit else mag

/-- The value of a code (Table 3.2). -/
def decode (f : FFmt) (bits : Nat) : Val :=
  let neg := bits.testBit f.signBit
  let mag := bits % 2 ^ f.signBit
  if mag ≤ f.maxCode then
    let ex := mag / 2 ^ f.mb
    let mant := mag % 2 ^ f.mb
    if ex = 0 then .fin neg mant (1 - (f.bias : Int) - f.mb)
    else .fin neg (2 ^ f.mb + mant) ((ex : Int) - f.bias - f.mb)
  else if f.infCode = some mag then .inf neg else .nan
end FFmt

/-- The three rounding modes of R99. -/
inductive Rnd where
  | rne
  | rtz
  | sr
deriving DecidableEq, Repr

/-- Rounds `m · 2^(-sh)` to an integer; `r` is the 16-bit random value of R101, used by `sr` alone. -/
def roundShift (md : Rnd) (r : Nat) (m sh : Nat) : Nat :=
  let q := m >>> sh
  let rem := m % 2 ^ sh
  match md with
  | .rtz => q
  | .rne =>
    let twice := 2 * rem
    if twice > 2 ^ sh then q + 1 else if twice = 2 ^ sh then q + q % 2 else q
  | .sr => if r < (rem <<< 16) >>> sh then q + 1 else q

/-- Rounds `m · 2^e` to a multiple of `2^q`, answered in units of `2^q`. -/
def roundUnits (md : Rnd) (r : Nat) (m : Nat) (e q : Int) : Nat :=
  if q ≤ e then m <<< (e - q).toNat else roundShift md r m (q - e).toNat

/-- The exponent ⌊log₂⌋ of a non-zero `m · 2^e`. -/
def expOf (m : Nat) (e : Int) : Int := (m.log2 : Int) + e

namespace FFmt
/-- The magnitude code that a non-zero magnitude rounds to, which may lie above the largest finite code. -/
def roundCode (f : FFmt) (md : Rnd) (r : Nat) (m : Nat) (e : Int) : Nat :=
  let emin : Int := 1 - (f.bias : Int)
  let q := max (expOf m e) emin - f.mb
  (q + f.mb + f.bias - 1).toNat * 2 ^ f.mb + roundUnits md r m e q

/-- The canonical NaN, or zero in a format without one (never reached by an operation: R106 makes the block NaN). -/
def canonNan (f : FFmt) : Nat := f.nanCode.getD 0

/-- The code of an overflowed result (Table 3.5): the saturate bit chooses the largest finite; without it an infinity,
or the NaN of a format that has no infinity. A format with neither saturates (R100). -/
def overflowCode (f : FFmt) (sat neg : Bool) : Nat :=
  if sat then f.signed neg f.maxCode
  else match f.infCode with
    | some c => f.signed neg c
    | none => match f.nanCode with
      | some c => c
      | none => f.signed neg f.maxCode

/-- Converts a value to a format with one rounding (R99 to R101, Table 3.5). -/
def encode (f : FFmt) (md : Rnd) (r : Nat) (sat : Bool) : Val → Nat × Conds
  | .nan => (f.canonNan, .none)
  | .inf neg =>
    match f.infCode with
    | some c => (f.signed neg c, .none)
    | none => (f.overflowCode sat neg, { ov := true })
  | .fin neg m e =>
    if m = 0 then (f.signed neg 0, .none)
    else
      let c := f.roundCode md r m e
      if f.maxCode < c then (f.overflowCode sat neg, { ov := true }) else (f.signed neg c, .none)

/-- Round to nearest even with overflow to infinity: the rounding of every arithmetic result. -/
def rne (f : FFmt) (v : Val) : Nat × Conds := f.encode .rne 0 false v
end FFmt

namespace Val
/-- A NaN or an infinity. -/
def nonfinite : Val → Bool
  | .fin _ _ _ => false
  | _ => true

/-- The sign changed. -/
def neg : Val → Val
  | .nan => .nan
  | .inf n => .inf (!n)
  | .fin n m e => .fin (!n) m e

/-- The sign cleared. -/
def abs : Val → Val
  | .nan => .nan
  | .inf _ => .inf false
  | .fin _ m e => .fin false m e

/-- The value times 2^k. -/
def scale (k : Int) : Val → Val
  | .fin n m e => .fin n m (e + k)
  | v => v

/-- The signed integer of a finite value in units of `2^q`, for `q` at or below its exponent. -/
def units (q : Int) : Val → Int
  | .fin n m e => let v : Int := (m <<< (e - q).toNat : Nat); if n then -v else v
  | _ => 0

/-- The exact product (Table 3.7: ∞ × 0 is NaN with NV). -/
def mul : Val → Val → Val × Conds
  | .nan, _ => (.nan, .none)
  | _, .nan => (.nan, .none)
  | .inf a, .inf b => (.inf (a != b), .none)
  | .inf a, .fin b m _ => if m = 0 then (.nan, { nv := true }) else (.inf (a != b), .none)
  | .fin b m _, .inf a => if m = 0 then (.nan, { nv := true }) else (.inf (a != b), .none)
  | .fin a m e, .fin b n k => (.fin (a != b) (m * n) (e + k), .none)

/-- The exact sum; an exact zero is −0 only when both addends are −0 (IEEE 754 under RNE, R113). -/
def add : Val → Val → Val × Conds
  | .nan, _ => (.nan, .none)
  | _, .nan => (.nan, .none)
  | .inf a, .inf b => if a = b then (.inf a, .none) else (.nan, { nv := true })
  | .inf a, .fin _ _ _ => (.inf a, .none)
  | .fin _ _ _, .inf a => (.inf a, .none)
  | .fin a m e, .fin b n k =>
    if m = 0 ∧ n = 0 then (.fin (a && b) 0 0, .none)
    else
      let q := min e k
      let s := units q (.fin a m e) + units q (.fin b n k)
      if s = 0 then (.fin false 0 0, .none) else (.fin (decide (s < 0)) s.natAbs q, .none)

/-- A quotient to 80 significant bits with a sticky last bit, which every rounding of the part resolves correctly. -/
def div : Val → Val → Val × Conds
  | .nan, _ => (.nan, .none)
  | _, .nan => (.nan, .none)
  | .inf _, .inf _ => (.nan, { nv := true })
  | .inf a, .fin b _ _ => (.inf (a != b), .none)
  | .fin a _ _, .inf b => (.fin (a != b) 0 0, .none)
  | .fin a m e, .fin b n k =>
    if n = 0 then (if m = 0 then (.nan, { nv := true }) else (.inf (a != b), .none))
    else if m = 0 then (.fin (a != b) 0 0, .none)
    else
      let sh := 80 + n.log2
      let q := (m <<< sh) / n
      let sticky := if (m <<< sh) % n = 0 then 0 else 1
      (.fin (a != b) (2 * q + sticky) (e - k - sh - 1), .none)

/-- The integer square root, bit by bit from bit `k` down. -/
def isqrt (n : Nat) : Nat → Nat → Nat
  | 0, r => if (r + 1) * (r + 1) ≤ n then r + 1 else r
  | k + 1, r => let c := r + 2 ^ (k + 1); isqrt n k (if c * c ≤ n then c else r)

/-- A square root to 40 or more significant bits with a sticky last bit; below zero it is NaN with NV (R122). -/
def sqrt : Val → Val × Conds
  | .nan => (.nan, .none)
  | .inf false => (.inf false, .none)
  | .inf true => (.nan, { nv := true })
  | .fin a m e =>
    if m = 0 then (.fin a 0 0, .none)
    else if a then (.nan, { nv := true })
    else
      let sh := 80 + (e % 2).toNat
      let n := m <<< sh
      let r := isqrt n (n.log2 / 2 + 1) 0
      let sticky := if r * r = n then 0 else 1
      (.fin false (2 * r + sticky) ((e - sh) / 2 - 1), .none)

/-- The order of two values that are not NaN: the sign of their difference. -/
def cmp : Val → Val → Ordering
  | .inf a, .inf b => if a = b then .eq else if a then .lt else .gt
  | .inf a, _ => if a then .lt else .gt
  | _, .inf b => if b then .gt else .lt
  | .fin a m e, .fin b n k =>
    let q := min e k
    compare (units q (.fin a m e)) (units q (.fin b n k))
  | _, _ => .eq

/-- Either value is NaN. -/
def unordered : Val → Val → Bool
  | .nan, _ => true
  | _, .nan => true
  | _, _ => false

/-- The IEEE 754 maximum of R149: any NaN gives NaN, and +0 ranks above −0. -/
def maximum : Val → Val → Val
  | .nan, _ => .nan
  | _, .nan => .nan
  | a, b =>
    match cmp a b with
    | .lt => b
    | .gt => a
    | .eq => match a with
      | .fin true 0 _ => b
      | _ => a

/-- The mirror of `maximum`. -/
def minimum (a b : Val) : Val := neg (maximum (neg a) (neg b))

/-- The value zero of one sign. -/
def zero (n : Bool) : Val := .fin n 0 0

/-- A finite value that is zero. -/
def isZero : Val → Bool
  | .fin _ 0 _ => true
  | _ => false

/-- The integer a value rounds to, with sign. -/
def toInt (md : Rnd) (r : Nat) : Val → Int
  | .fin n m e => let u : Int := (roundUnits md r m e 0 : Nat); if n then -u else u
  | _ => 0

/-- An integer as a value. -/
def ofInt (i : Int) : Val := .fin (decide (i < 0)) i.natAbs 0
end Val

/-- A binary operation in a format: decode, operate exactly, round once. -/
def fop2 (f : FFmt) (op : Val → Val → Val × Conds) (a b : Nat) : Nat × Conds :=
  let v := op (f.decode a) (f.decode b)
  let r := f.rne v.1
  (r.1, v.2.join r.2)

/-- Addition in a format. -/
def fadd (f : FFmt) : Nat → Nat → Nat × Conds := fop2 f Val.add
/-- Subtraction in a format. -/
def fsub (f : FFmt) : Nat → Nat → Nat × Conds := fop2 f fun a b => a.add b.neg
/-- Multiplication in a format. -/
def fmul (f : FFmt) : Nat → Nat → Nat × Conds := fop2 f Val.mul
/-- Division in a format. -/
def fdiv (f : FFmt) : Nat → Nat → Nat × Conds := fop2 f Val.div
/-- The maximum of R149 in a format. -/
def fmax (f : FFmt) : Nat → Nat → Nat × Conds := fop2 f fun a b => (a.maximum b, .none)
/-- The minimum in a format. -/
def fmin (f : FFmt) : Nat → Nat → Nat × Conds := fop2 f fun a b => (a.minimum b, .none)
/-- The square root in a format. -/
def fsqrt (f : FFmt) (a : Nat) : Nat × Conds :=
  let v := (f.decode a).sqrt
  let r := f.rne v.1
  (r.1, v.2.join r.2)

/-- The fused multiply-add, rounded once; ∞ × 0 raises NV whatever the addend (R122). -/
def ffma (f : FFmt) (a b c : Nat) : Nat × Conds :=
  let p := (f.decode a).mul (f.decode b)
  let s := p.1.add (f.decode c)
  let r := f.rne s.1
  (r.1, p.2.join (s.2.join r.2))

/-- The range of an integer target: bits and signedness. -/
structure IFmt where
  bits : Nat
  signed : Bool
deriving DecidableEq, Repr

namespace IFmt
/-- The least integer of the format. -/
def lo (f : IFmt) : Int := if f.signed then -(2 ^ (f.bits - 1) : Nat) else 0
/-- The greatest integer of the format. -/
def hi (f : IFmt) : Int := if f.signed then (2 ^ (f.bits - 1) : Nat) - 1 else (2 ^ f.bits : Nat) - 1
/-- The bits of an integer in the format. -/
def code (f : IFmt) (i : Int) : Nat := (i % (2 ^ f.bits : Nat)).toNat
/-- The integer of the format's bits. -/
def decode (f : IFmt) (c : Nat) : Int :=
  let c := c % 2 ^ f.bits
  if f.signed ∧ 2 ^ (f.bits - 1) ≤ c then (c : Int) - (2 ^ f.bits : Nat) else c
/-- Clamps to the range end the value passed, raising OF and SAT (R100). -/
def clamp (f : IFmt) (i : Int) : Nat × Conds :=
  if i < f.lo then (f.code f.lo, { ov := true, sat := true })
  else if f.hi < i then (f.code f.hi, { ov := true, sat := true })
  else (f.code i, .none)
/-- Converts a value to an integer format (R100): NaN gives 0 and NV, an infinity clamps. -/
def encode (f : IFmt) (md : Rnd) (r : Nat) : Val → Nat × Conds
  | .nan => (0, { nv := true })
  | .inf n => (f.code (if n then f.lo else f.hi), { ov := true, sat := true })
  | v => f.clamp (v.toInt md r)
end IFmt

/-- exp of R153 on FP32 codes, each operation rounded as the rule writes it. (DEDUCED, log 38.) -/
def fexp (x : Nat) : Nat × Conds :=
  let F := FFmt.fp32
  match F.decode x with
  | .nan => (F.canonNan, .none)
  | .inf true => (0, .none)
  | .inf false => (0x7F800000, .none)
  | .fin _ _ _ =>
    let m := fmul F x 0x3FB8AA3B
    let t := F.decode m.1
    if Val.cmp t (.fin false 128 0) = .gt then (0x7F800000, { ov := true })
    else if Val.cmp t (.fin true 150 0) = .lt then (0, m.2)
    else
      let n := t.toInt .rne 0
      let f := (F.rne (t.add (Val.ofInt (-n))).1).1
      let q := (ffma F 0x39218446 f 0x3AAEC408).1
      let q := (ffma F q f 0x3C1D955B).1
      let q := (ffma F q f 0x3D635847).1
      let q := (ffma F q f 0x3E75FDF0).1
      let q := (ffma F q f 0x3F317218).1
      let q := (ffma F q f 0x3F800000).1
      F.rne ((F.decode q).scale n)

/-- x / (1 + exp(−u)), the common tail of SILU and GELU (R154). -/
def fsigmul (x u : Nat) : Nat × Conds :=
  let F := FFmt.fp32
  let e := fexp (F.rne (F.decode u).neg).1
  let d := fadd F 0x3F800000 e.1
  let q := fdiv F x d.1
  (q.1, e.2.join (d.2.join q.2))

/-- RELU of R154: x when x > 0, NaN when NaN, +0 otherwise. -/
def frelu (f : FFmt) (x : Nat) : Nat × Conds :=
  match f.decode x with
  | .nan => (f.canonNan, .none)
  | .inf true => (0, .none)
  | .fin true _ _ => (0, .none)
  | .fin false 0 _ => (0, .none)
  | _ => (x, .none)

/-- SILU of R154. -/
def fsilu (x : Nat) : Nat × Conds := fsigmul x x

/-- GELU of R154. -/
def fgelu (x : Nat) : Nat × Conds :=
  let F := FFmt.fp32
  let xx := fmul F x x
  let p := fmul F 0x3D92226D xx.1
  let s := fadd F 0x3FCC424F p.1
  let u := fmul F x s.1
  let r := fsigmul x u.1
  (r.1, xx.2.join (p.2.join (s.2.join (u.2.join r.2))))

/-- One level of the fixed binary tree of R149: element 2j is added to element 2j + 1. -/
def treeLevel : List Nat → List Nat × Conds
  | a :: b :: t =>
    let s := fadd FFmt.fp32 a b
    let r := treeLevel t
    (s.1 :: r.1, s.2.join r.2)
  | l => (l, .none)

/-- The fixed tree of R149 over 2^k FP32 codes. -/
def treeSum : Nat → List Nat → Nat × Conds
  | 0, l => (l.headD 0, .none)
  | k + 1, l =>
    let r := treeLevel l
    let s := treeSum k r.1
    (s.1, r.2.join s.2)

/-- The maximum of R149 over FP32 codes, from a start code. -/
def listMax (start : Nat) (l : List Nat) : Nat := l.foldl (fun a b => (fmax FFmt.fp32 a b).1) start
/-- Its mirror. -/
def listMin (start : Nat) (l : List Nat) : Nat := l.foldl (fun a b => (fmin FFmt.fp32 a b).1) start

/-- The 16-bit random value of stochastic rounding (R188). -/
def srRandom (seed tile pos : Nat) : Nat :=
  let round (x : Nat) : Nat :=
    let x := Nat.xor x (x >>> 29)
    let x := (x * 0xA3B195354A39B70D) % 2 ^ 64
    Nat.xor x (x >>> 32)
  let x := Nat.xor seed ((Nat.lor (tile <<< 32) pos) % 2 ^ 64)
  round (round (round x)) >>> 48

end Sys2Proof.Machine
end

