-- ==== Sys2Proof/Machine/Quant.lean ====
section
/-! DEFINITION. The formats of Table 6.3, block quantisation and decoding (R93 to R108), operand classes (R109), and
the group sums of products (R110 to R115). -/

namespace Sys2Proof.Machine

/-- The formats of Table 6.3. -/
inductive Fmt where
  | fp32 | fp16 | bf16 | e4m3 | e5m2 | int32 | int8 | uint8 | int4 | uint4
  | mx8e4 | mx8e5 | mx6e3 | mx6e2 | mx4 | mxint8 | z4s
deriving DecidableEq, Repr

/-- The operand classes of Table 3.6; FP32 and INT32 have none. -/
inductive OpClass where
  | f16 | f8 | f4 | int
deriving DecidableEq, Repr

namespace Fmt
/-- The format a code of Table 6.3 names. -/
def ofCode : Nat → Option Fmt
  | 0x00 => some .fp32 | 0x01 => some .fp16 | 0x02 => some .bf16 | 0x03 => some .e4m3 | 0x04 => some .e5m2
  | 0x08 => some .int32 | 0x09 => some .int8 | 0x0A => some .uint8 | 0x0B => some .int4 | 0x0C => some .uint4
  | 0x10 => some .mx8e4 | 0x11 => some .mx8e5 | 0x12 => some .mx6e3 | 0x13 => some .mx6e2 | 0x14 => some .mx4
  | 0x15 => some .mxint8 | 0x16 => some .z4s
  | _ => none

/-- Bits of one element (Table 3.1). -/
def bits : Fmt → Nat
  | .fp32 | .int32 => 32
  | .fp16 | .bf16 => 16
  | .e4m3 | .e5m2 | .int8 | .uint8 | .mx8e4 | .mx8e5 | .mxint8 => 8
  | .mx6e3 | .mx6e2 => 6
  | .int4 | .uint4 | .mx4 | .z4s => 4

/-- A block format: 32 elements share a scale entry. -/
def isBlock : Fmt → Bool
  | .mx8e4 | .mx8e5 | .mx6e3 | .mx6e2 | .mx4 | .mxint8 | .z4s => true
  | _ => false

/-- An MX block format, as a RACC contribution may have (R150, R217). -/
def isMx (f : Fmt) : Bool := f.isBlock && f != .z4s

/-- Bytes of one scale entry (R96, R202). -/
def scaleBytes : Fmt → Nat
  | .z4s => 2
  | _ => 1

/-- The floating-point element layout of a format that has one. -/
def elem : Fmt → Option FFmt
  | .fp32 => some .fp32 | .fp16 => some .fp16 | .bf16 => some .bf16
  | .e4m3 | .mx8e4 => some .e4m3 | .e5m2 | .mx8e5 => some .e5m2
  | .mx6e3 => some .e3m2 | .mx6e2 => some .e2m3 | .mx4 | .z4s => some .e2m1
  | _ => none

/-- The range of an integer format. -/
def ifmt : Fmt → Option IFmt
  | .int32 => some ⟨32, true⟩ | .int8 => some ⟨8, true⟩ | .uint8 => some ⟨8, false⟩
  | .int4 => some ⟨4, true⟩ | .uint4 => some ⟨4, false⟩
  | _ => none

/-- An integer format. -/
def isInt (f : Fmt) : Bool := f.ifmt.isSome

/-- The operand class of Table 3.6. -/
def cls : Fmt → Option OpClass
  | .bf16 | .fp16 => some .f16
  | .e4m3 | .e5m2 | .mx8e4 | .mx8e5 | .mx6e3 | .mx6e2 | .mxint8 => some .f8
  | .mx4 | .z4s => some .f4
  | .int8 | .uint8 | .int4 | .uint4 => some .int
  | .fp32 | .int32 => none

/-- A format of Table 3.6, which a weight plane can hold (Table 6.11). -/
def isOperand (f : Fmt) : Bool := f.cls.isSome

/-- 4-bit elements. -/
def is4 (f : Fmt) : Bool := f.bits = 4

/-- The exponent of the largest normal value (Table 3.2); 0 for MXINT8 (R104). -/
def emax : Fmt → Int
  | .mx8e4 => 8 | .mx8e5 => 15 | .mx6e3 => 4 | .mx6e2 => 2 | .mx4 | .z4s => 2
  | _ => 0

/-- The value of one element code with no scale applied (R94: MXINT8 is k · 2⁻⁶). -/
def elemVal (f : Fmt) (code : Nat) : Val :=
  match f.elem with
  | some e => e.decode code
  | none =>
    match f.ifmt with
    | some i => Val.ofInt (i.decode code)
    | none => (Val.ofInt ((IFmt.mk 8 true).decode code)).scale (-6)

/-- The value of an element of a block with its scale byte and down-shift (R94, R95); a scale of 0xFF is NaN. -/
def blockVal (f : Fmt) (scale shift code : Nat) : Val :=
  if scale = 0xFF then .nan else (f.elemVal code).scale ((scale : Int) - 127 - shift)

/-- The down-shift of element `i` of a Z4S block from its scale entry (R96); 0 in the MX formats. -/
def shiftOf (f : Fmt) (entry i : Nat) : Nat := if f = .z4s then (entry >>> (8 + 2 * (i / 8))) % 4 else 0

/-- The value of element `i` of a block from its scale entry and its code. -/
def entryVal (f : Fmt) (entry i code : Nat) : Val := f.blockVal (entry % 256) (f.shiftOf entry i) code
end Fmt

/-- The legal pairs of Table 3.6. -/
def pairs : OpClass → OpClass → Bool
  | .f16, .f16 => true
  | .f8, .f8 | .f8, .f4 | .f4, .f8 | .f4, .f4 => true
  | .int, .int => true
  | _, _ => false

/-- The classes of two formats may pair (R109). -/
def Fmt.pairsWith (a b : Fmt) : Bool :=
  match a.cls, b.cls with
  | some x, some y => pairs x y
  | _, _ => false

/-- An unpacked quantised block: its scale entry and its element codes. -/
structure Block where
  entry : Nat
  codes : List Nat
deriving DecidableEq, Repr

/-- The largest ⌊log₂⌋ among the non-zero values of a list; none when all are zero. -/
def maxExp : List Val → Option Int
  | [] => none
  | .fin _ m e :: t =>
    if m = 0 then maxExp t
    else match maxExp t with
      | none => some (expOf m e)
      | some x => some (max x (expOf m e))
  | _ :: t => maxExp t

/-- The zero code that keeps a value's sign (R107); MXINT8 has no negative zero. -/
def zeroCode (f : Fmt) (v : Val) : Nat :=
  match f.elem, v with
  | some e, .fin n _ _ => e.signed n 0
  | _, _ => 0

/-- Quantises one scaled element of a block (R104): one rounding, saturation to the largest finite, the flush count. -/
def quantElem (f : Fmt) (md : Rnd) (r : Nat) (v : Val) : Nat × Conds :=
  let c : Nat × Conds :=
    match f.elem with
    | some e => e.encode md r true v
    | none =>
      let i := (v.scale 6).toInt md r
      if i < -127 then ((IFmt.mk 8 true).code (-127), { ov := true, sat := true })
      else if 127 < i then (127, { ov := true, sat := true })
      else ((IFmt.mk 8 true).code i, .none)
  let q0 : Bool := match f.elem with
    | some e => c.1 % 2 ^ e.signBit == 0
    | none => c.1 == 0
  (c.1, { c.2 with flushed := if q0 && !v.isZero then 1 else 0 })

/-- Quantises a list of elements under one exponent, element `i` with the random value `r i`. -/
def quantList (f : Fmt) (md : Rnd) (r : Nat → Nat) (x : Int) : Nat → List Val → List Nat × Conds
  | _, [] => ([], .none)
  | i, v :: t =>
    let c := quantElem f md (r i) (v.scale (-x))
    let rest := quantList f md r x (i + 1) t
    (c.1 :: rest.1, c.2.join rest.2)

/-- One sub-block of a Z4S block: its down-shift and its codes (R105). -/
def quantSub (md : Rnd) (r : Nat → Nat) (x : Int) (j : Nat) (vs : List Val) : Nat × List Nat × Conds :=
  let s : Nat := match maxExp vs with
    | none => 0
    | some am => (min 3 (x - (am - 2))).toNat
  let q := quantList .z4s md r (x - s) (8 * j) vs
  (s, q.1, q.2)

/-- The four sub-blocks of a Z4S block from sub-block `j` on. -/
def quantSubs (md : Rnd) (r : Nat → Nat) (x : Int) : Nat → Nat → List Val → Nat × List Nat × Conds
  | 0, _, _ => (0, [], .none)
  | k + 1, j, vs =>
    let a := quantSub md r x j (vs.take 8)
    let b := quantSubs md r x k (j + 1) (vs.drop 8)
    (a.1 <<< (2 * j) + b.1, a.2.1 ++ b.2.1, a.2.2.join b.2.2)

/-- Quantises 32 values to a block (R104 to R108). A block with a NaN or an infinity gets scale 0xFF and zero codes. -/
def quantBlock (f : Fmt) (md : Rnd) (r : Nat → Nat) (vs : List Val) : Block × Conds :=
  if vs.any Val.nonfinite then (⟨0xFF, vs.map fun _ => 0⟩, .none)
  else match maxExp vs with
    | none => (⟨0, vs.map (zeroCode f)⟩, .none)
    | some amax =>
      let x := min (max (amax - f.emax) (-127)) 127
      let sc := (x + 127).toNat
      if f = .z4s then
        let q := quantSubs md r x 4 0 vs
        (⟨sc + q.1 <<< 8, q.2.1⟩, q.2.2)
      else
        let q := quantList f md r x 0 vs
        (⟨sc, q.1⟩, q.2)

/-- Converts a value to a non-block format with the saturate bit (R99 to R103). -/
def convertTo (f : Fmt) (md : Rnd) (r : Nat) (sat : Bool) (v : Val) : Nat × Conds :=
  match f.elem with
  | some e => e.encode md r sat v
  | none =>
    match f.ifmt with
    | some i => i.encode md r v
    | none => (0, .none)

/-- The product of two operand elements with the conditions of Table 3.7. -/
def opProduct (a w : Val) : Val × Conds :=
  let p := a.mul w
  (p.1, { p.2 with nanIn := decide (a = .nan) || decide (w = .nan) })

/-- The aligned units of one product in the window of R112: truncated toward zero below `2^u`. -/
def alignUnits (u : Int) : Val → Int
  | .fin n m e =>
    let k : Int := (roundUnits .rtz 0 m e u : Nat)
    if n then -k else k
  | _ => 0

/-- The window sum of a group of products (R112, R113, Table 3.7). -/
def windowSum (ps : List Val) : Val × Conds :=
  if ps.any (· = .inf true) && ps.any (· = .inf false) then (.nan, { nv := true })
  else if ps.any (· = .nan) then (.nan, .none)
  else if ps.any (· = .inf true) then (.inf true, .none)
  else if ps.any (· = .inf false) then (.inf false, .none)
  else match maxExp ps with
    | none => (.zero (!ps.isEmpty && ps.all fun v => match v with | .fin n _ _ => n | _ => false), .none)
    | some em =>
      let u := em - 30
      let s := (ps.map (alignUnits u)).sum
      if s = 0 then (.zero false, .none) else (.fin (decide (s < 0)) s.natAbs u, .none)

/-- Adds a group sum to an FP32 accumulator with one rounding (R112). -/
def accFloat (c : Nat) (s : Val) : Nat × Conds :=
  let v := (FFmt.fp32.decode c).add s
  let r := FFmt.fp32.rne v.1
  (r.1, v.2.join r.2)

/-- Adds an integer group sum to an INT32 accumulator, clamping with SAT (R115). -/
def accInt (c : Nat) (s : Int) : Nat × Conds :=
  let f : IFmt := ⟨32, true⟩
  let r := f.clamp (f.decode c + s)
  (r.1, { r.2 with ov := false })

/-- The exact integer group sum (R110). -/
def intSum (ps : List (Int × Int)) : Int := (ps.map fun p => p.1 * p.2).sum

end Sys2Proof.Machine
end

