-- ==== Sys2Proof/Machine/CoreDecode.lean ====
section
/-! DEFINITION. The instruction words of a tile core (R191 to R195, Tables 6.1 to 6.17): fields, opcodes and the
reserved-field checks that trap with cause ILLEGAL (R193). -/

namespace Sys2Proof.Machine

/-- The core-instruction rows of the opcode table. -/
inductive CoreOp where
  | nop | intAlu | intAluImm | li | lui | lid | pcmp | predicateLogic | pget | pset | sel | scalarFloatOp
  | fcvtFX | fcvtXF | fmvXF | fmvFX | fcmp | fli | br | bp | bpn | jmp | callInst | jr | kernelEnd | tend
  | ld | st | vld | vst | dld | dst | dset | dget | dma | put | dwait | fenceL | fenceA | fenceR
  | mm | pload | tepi | vtget | vtput | attn
  | vectorArith | vectorDivSqrt | vectorFunction | vectorBitwise | vmov | vcmp | vsel | vbcast | vlane | vred | vredIsum
  | vcvt | vquant | vdeq | srseed | erec | ewait | mwait | npost | npop | tstamp | tstampT | cntr | take
  | amoAdd | amoFadd | amoCas | racc | sqres | sqpub | sqpop | sqrel | kset | kget | trapen | flags
deriving DecidableEq, Repr

namespace Iw
/-! Fields of a first word (Tables 6.1 and 6.2). -/
def op (w : Nat) : Nat := bits w 62 56
def guard (w : Nat) : Nat := bits w 55 52
def rd (w : Nat) : Nat := bits w 51 47
def ra (w : Nat) : Nat := bits w 46 42
def rb (w : Nat) : Nat := bits w 41 37
def rc (w : Nat) : Nat := bits w 36 32
def fn (w : Nat) : Nat := bits w 31 24
def imm24 (w : Nat) : Nat := bits w 23 0
def fnI (w : Nat) : Nat := bits w 41 32
def imm32 (w : Nat) : Nat := bits w 31 0
/-- Format B: RA, RB, COND and the signed OFFSET. -/
def bra (w : Nat) : Nat := bits w 51 47
def brb (w : Nat) : Nat := bits w 46 42
def cond (w : Nat) : Nat := bits w 41 39
def offs (w : Nat) : Int := sext 32 (bits w 31 0)
/-- Format M. -/
def size (w : Nat) : Nat := bits w 41 40
def uns (w : Nat) : Bool := bit w 39
def ob (w : Nat) : Bool := bit w 38
def noalloc (w : Nat) : Bool := bit w 37
def evict (w : Nat) : Bool := bit w 36
def mask (w : Nat) : Nat := bits w 35 32
/-- Format V. -/
def me (w : Nat) : Bool := bit w 31
def mp (w : Nat) : Nat := bits w 30 28
def ty (w : Nat) : Nat := bits w 27 24
def fnV (w : Nat) : Nat := bits w 23 16
def xs (w : Nat) : Nat := bits w 15 11
def imm11 (w : Nat) : Nat := bits w 10 0
/-- Format V of the conversion instructions (R214). -/
def cvFrom (w : Nat) : Nat := bits w 27 23
def cvTo (w : Nat) : Nat := bits w 22 18
def cvRnd (w : Nat) : Nat := bits w 17 16
def cvSat (w : Nat) : Bool := bit w 10
/-- Format T of `dma`, `put`, `racc`, `dwait` (Table 6.7). -/
def ds (w : Nat) : Nat := bits w 51 48
def dd (w : Nat) : Nat := bits w 47 44
def tag (w : Nat) : Nat := bits w 43 40
def xf (w : Nat) : Nat := bits w 39 35
def xv (w : Nat) : Nat := bits w 34 30
def dmask (w : Nat) : Nat := bits w 15 0
end Iw

/-- The row an opcode and its FN select; none when the opcode or the FN is unassigned (R193). (DESIGN CHOICE, log
14.) -/
def coreOp (w : Nat) : Option CoreOp :=
  match Iw.op w with
  | 0x00 => some .nop
  | 0x01 => if Iw.fn w ≤ 0x0D then some .intAlu else none
  | 0x02 => if Iw.fnI w ≤ 0x0D then some .intAluImm else none
  | 0x03 => some .li
  | 0x04 => some .lui
  | 0x05 => some .lid
  | 0x06 => if Iw.fn w ≤ 5 then some .pcmp else none
  | 0x07 => if Iw.fn w ≤ 3 then some .predicateLogic else none
  | 0x08 => match Iw.fn w with | 0 => some .pget | 1 => some .pset | _ => none
  | 0x09 => some .sel
  | 0x10 => match Iw.fn w with
    | 0x09 => some .fcvtFX | 0x0A => some .fcvtXF | 0x0B => some .fmvXF | 0x0C => some .fmvFX
    | n => if n ≤ 8 then some .scalarFloatOp else none
  | 0x11 => if Iw.fn w ≤ 3 then some .fcmp else none
  | 0x12 => some .fli
  | 0x18 => if Iw.cond w ≤ 5 then some .br else none
  | 0x19 => match Iw.cond w with | 0 => some .bp | 1 => some .bpn | _ => none
  | 0x1A => some .jmp
  | 0x1B => some .callInst
  | 0x1C => some .jr
  | 0x1D => some .kernelEnd
  | 0x1E => some .tend
  | 0x20 => some .ld | 0x21 => some .st | 0x22 => some .vld | 0x23 => some .vst
  | 0x24 => some .dld | 0x25 => some .dst
  | 0x26 => if Iw.fn w ≤ 13 then some .dset else none
  | 0x27 => if Iw.fn w ≤ 13 then some .dget else none
  | 0x28 => some .dma | 0x29 => some .dwait | 0x2A => some .put
  | 0x2B => match Iw.fnI w with | 0 => some .fenceL | 1 => some .fenceA | 2 => some .fenceR | _ => none
  | 0x30 => some .mm
  | 0x31 => some .pload
  | 0x32 => some .tepi
  | 0x33 => match Iw.fn w with | 0 => some .vtget | 1 => some .vtput | _ => none
  | 0x38 => some .attn
  | 0x40 =>
    let f := Iw.fnV w
    if f ≤ 0x07 then some .vectorArith else if f ≤ 0x09 then some .vectorDivSqrt
    else if f ≤ 0x0D then some .vectorFunction else if f ≤ 0x13 then some .vectorBitwise
    else if f = 0x14 then some .vmov else none
  | 0x41 => if Iw.fnV w ≤ 3 then some .vcmp else none
  | 0x42 => some .vsel
  | 0x43 => match Iw.fnV w with | 0 => some .vbcast | 1 => some .vbcast | 2 => some .vlane | _ => none
  | 0x44 => match Iw.fnV w with | 3 => some .vredIsum | n => if n ≤ 2 then some .vred else none
  | 0x58 => some .vcvt | 0x59 => some .vquant | 0x5A => some .vdeq | 0x5B => some .srseed
  | 0x60 => some .erec | 0x61 => some .ewait
  | 0x62 => if Iw.fn w ≤ 2 then some .mwait else none
  | 0x63 => some .npost | 0x64 => some .npop
  | 0x68 => match Iw.fn w with | 0 => some .tstamp | 1 => some .tstampT | _ => none
  | 0x69 => some .cntr
  | 0x6C => if Iw.fnI w ≤ 1 then some .take else none
  | 0x6D => match Iw.fn w with
    | 0 => some .amoAdd | 1 => some .amoAdd | 2 => some .amoFadd | 3 => some .amoFadd
    | 4 => some .amoCas | 5 => some .amoCas | _ => none
  | 0x70 => some .racc
  | 0x71 => some .sqres | 0x72 => some .sqpub | 0x73 => some .sqpop | 0x74 => some .sqrel
  | 0x78 => match Iw.fn w with | 0 => some .kset | 1 => some .kget | _ => none
  | 0x79 => some .trapen
  | 0x7A => some .flags
  | _ => none

/-- The two 128-bit instructions. -/
def CoreOp.wide : CoreOp → Bool
  | .lid | .attn => true
  | _ => false

/-- Bits [hi:lo] of the word are zero. -/
def zero (w hi lo : Nat) : Bool := bits w hi lo == 0

/-- The legal FROM and TO of `vcvt` (R214): distinct element formats, one of them FP32, or INT32 to an 8- or 4-bit
integer. -/
def cvtPair : Option Fmt → Option Fmt → Bool
  | some a, some b =>
    a != b && !a.isBlock && !b.isBlock && (a == .fp32 || b == .fp32 || (a == .int32 && b.isInt))
  | _, _ => false

/-- A code of a block format (Table 6.3). -/
def isBlockCode (c : Nat) : Bool :=
  match Fmt.ofCode c with
  | some f => f.isBlock
  | none => false

/-- The reserved-field checks of R193 for each instruction: every field the definition does not name is zero, and
register fields of a smaller file have their high bits zero. (DEDUCED, log 36; DEDUCED, log 39.) -/
def coreLegal (op : CoreOp) (w e : Nat) : Bool :=
  let f4 (x : Nat) : Bool := x < 16
  let p3 (x : Nat) : Bool := x < 8
  let imm0 := zero w 23 0
  match op with
  | .nop => zero w 51 0
  | .intAlu => zero w 36 32 && imm0
  | .intAluImm => true
  | .li => Iw.ra w == 0 && Iw.fnI w == 0
  | .lui => Iw.fnI w == 0
  | .lid => Iw.ra w == 0 && Iw.fnI w == 0 && zero e 55 32
  | .pcmp => p3 (Iw.rd w) && zero w 36 32 && imm0
  | .predicateLogic =>
    p3 (Iw.rd w) && p3 (Iw.ra w) && p3 (Iw.rb w) && (Iw.fn w != 3 || Iw.rb w == 0) && zero w 36 32 && imm0
  | .pget => p3 (Iw.ra w) && zero w 41 32 && imm0
  | .pset => p3 (Iw.rd w) && zero w 41 32 && imm0
  | .sel => p3 (Iw.rc w) && Iw.fn w == 0 && imm0
  | .scalarFloatOp =>
    let n := Iw.fn w
    f4 (Iw.rd w) && f4 (Iw.ra w) && imm0 &&
      (if n == 3 then f4 (Iw.rb w) && f4 (Iw.rc w)
       else if n == 7 || n == 8 then zero w 41 32
       else f4 (Iw.rb w) && zero w 36 32)
  | .fcvtFX => f4 (Iw.rd w) && zero w 41 32 && imm0
  | .fcvtXF => f4 (Iw.ra w) && zero w 41 32 && imm0
  | .fmvXF => f4 (Iw.ra w) && zero w 41 32 && imm0
  | .fmvFX => f4 (Iw.rd w) && zero w 41 32 && imm0
  | .fcmp => p3 (Iw.rd w) && f4 (Iw.ra w) && f4 (Iw.rb w) && zero w 36 32 && imm0
  | .fli => f4 (Iw.rd w) && Iw.ra w == 0 && Iw.fnI w == 0
  | .br => zero w 38 32
  | .bp | .bpn => p3 (Iw.bra w) && zero w 46 42 && zero w 38 32
  | .jmp | .callInst => zero w 51 32
  | .jr => Iw.rd w == 0 && zero w 41 0
  | .kernelEnd | .tend => zero w 51 0
  | .ld => zero w 35 32
  | .st => !Iw.uns w && zero w 35 32
  | .vld => zero w 41 39 && zero w 35 32
  | .vst => !Iw.uns w && (Iw.mask w == 0 || 8 ≤ Iw.mask w)
  | .dld | .dst => f4 (Iw.rd w) && zero w 41 39 && zero w 35 32
  | .dset => f4 (Iw.rd w) && zero w 41 32 && imm0
  | .dget => f4 (Iw.ra w) && zero w 41 32 && imm0
  | .dma => zero w 39 0
  | .put => zero w 29 0
  | .racc => zero w 39 0
  | .dwait => zero w 51 16
  | .fenceL | .fenceA | .fenceR => zero w 51 42 && zero w 31 0
  | .mm =>
    bits w 45 41 ≤ 0x11 && bits w 38 37 != 3 && (bits w 38 37 == 1 || zero w 36 33)
      && (bits w 45 41 < 0x10 || zero w 24 24) && zero w 23 0
  | .pload => zero w 46 0
  | .tepi => zero w 41 0
  | .vtget => Iw.ra w < 4 && zero w 36 32 && imm0
  | .vtput => Iw.rd w == 0 && Iw.ra w < 4 && imm0
  | .attn =>
    bits w 18 17 != 3 && zero w 11 0 && (bits w 18 17 == 2 || zero e 40 37)
      && bits e 45 41 ≤ 16 && zero e 36 0
  | .vectorArith =>
    let n := Iw.fnV w
    Iw.ty w < 3 && zero w 15 0 &&
      (if n == 3 then true else if n == 6 || n == 7 then zero w 41 32 else zero w 36 32)
  | .vectorDivSqrt =>
    Iw.ty w == 0 && zero w 15 0 &&
      (if Iw.fnV w == 9 then zero w 41 32 else zero w 36 32)
  | .vectorFunction =>
    (if Iw.fnV w == 0x0B then Iw.ty w < 3 else Iw.ty w == 0) && zero w 15 0 && zero w 41 32
  | .vectorBitwise => Iw.ty w == 3 && zero w 15 0 && zero w 36 32
  | .vmov => Iw.ty w < 4 && zero w 15 0 && zero w 41 32
  | .vcmp =>
    p3 (Iw.rd w) && (Iw.ty w == 0 || Iw.ty w == 3) && zero w 15 0 && zero w 36 32
  | .vsel => p3 (Iw.rc w) && Iw.ty w < 4 && Iw.fnV w == 0 && zero w 15 0
  | .vbcast =>
    Iw.ty w < 4 && zero w 46 32 && zero w 10 0 && (Iw.fnV w == 0 || f4 (Iw.xs w))
  | .vlane => Iw.rd w == 0 && zero w 36 28 && Iw.ty w < 4 && zero w 15 6
  | .vred =>
    Iw.rd w == 0 && f4 (Iw.rb w) && zero w 36 32 && Iw.ty w == 0 && zero w 15 0
  | .vredIsum => Iw.rd w == 0 && zero w 36 32 && Iw.ty w == 3 && zero w 15 0
  | .vcvt => zero w 41 28 && zero w 9 0 && Iw.cvRnd w != 3 && cvtPair (Fmt.ofCode (Iw.cvFrom w)) (Fmt.ofCode (Iw.cvTo w))
  | .vquant => zero w 36 28 && zero w 22 18 && zero w 10 0 && Iw.cvRnd w != 3 && isBlockCode (Iw.cvFrom w)
  | .vdeq => zero w 36 28 && zero w 22 16 && zero w 15 11 && zero w 10 0 && isBlockCode (Iw.cvFrom w)
  | .srseed => Iw.rd w == 0 && zero w 41 0
  | .erec | .ewait => Iw.rd w == 0 && zero w 36 0
  | .mwait => Iw.rd w == 0 && zero w 36 32 && imm0
  | .npost => zero w 23 2
  | .npop => zero w 41 0
  | .tstamp => zero w 46 32 && imm0
  | .tstampT => Iw.rd w == 0 && zero w 41 32 && zero w 23 16
  | .cntr => zero w 46 24 && zero w 23 8 && Iw.imm24 w ≤ 5
  | .take => if Iw.fnI w == 0 then Iw.ra w == 0 && zero w 31 10 else zero w 31 0
  | .amoAdd => zero w 36 32 && imm0
  | .amoFadd => zero w 36 32 && imm0 && (Iw.fn w == 2 || Iw.rd w == 0)
  | .amoCas => imm0
  | .sqres => zero w 41 24 && zero w 23 8
  | .sqpub => zero w 36 24 && zero w 23 8
  | .sqpop => 1 ≤ Iw.rd w && Iw.rd w ≤ 30 && zero w 46 24 && zero w 23 8
  | .sqrel => zero w 46 24 && zero w 23 8
  | .kset => p3 (Iw.rd w) && imm0
  | .kget => p3 (Iw.ra w) && zero w 41 32 && Iw.imm24 w ≤ 2
  | .trapen => zero w 51 32 && zero w 31 5
  | .flags => zero w 46 0

end Sys2Proof.Machine
end

