-- ==== Sys2Proof/Config.lean ====
section
/-! DEFINITION. What the spec leaves open: free values and the uninterpreted cryptography of Assay. Nothing here has a
body that Lean can evaluate, so no statement can rest on a chosen value. -/

namespace Sys2Proof.Config

/-- The free value number `n` of the counter `State.free`, for a value the spec leaves unspecified. (DESIGN
CHOICE, log 8.) -/
opaque freeWord (n : Nat) : W64

/-- The base address of a stage queue's slots at a peer, which the spec does not tell the producer end (R78).
(DESIGN CHOICE, log 22.) -/
opaque peerSlotBase (peer queue : Nat) : BitVec 48

/-- The stream number of a ring's own puts, which the spec does not give (R298). (DESIGN CHOICE, log 23.) -/
opaque ringStream (ring : Nat) : BitVec 8

/-- SLH-DSA-SHA2-128s, or 128f when `fast`, verifies a signature by a public key over a message (R404, R405).
(DESIGN CHOICE, log 20.) -/
opaque slhVerify (fast : Bool) (key : BitVec 256) (msg sig : List Byte) : Bool

/-- The 17,088 bytes of the identity key's signature, made by the key pair of a seed (R413). (DESIGN CHOICE, log
20.) -/
opaque slhSign (seed : BitVec 384) (msg : List Byte) : List Byte

/-- The identity public key of a seed (Table 13.7). -/
opaque identityKey (seed : BitVec 384) : BitVec 256

/-- The 1,184 bytes of the ML-KEM-768 encapsulation key made from drawn randomness (Table 13.7). (DESIGN CHOICE,
log 20.) -/
opaque kemPublic (rnd : W512) : List Byte

/-- The shared secret that decapsulation of a ciphertext gives (R420). (DESIGN CHOICE, log 20.) -/
opaque kemShared (rnd : W512) (ct : List Byte) : List Byte

/-- AES-256-GCM decryption under a key and nonce of a ciphertext with its associated data and tag; none when the tag
fails (R420). (DESIGN CHOICE, log 20.) -/
opaque gcmOpen (key iv aad ct tag : List Byte) : Option (List Byte)

/-- The IDCODE of the debug port (R394), which the spec does not give. -/
opaque idcode : BitVec 32

end Sys2Proof.Config
end

