-- ==== Sys2Proof/Machine/RegMap.lean ====
section
/-! DEFINITION. The register space (R9 to R12, R241, R247, R256): every register of the spec's register tables with
its offset, its arrays, its access class, the bits of each type of Table 0.5 and its reset value. A register's offset
below is that of its instance 0; a dimension (stride, count) adds stride times the index. -/

namespace Sys2Proof.Machine

/-- The access classes of R10. -/
inductive Cls where
  | o | p | s
deriving DecidableEq, Repr

/-- One register of the spec: bit masks by type (Table 0.5). No register of the part has type MW. -/
structure RegDesc where
  name : String
  base : Nat
  dims : List (Nat × Nat)
  cls : Cls
  rw : Nat
  ro : Nat
  rc : Nat
  wo : Nat
  rwp : Nat
  reset : Nat
deriving DecidableEq, Repr

/-- The offsets of a register's instances are its base plus one multiple of each stride. -/
def RegDesc.covers (d : RegDesc) (off : Nat) : Bool :=
  d.base ≤ off && go d.dims (off - d.base)
where
  /-- What the outer dimensions leave of an offset. -/
  go : List (Nat × Nat) → Nat → Bool
    | [], o => o == 0
    | (st, n) :: t, o => o / st < n && go t (o % st)

/-! Offsets of the registers by name. -/
namespace Reg

/-- GLB_ID, class O. -/
def glbId : Nat := 0x0000000
/-- GLB_STEP, class O. -/
def glbStep : Nat := 0x0000004
/-- GLB_CAP0, class O. -/
def glbCap0 : Nat := 0x0000008
/-- GLB_CAP1, class O. -/
def glbCap1 : Nat := 0x000000C
/-- GLB_CAP2, class O. -/
def glbCap2 : Nat := 0x0000010
/-- GLB_CORE_MAP, class O. -/
def glbCoreMap (i : Nat) : Nat := 0x0000020 + 0x4 * i
/-- GLB_COORD, class O. -/
def glbCoord : Nat := 0x0000040
/-- GLB_AXES, class O. -/
def glbAxes : Nat := 0x0000044
/-- GLB_STATE, class O. -/
def glbState : Nat := 0x0000048
/-- GLB_FAULT, class P. -/
def glbFault : Nat := 0x0000050
/-- GLB_FAULT_CTL, class P. -/
def glbFaultCtl : Nat := 0x0000054
/-- GLB_PARITY_ADDR, class P. -/
def glbParityAddr : Nat := 0x0000058
/-- GLB_ACCESS_STATUS, class P. -/
def glbAccessStatus : Nat := 0x0000060
/-- GLB_DENY_ADDR, class P. -/
def glbDenyAddr : Nat := 0x0000064
/-- GLB_DENY_COUNT, class P. -/
def glbDenyCount : Nat := 0x0000068
/-- GLB_XLAT_CMD, class P. -/
def glbXlatCmd : Nat := 0x0000080
/-- GLB_XLAT_VA, class P. -/
def glbXlatVa : Nat := 0x0000084
/-- GLB_XLAT_PA, class P. -/
def glbXlatPa : Nat := 0x0000088
/-- GLB_XLAT_STATUS, class P. -/
def glbXlatStatus : Nat := 0x000008C
/-- GLB_XLAT_REGION, class P. -/
def glbXlatRegion : Nat := 0x0000090
/-- GLB_XLAT_SIZE, class P. -/
def glbXlatSize : Nat := 0x0000094
/-- BEAT_STATUS, class O. -/
def beatStatus : Nat := 0x0100000
/-- BEAT_CTL, class P. -/
def beatCtl : Nat := 0x0100004
/-- BEAT_SYNC_INTERVAL, class P. -/
def beatSyncInterval : Nat := 0x0100008
/-- BEAT_ASYM, class P. -/
def beatAsym : Nat := 0x010000C
/-- BEAT_FAULT, class P. -/
def beatFault : Nat := 0x0100010
/-- BEAT_SS_CTL, class P. -/
def beatSsCtl : Nat := 0x0100020
/-- BEAT_SS_SEND_LO, class P. -/
def beatSsSendLo : Nat := 0x0100024
/-- BEAT_SS_SEND_HI, class P. -/
def beatSsSendHi : Nat := 0x0100028
/-- BEAT_SS_COUNT, class P. -/
def beatSsCount : Nat := 0x010002C
/-- MBX_SEL, class P. -/
def mbxSel : Nat := 0x0108000
/-- MBX_VALID, class P. -/
def mbxValid : Nat := 0x0108004
/-- MBX_DATA, class P. -/
def mbxData (i : Nat) : Nat := 0x0108010 + 0x4 * i
/-- ESC_STATUS, class O. -/
def escStatus : Nat := 0x0200000
/-- ESC_CTL, class P. -/
def escCtl : Nat := 0x0200004
/-- ESC_SHADOW_BASE_LO, class P. -/
def escShadowBaseLo : Nat := 0x0200008
/-- ESC_SHADOW_BASE_HI, class P. -/
def escShadowBaseHi : Nat := 0x020000C
/-- ESC_EVT_SEL, class P. -/
def escEvtSel : Nat := 0x0200010
/-- ESC_EVT_LO, class P. -/
def escEvtLo : Nat := 0x0200014
/-- ESC_EVT_HI, class P. -/
def escEvtHi : Nat := 0x0200018
/-- ESC_MW_MASK_LO, class O. -/
def escMwMaskLo : Nat := 0x020001C
/-- ESC_MW_MASK_HI, class O. -/
def escMwMaskHi : Nat := 0x0200020
/-- ESC_CHAIN_LO, class P. -/
def escChainLo : Nat := 0x0200100
/-- ESC_CHAIN_HI, class P. -/
def escChainHi : Nat := 0x0200104
/-- ESC_CHAIN_STATUS, class P. -/
def escChainStatus : Nat := 0x0200108
/-- ESC_CHAIN_FAIL_LO, class P. -/
def escChainFailLo : Nat := 0x020010C
/-- ESC_CHAIN_FAIL_HI, class P. -/
def escChainFailHi : Nat := 0x0200110
/-- ESC_EVT_EXT, class P. -/
def escEvtExt (i : Nat) : Nat := 0x0200200 + 0x4 * i
/-- RING_CTL, class P. -/
def ringCtl (i : Nat) : Nat := 0x0210000 + 0x100 * i
/-- RING_BASE_LO, class P. -/
def ringBaseLo (i : Nat) : Nat := 0x0210004 + 0x100 * i
/-- RING_BASE_HI, class P. -/
def ringBaseHi (i : Nat) : Nat := 0x0210008 + 0x100 * i
/-- RING_TAIL, class P. -/
def ringTail (i : Nat) : Nat := 0x021000C + 0x100 * i
/-- RING_HEAD, class P. -/
def ringHead (i : Nat) : Nat := 0x0210010 + 0x100 * i
/-- RING_NEXT, class P. -/
def ringNext (i : Nat) : Nat := 0x0210014 + 0x100 * i
/-- RING_STATUS, class P. -/
def ringStatus (i : Nat) : Nat := 0x0210018 + 0x100 * i
/-- RING_ERR, class P. -/
def ringErr (i : Nat) : Nat := 0x021001C + 0x100 * i
/-- RING_TIMEOUT, class P. -/
def ringTimeout (i : Nat) : Nat := 0x0210020 + 0x100 * i
/-- RING_CMD, class P. -/
def ringCmd (i : Nat) : Nat := 0x0210024 + 0x100 * i
/-- RING_ABORT, class P. -/
def ringAbort (i : Nat) : Nat := 0x0210028 + 0x100 * i
/-- RING_ABORT_CTL, class P. -/
def ringAbortCtl (i : Nat) : Nat := 0x021002C + 0x100 * i
/-- RING_ABORT_STATUS, class P. -/
def ringAbortStatus (i : Nat) : Nat := 0x0210030 + 0x100 * i
/-- RING_TAILPTR_LO, class P. -/
def ringTailptrLo (i : Nat) : Nat := 0x0210034 + 0x100 * i
/-- RING_TAILPTR_HI, class P. -/
def ringTailptrHi (i : Nat) : Nat := 0x0210038 + 0x100 * i
/-- RING_CQ_CTL, class P. -/
def ringCqCtl (i : Nat) : Nat := 0x0210040 + 0x100 * i
/-- RING_CQ_BASE_LO, class P. -/
def ringCqBaseLo (i : Nat) : Nat := 0x0210044 + 0x100 * i
/-- RING_CQ_BASE_HI, class P. -/
def ringCqBaseHi (i : Nat) : Nat := 0x0210048 + 0x100 * i
/-- RING_CQ_HEAD, class P. -/
def ringCqHead (i : Nat) : Nat := 0x021004C + 0x100 * i
/-- RING_CQ_TAIL, class P. -/
def ringCqTail (i : Nat) : Nat := 0x0210050 + 0x100 * i
/-- RING_SHADOW_HEAD, class P. -/
def ringShadowHead (i : Nat) : Nat := 0x0210054 + 0x100 * i
/-- RING_SHADOW_TAIL, class P. -/
def ringShadowTail (i : Nat) : Nat := 0x0210058 + 0x100 * i
/-- RING_CNTSEL, class P. -/
def ringCntsel (i : Nat) (j : Nat) : Nat := 0x0210060 + 0x100 * i + 0x4 * j
/-- DB_TAIL, class O. -/
def dbTail (i : Nat) : Nat := 0x0280000 + 0x1000 * i
/-- DB_CQ_HEAD, class O. -/
def dbCqHead (i : Nat) : Nat := 0x0280004 + 0x1000 * i
/-- DB_CQ_TAIL, class O. -/
def dbCqTail (i : Nat) : Nat := 0x0280008 + 0x1000 * i
/-- DB_STATUS, class O. -/
def dbStatus (i : Nat) : Nat := 0x028000C + 0x1000 * i
/-- NQ_CTL, class P. -/
def nqCtl (i : Nat) : Nat := 0x0300000 + 0x40 * i
/-- NQ_BASE_LO, class P. -/
def nqBaseLo (i : Nat) : Nat := 0x0300004 + 0x40 * i
/-- NQ_BASE_HI, class P. -/
def nqBaseHi (i : Nat) : Nat := 0x0300008 + 0x40 * i
/-- NQ_LEVEL, class P. -/
def nqLevel (i : Nat) : Nat := 0x030000C + 0x40 * i
/-- NQ_STALE, class P. -/
def nqStale (i : Nat) : Nat := 0x0300010 + 0x40 * i
/-- NQ_FILL, class P. -/
def nqFill (i : Nat) : Nat := 0x0300014 + 0x40 * i
/-- NQ_INT_STATUS, class P. -/
def nqIntStatus (i : Nat) : Nat := 0x0300018 + 0x40 * i
/-- NQ_POSTED, class P. -/
def nqPosted (i : Nat) : Nat := 0x030001C + 0x40 * i
/-- NQ_DROPS, class P. -/
def nqDrops (i : Nat) : Nat := 0x0300020 + 0x40 * i
/-- CRU_PARTITION, class P. -/
def cruPartition : Nat := 0x0400000
/-- CRU_STATUS, class O. -/
def cruStatus : Nat := 0x0400004
/-- CRU_WIPE, class P. -/
def cruWipe : Nat := 0x0400008
/-- CRU_CACHE_CTL, class P. -/
def cruCacheCtl : Nat := 0x040000C
/-- CRU_ERR_STATUS, class P. -/
def cruErrStatus : Nat := 0x0400010
/-- CRU_SCRUB, class P. -/
def cruScrub : Nat := 0x0400014
/-- WC_INDEX, class O. -/
def wcIndex (i : Nat) : Nat := 0x0410000 + 0x10 * i
/-- WC_LIMIT, class O. -/
def wcLimit (i : Nat) : Nat := 0x0410004 + 0x10 * i
/-- WC_GEN, class O. -/
def wcGen (i : Nat) : Nat := 0x0410008 + 0x10 * i
/-- WC_CTL, class O. -/
def wcCtl (i : Nat) : Nat := 0x041000C + 0x10 * i
/-- SQ_CTL, class P. -/
def sqCtl (i : Nat) : Nat := 0x0420000 + 0x20 * i
/-- SQ_BASE_LO, class P. -/
def sqBaseLo (i : Nat) : Nat := 0x0420004 + 0x20 * i
/-- SQ_BASE_HI, class P. -/
def sqBaseHi (i : Nat) : Nat := 0x0420008 + 0x20 * i
/-- SQ_PEER, class P. -/
def sqPeer (i : Nat) : Nat := 0x042000C + 0x20 * i
/-- SQ_STATUS, class P. -/
def sqStatus (i : Nat) : Nat := 0x0420010 + 0x20 * i
/-- SQ_FAULT, class P. -/
def sqFault (i : Nat) : Nat := 0x0420014 + 0x20 * i
/-- HBM_STATUS, class P. -/
def hbmStatus (i : Nat) : Nat := 0x0600000 + 0x40000 * i
/-- HBM_ERR, class P. -/
def hbmErr (i : Nat) : Nat := 0x0600004 + 0x40000 * i
/-- HBM_SCRUB, class P. -/
def hbmScrub (i : Nat) : Nat := 0x0600008 + 0x40000 * i
/-- HBM_PPR, class P. -/
def hbmPpr (i : Nat) : Nat := 0x060000C + 0x40000 * i
/-- HBM_DIR_S, class P. -/
def hbmDirS (i : Nat) : Nat := 0x0600010 + 0x40000 * i
/-- HBM_DIR_E, class P. -/
def hbmDirE (i : Nat) : Nat := 0x0600014 + 0x40000 * i
/-- HBM_DIR_M, class P. -/
def hbmDirM (i : Nat) : Nat := 0x0600018 + 0x40000 * i
/-- HBM_RETIRE, class P. -/
def hbmRetire (i : Nat) (j : Nat) : Nat := 0x0601000 + 0x40000 * i + 0x4 * j
/-- RUN_LINK_STATUS, class P. -/
def runLinkStatus (i : Nat) : Nat := 0x0800000 + 0x10000 * i
/-- RUN_LINK_CTL, class P. -/
def runLinkCtl (i : Nat) : Nat := 0x0800004 + 0x10000 * i
/-- RUN_LINK_ERR, class P. -/
def runLinkErr (i : Nat) : Nat := 0x0800008 + 0x10000 * i
/-- RUN_FEC_CORR, class P. -/
def runFecCorr (i : Nat) : Nat := 0x080000C + 0x10000 * i
/-- RUN_PORTMAP, class P. -/
def runPortmap (i : Nat) : Nat := 0x0800010 + 0x10000 * i
/-- RUN_VC_CREDIT, class P. -/
def runVcCredit (i : Nat) (j : Nat) : Nat := 0x0800020 + 0x10000 * i + 0x4 * j
/-- RUN_JOB, class P. -/
def runJob : Nat := 0x0900000
/-- RUN_FLOOD_STATUS, class P. -/
def runFloodStatus : Nat := 0x0900004
/-- RUN_STATUS, class P. -/
def runStatus : Nat := 0x0900008
/-- RUN_JOB_SET, class P. -/
def runJobSet : Nat := 0x090000C
/-- RUN_VC_WEIGHT, class P. -/
def runVcWeight : Nat := 0x0900010
/-- RUN_SUBST_W0, class P. -/
def runSubstW0 (i : Nat) : Nat := 0x0900100 + 0x8 * i
/-- RUN_SUBST_W1, class P. -/
def runSubstW1 (i : Nat) : Nat := 0x0900104 + 0x8 * i
/-- RUN_STAGE_LO, class P. -/
def runStageLo (i : Nat) : Nat := 0x0900400 + 0x10 * i
/-- RUN_STAGE_HI, class P. -/
def runStageHi (i : Nat) : Nat := 0x0900404 + 0x10 * i
/-- RUN_STAGE_SIZE, class P. -/
def runStageSize (i : Nat) : Nat := 0x0900408 + 0x10 * i
/-- RUN_RED_STATUS, class P. -/
def runRedStatus : Nat := 0x0900500
/-- RUN_DROP_COUNT, class P. -/
def runDropCount : Nat := 0x0900504
/-- TRN_CTL, class P. -/
def trnCtl : Nat := 0x0900800
/-- TRN_STATUS, class P. -/
def trnStatus : Nat := 0x0900804
/-- TRN_SCALE, class P. -/
def trnScale : Nat := 0x0900808
/-- TRN_STEP, class P. -/
def trnStep : Nat := 0x090080C
/-- TRN_UPDATES, class P. -/
def trnUpdates : Nat := 0x0900810
/-- TRN_CLEAN, class P. -/
def trnClean : Nat := 0x0900814
/-- TRN_GROWTH, class P. -/
def trnGrowth : Nat := 0x0900818
/-- TRN_LIMITS, class P. -/
def trnLimits : Nat := 0x090081C
/-- TRN_GATE, class P. -/
def trnGate : Nat := 0x0900820
/-- TRN_MIRROR_LO, class P. -/
def trnMirrorLo : Nat := 0x0900824
/-- TRN_MIRROR_HI, class P. -/
def trnMirrorHi : Nat := 0x0900828
/-- TRN_VETOES, class P. -/
def trnVetoes : Nat := 0x090082C
/-- TRN_ERR, class P. -/
def trnErr : Nat := 0x0900830
/-- SPR_STATUS, class P. -/
def sprStatus : Nat := 0x0A00000
/-- SPR_AP_CTL, class P. -/
def sprApCtl : Nat := 0x0A00004
/-- SPR_AP_BASE, class P. -/
def sprApBase : Nat := 0x0A00008
/-- SPR_REQ_TIMEOUT, class P. -/
def sprReqTimeout : Nat := 0x0A0000C
/-- SPR_SNP_TIMEOUT, class P. -/
def sprSnpTimeout : Nat := 0x0A00010
/-- SPR_INT_EOI, class P. -/
def sprIntEoi : Nat := 0x0A00014
/-- SPR_INT_MASK, class P. -/
def sprIntMask (i : Nat) : Nat := 0x0A00020 + 0x4 * i
/-- SPR_INT_PENDING, class P. -/
def sprIntPending (i : Nat) : Nat := 0x0A00040 + 0x4 * i
/-- SPR_ERR_COUNT, class P. -/
def sprErrCount : Nat := 0x0A00060
/-- RGL_STATUS, class P. -/
def rglStatus : Nat := 0x0C00000
/-- RGL_CTL, class P. -/
def rglCtl : Nat := 0x0C00004
/-- RGL_CAP, class P. -/
def rglCap : Nat := 0x0C00008
/-- RGL_POWER, class P. -/
def rglPower : Nat := 0x0C0000C
/-- RGL_POLICY, class P. -/
def rglPolicy (i : Nat) : Nat := 0x0C00010 + 0x4 * i
/-- RGL_REQ_LO, class P. -/
def rglReqLo : Nat := 0x0C00050
/-- RGL_REQ_HI, class P. -/
def rglReqHi : Nat := 0x0C00054
/-- RGL_WINDOW, class P. -/
def rglWindow : Nat := 0x0C00058
/-- RGL_WINDOW_STATUS, class P. -/
def rglWindowStatus : Nat := 0x0C0005C
/-- RGL_DIE, class P. -/
def rglDie (i : Nat) : Nat := 0x0C00100 + 0x4 * i
/-- RSR_STATUS, class P. -/
def rsrStatus : Nat := 0x0D00000
/-- RSR_CTL, class P. -/
def rsrCtl : Nat := 0x0D00004
/-- RSR_RESET, class P. -/
def rsrReset : Nat := 0x0D00008
/-- RSR_FLOOD, class P. -/
def rsrFlood : Nat := 0x0D0000C
/-- RSR_TO_RINGS_LO, class P. -/
def rsrToRingsLo : Nat := 0x0D00010
/-- RSR_TO_RINGS_HI, class P. -/
def rsrToRingsHi : Nat := 0x0D00014
/-- RSR_RECORD_LO, class P. -/
def rsrRecordLo : Nat := 0x0D00018
/-- RSR_RECORD_HI, class P. -/
def rsrRecordHi : Nat := 0x0D0001C
/-- RSR_RECORD_GEN, class P. -/
def rsrRecordGen : Nat := 0x0D00020
/-- RSR_CORE, class P. -/
def rsrCore (i : Nat) : Nat := 0x0D00030 + 0x4 * i
/-- RSR_MXE, class P. -/
def rsrMxe : Nat := 0x0D00050
/-- RSR_BANKS, class P. -/
def rsrBanks : Nat := 0x0D00054
/-- RSR_LANES, class P. -/
def rsrLanes : Nat := 0x0D00058
/-- RSR_GATES, class P. -/
def rsrGates : Nat := 0x0D0005C
/-- RSR_PAGES, class P. -/
def rsrPages (i : Nat) : Nat := 0x0D00060 + 0x4 * i
/-- RSR_FUSE, class P. -/
def rsrFuse : Nat := 0x0D00080
/-- ASY_STATUS, class P. -/
def asyStatus : Nat := 0x0E00000
/-- ASY_CMD, class P. -/
def asyCmd : Nat := 0x0E00004
/-- ASY_IN_LEN, class P. -/
def asyInLen : Nat := 0x0E00008
/-- ASY_OUT_LEN, class P. -/
def asyOutLen : Nat := 0x0E0000C
/-- ASY_RESULT, class P. -/
def asyResult : Nat := 0x0E00010
/-- ASY_CTL, class P. -/
def asyCtl : Nat := 0x0E00014
/-- ASY_IN, class P. -/
def asyIn (i : Nat) : Nat := 0x0E10000 + 0x4 * i
/-- ASY_OUT, class P. -/
def asyOut (i : Nat) : Nat := 0x0E20000 + 0x4 * i
/-- CORE_STATUS, class O. -/
def coreStatus (i : Nat) : Nat := 0x1000000 + 0x10000 * i
/-- CORE_TRAP, class P. -/
def coreTrap (i : Nat) : Nat := 0x1000004 + 0x10000 * i
/-- CORE_TRAP_PC, class P. -/
def coreTrapPc (i : Nat) : Nat := 0x1000008 + 0x10000 * i
/-- CORE_TILE_LO, class P. -/
def coreTileLo (i : Nat) : Nat := 0x100000C + 0x10000 * i
/-- CORE_TILE_HI, class P. -/
def coreTileHi (i : Nat) : Nat := 0x1000010 + 0x10000 * i
/-- CORE_NONFINITE, class O. -/
def coreNonfinite (i : Nat) : Nat := 0x1000014 + 0x10000 * i
/-- CORE_FLUSHED, class O. -/
def coreFlushed (i : Nat) : Nat := 0x1000018 + 0x10000 * i
/-- CNT_CTL, class P. -/
def cntCtl : Nat := 0x2000000
/-- CNT_STATUS, class O. -/
def cntStatus : Nat := 0x2000004
/-- CNT_LATCH_LO, class P. -/
def cntLatchLo : Nat := 0x2000008
/-- CNT_LATCH_HI, class P. -/
def cntLatchHi : Nat := 0x200000C
/-- TRC_CTL, class P. -/
def trcCtl (i : Nat) : Nat := 0x2000100 + 0x40 * i
/-- TRC_SRC, class P. -/
def trcSrc (i : Nat) : Nat := 0x2000104 + 0x40 * i
/-- TRC_SAMPLE, class P. -/
def trcSample (i : Nat) : Nat := 0x2000108 + 0x40 * i
/-- TRC_BASE_LO, class P. -/
def trcBaseLo (i : Nat) : Nat := 0x200010C + 0x40 * i
/-- TRC_BASE_HI, class P. -/
def trcBaseHi (i : Nat) : Nat := 0x2000110 + 0x40 * i
/-- TRC_SIZE, class P. -/
def trcSize (i : Nat) : Nat := 0x2000114 + 0x40 * i
/-- TRC_WR, class O. -/
def trcWr (i : Nat) : Nat := 0x2000118 + 0x40 * i
/-- TRC_RD, class O. -/
def trcRd (i : Nat) : Nat := 0x200011C + 0x40 * i
/-- TRC_DROPS, class O. -/
def trcDrops (i : Nat) : Nat := 0x2000120 + 0x40 * i
/-- RR_CTL, class P. -/
def rrCtl : Nat := 0x2000800
/-- RR_STATUS, class P. -/
def rrStatus : Nat := 0x2000804
/-- RR_BASE_LO, class P. -/
def rrBaseLo : Nat := 0x2000808
/-- RR_BASE_HI, class P. -/
def rrBaseHi : Nat := 0x200080C
/-- RR_SIZE, class P. -/
def rrSize : Nat := 0x2000810
/-- RR_VC_MASK, class P. -/
def rrVcMask : Nat := 0x2000814
/-- RR_POS, class P. -/
def rrPos : Nat := 0x2000818
/-- RR_START, class P. -/
def rrStart : Nat := 0x200081C
/-- RR_END, class P. -/
def rrEnd : Nat := 0x2000820
/-- RR_SIDE_LO, class P. -/
def rrSideLo : Nat := 0x2000824
/-- RR_SIDE_HI, class P. -/
def rrSideHi : Nat := 0x2000828

/-- NQ_PORT[q], the 32-byte pop port of R73. -/
def nqPort (i : Nat) : Nat := 0x0310000 + 0x20 * i
end Reg

/-- Registers of the spec, part 0. -/
def regTable0 : List RegDesc :=
  [ ⟨"GLB_ID", 0x0000000, [], .o, 0x0, 0xFFFFFFFF, 0x0, 0x0, 0x0, 0x5A575748⟩,
    ⟨"GLB_STEP", 0x0000004, [], .o, 0x0, 0xFFFF, 0x0, 0x0, 0x0, 0xA01⟩,
    ⟨"GLB_CAP0", 0x0000008, [], .o, 0x0, 0x1FF01FF, 0x0, 0x0, 0x0, 0x1200000⟩,
    ⟨"GLB_CAP1", 0x000000C, [], .o, 0x0, 0xFFFFF0FF, 0x0, 0x0, 0x0, 0x2008008⟩,
    ⟨"GLB_CAP2", 0x0000010, [], .o, 0x0, 0xFFFF3F, 0x0, 0x0, 0x0, 0x40403F⟩,
    ⟨"GLB_CORE_MAP", 0x0000020, [(0x4, 8)], .o, 0x0, 0xFFFFFFFF, 0x0, 0x0, 0x0, 0x0⟩,
    ⟨"GLB_COORD", 0x0000040, [], .o, 0x0, 0x1FFF1FFF, 0x0, 0x0, 0x0, 0x0⟩,
    ⟨"GLB_AXES", 0x0000044, [], .o, 0x0, 0xFFFF, 0x0, 0x0, 0x0, 0x0⟩,
    ⟨"GLB_STATE", 0x0000048, [], .o, 0x0, 0x171F, 0x0, 0x0, 0x0, 0x0⟩,
    ⟨"GLB_FAULT", 0x0000050, [], .p, 0x0, 0x0, 0xFF, 0x0, 0x0, 0x0⟩,
    ⟨"GLB_FAULT_CTL", 0x0000054, [], .p, 0x1FF, 0x0, 0x0, 0x0, 0x0, 0x0⟩,
    ⟨"GLB_PARITY_ADDR", 0x0000058, [], .p, 0x0, 0xFFFFFFF, 0x0, 0x0, 0x0, 0x0⟩,
    ⟨"GLB_ACCESS_STATUS", 0x0000060, [], .p, 0x0, 0x0, 0x3F, 0x0, 0x0, 0x0⟩,
    ⟨"GLB_DENY_ADDR", 0x0000064, [], .p, 0x0, 0xEFFFFFFF, 0x0, 0x0, 0x0, 0x0⟩,
    ⟨"GLB_DENY_COUNT", 0x0000068, [], .p, 0x0, 0xFFFFFFFF, 0x0, 0x0, 0x0, 0x0⟩,
    ⟨"GLB_XLAT_CMD", 0x0000080, [], .p, 0x0, 0x0, 0x0, 0x0, 0xFFFFFFEF, 0x0⟩,
    ⟨"GLB_XLAT_VA", 0x0000084, [], .p, 0x7FFFFFF, 0x0, 0x0, 0x0, 0x0, 0x0⟩,
    ⟨"GLB_XLAT_PA", 0x0000088, [], .p, 0x7FFFFFF, 0x0, 0x0, 0x0, 0x0, 0x0⟩,
    ⟨"GLB_XLAT_STATUS", 0x000008C, [], .p, 0x0, 0xF01, 0x0, 0x0, 0x0, 0x0⟩,
    ⟨"GLB_XLAT_REGION", 0x0000090, [], .p, 0x0, 0x7FFFFFF, 0x0, 0x0, 0x0, 0x0⟩,
    ⟨"GLB_XLAT_SIZE", 0x0000094, [], .p, 0x0, 0xFFFF, 0x0, 0x0, 0x0, 0x0⟩,
    ⟨"BEAT_STATUS", 0x0100000, [], .o, 0x0, 0xF, 0x0, 0x0, 0x0, 0x0⟩,
    ⟨"BEAT_CTL", 0x0100004, [], .p, 0x1F, 0x0, 0x0, 0x0, 0x0, 0x0⟩,
    ⟨"BEAT_SYNC_INTERVAL", 0x0100008, [], .p, 0xFFFF, 0x0, 0x0, 0x0, 0x0, 0x3E8⟩,
    ⟨"BEAT_ASYM", 0x010000C, [], .p, 0xFFFFFFFF, 0x0, 0x0, 0x0, 0x0, 0x0⟩,
    ⟨"BEAT_FAULT", 0x0100010, [], .p, 0x0, 0x0, 0x1F, 0x0, 0x0, 0x0⟩,
    ⟨"BEAT_SS_CTL", 0x0100020, [], .p, 0x1FFF, 0x0, 0x0, 0x0, 0x0, 0x0⟩,
    ⟨"BEAT_SS_SEND_LO", 0x0100024, [], .p, 0xFFFFFFFF, 0x0, 0x0, 0x0, 0x0, 0x0⟩,
    ⟨"BEAT_SS_SEND_HI", 0x0100028, [], .p, 0xFFFFFFFF, 0x0, 0x0, 0x0, 0x0, 0x0⟩,
    ⟨"BEAT_SS_COUNT", 0x010002C, [], .p, 0x0, 0xFFFFFFFF, 0x0, 0x0, 0x0, 0x0⟩,
    ⟨"MBX_SEL", 0x0108000, [], .p, 0xFFFFFFFF, 0x0, 0x0, 0x0, 0x0, 0x0⟩,
    ⟨"MBX_VALID", 0x0108004, [], .p, 0x0, 0x7, 0x0, 0x0, 0x0, 0x0⟩,
    ⟨"MBX_DATA", 0x0108010, [(0x4, 4)], .p, 0x0, 0xFFFFFFFF, 0x0, 0x0, 0x0, 0x0⟩,
    ⟨"ESC_STATUS", 0x0200000, [], .o, 0x0, 0xFF03, 0x0, 0x0, 0x0, 0x0⟩,
    ⟨"ESC_CTL", 0x0200004, [], .p, 0x3F01, 0x0, 0x0, 0x0, 0x0, 0x1⟩,
    ⟨"ESC_SHADOW_BASE_LO", 0x0200008, [], .p, 0xFFE00000, 0x0, 0x0, 0x0, 0x0, 0x0⟩,
    ⟨"ESC_SHADOW_BASE_HI", 0x020000C, [], .p, 0xFFFF, 0x0, 0x0, 0x0, 0x0, 0x0⟩,
    ⟨"ESC_EVT_SEL", 0x0200010, [], .p, 0xFFF, 0x0, 0x0, 0x0, 0x0, 0x0⟩,
    ⟨"ESC_EVT_LO", 0x0200014, [], .p, 0xFFFFFFFF, 0x0, 0x0, 0x0, 0x0, 0x0⟩,
    ⟨"ESC_EVT_HI", 0x0200018, [], .p, 0xFFFFFFFF, 0x0, 0x0, 0x0, 0x0, 0x0⟩ ]

/-- Registers of the spec, part 1. -/
def regTable1 : List RegDesc :=
  [ ⟨"ESC_MW_MASK_LO", 0x020001C, [], .o, 0x0, 0xFFFFFFFF, 0x0, 0x0, 0x0, 0x0⟩,
    ⟨"ESC_MW_MASK_HI", 0x0200020, [], .o, 0x0, 0xFFFFFFFF, 0x0, 0x0, 0x0, 0x0⟩,
    ⟨"ESC_CHAIN_LO", 0x0200100, [], .p, 0x0, 0x0, 0x0, 0x0, 0xFFFFFFC0, 0x0⟩,
    ⟨"ESC_CHAIN_HI", 0x0200104, [], .p, 0x0, 0x0, 0x0, 0x0, 0xFFFF, 0x0⟩,
    ⟨"ESC_CHAIN_STATUS", 0x0200108, [], .p, 0x0, 0xFF, 0x0, 0x0, 0x0, 0x0⟩,
    ⟨"ESC_CHAIN_FAIL_LO", 0x020010C, [], .p, 0x0, 0xFFFFFFC0, 0x0, 0x0, 0x0, 0x0⟩,
    ⟨"ESC_CHAIN_FAIL_HI", 0x0200110, [], .p, 0x0, 0xFFFF, 0x0, 0x0, 0x0, 0x0⟩,
    ⟨"ESC_EVT_EXT", 0x0200200, [(0x4, 128)], .p, 0xFFFFFFFF, 0x0, 0x0, 0x0, 0x0, 0x0⟩,
    ⟨"RING_CTL", 0x0210000, [(0x100, 64)], .p, 0xFF1F0007, 0x0, 0x0, 0x0, 0x0, 0x60000⟩,
    ⟨"RING_BASE_LO", 0x0210004, [(0x100, 64)], .p, 0xFFFFF000, 0x0, 0x0, 0x0, 0x0, 0x0⟩,
    ⟨"RING_BASE_HI", 0x0210008, [(0x100, 64)], .p, 0xFFFF, 0x0, 0x0, 0x0, 0x0, 0x0⟩,
    ⟨"RING_TAIL", 0x021000C, [(0x100, 64)], .p, 0xFFFFFFFF, 0x0, 0x0, 0x0, 0x0, 0x0⟩,
    ⟨"RING_HEAD", 0x0210010, [(0x100, 64)], .p, 0x0, 0xFFFFFFFF, 0x0, 0x0, 0x0, 0x0⟩,
    ⟨"RING_NEXT", 0x0210014, [(0x100, 64)], .p, 0x0, 0xFFFFFFFF, 0x0, 0x0, 0x0, 0x0⟩,
    ⟨"RING_STATUS", 0x0210018, [(0x100, 64)], .p, 0x0, 0x3F03FF, 0x0, 0x0, 0x0, 0x0⟩,
    ⟨"RING_ERR", 0x021001C, [(0x100, 64)], .p, 0x0, 0x0, 0x3F, 0x0, 0x0, 0x0⟩,
    ⟨"RING_TIMEOUT", 0x0210020, [(0x100, 64)], .p, 0xFFFFFFFF, 0x0, 0x0, 0x0, 0x0, 0x989680⟩,
    ⟨"RING_CMD", 0x0210024, [(0x100, 64)], .p, 0x0, 0x0, 0x0, 0xF, 0x0, 0x0⟩,
    ⟨"RING_ABORT", 0x0210028, [(0x100, 64)], .p, 0xFFFFFFFF, 0x0, 0x0, 0x0, 0x0, 0x0⟩,
    ⟨"RING_ABORT_CTL", 0x021002C, [(0x100, 64)], .p, 0x0, 0x0, 0x0, 0x3, 0x0, 0x0⟩,
    ⟨"RING_ABORT_STATUS", 0x0210030, [(0x100, 64)], .p, 0x0, 0x800001FF, 0x0, 0x0, 0x0, 0x0⟩,
    ⟨"RING_TAILPTR_LO", 0x0210034, [(0x100, 64)], .p, 0xFFFFFFF8, 0x0, 0x0, 0x0, 0x0, 0x0⟩,
    ⟨"RING_TAILPTR_HI", 0x0210038, [(0x100, 64)], .p, 0xFFFF, 0x0, 0x0, 0x0, 0x0, 0x0⟩,
    ⟨"RING_CQ_CTL", 0x0210040, [(0x100, 64)], .p, 0x1F0000, 0x0, 0x0, 0x0, 0x0, 0x60000⟩,
    ⟨"RING_CQ_BASE_LO", 0x0210044, [(0x100, 64)], .p, 0xFFFFF800, 0x0, 0x0, 0x0, 0x0, 0x0⟩,
    ⟨"RING_CQ_BASE_HI", 0x0210048, [(0x100, 64)], .p, 0xFFFF, 0x0, 0x0, 0x0, 0x0, 0x0⟩,
    ⟨"RING_CQ_HEAD", 0x021004C, [(0x100, 64)], .p, 0xFFFFFFFF, 0x0, 0x0, 0x0, 0x0, 0x0⟩,
    ⟨"RING_CQ_TAIL", 0x0210050, [(0x100, 64)], .p, 0x0, 0xFFFFFFFF, 0x0, 0x0, 0x0, 0x0⟩,
    ⟨"RING_SHADOW_HEAD", 0x0210054, [(0x100, 64)], .p, 0xFFFFFFFF, 0x0, 0x0, 0x0, 0x0, 0x0⟩,
    ⟨"RING_SHADOW_TAIL", 0x0210058, [(0x100, 64)], .p, 0x0, 0xFFFFFFFF, 0x0, 0x0, 0x0, 0x0⟩,
    ⟨"RING_CNTSEL", 0x0210060, [(0x100, 64), (0x4, 4)], .p, 0x7FF07FF, 0x0, 0x0, 0x0, 0x0, 0x0⟩,
    ⟨"DB_TAIL", 0x0280000, [(0x1000, 64)], .o, 0x0, 0x0, 0x0, 0xFFFFFFFF, 0x0, 0x0⟩,
    ⟨"DB_CQ_HEAD", 0x0280004, [(0x1000, 64)], .o, 0xFFFFFFFF, 0x0, 0x0, 0x0, 0x0, 0x0⟩,
    ⟨"DB_CQ_TAIL", 0x0280008, [(0x1000, 64)], .o, 0x0, 0xFFFFFFFF, 0x0, 0x0, 0x0, 0x0⟩,
    ⟨"DB_STATUS", 0x028000C, [(0x1000, 64)], .o, 0x0, 0xFFFFFFFF, 0x0, 0x0, 0x0, 0x0⟩,
    ⟨"NQ_CTL", 0x0300000, [(0x40, 64)], .p, 0xFF1F001D, 0x0, 0x0, 0x2, 0x0, 0x40000⟩,
    ⟨"NQ_BASE_LO", 0x0300004, [(0x40, 64)], .p, 0xFFFFFFE0, 0x0, 0x0, 0x0, 0x0, 0x0⟩,
    ⟨"NQ_BASE_HI", 0x0300008, [(0x40, 64)], .p, 0xFFFF, 0x0, 0x0, 0x0, 0x0, 0x0⟩,
    ⟨"NQ_LEVEL", 0x030000C, [(0x40, 64)], .p, 0x1FFFF, 0x0, 0x0, 0x0, 0x0, 0x0⟩,
    ⟨"NQ_STALE", 0x0300010, [(0x40, 64)], .p, 0xFFFFFFFF, 0x0, 0x0, 0x0, 0x0, 0x0⟩ ]

/-- Registers of the spec, part 2. -/
def regTable2 : List RegDesc :=
  [ ⟨"NQ_FILL", 0x0300014, [(0x40, 64)], .p, 0x0, 0x101FFFF, 0x0, 0x0, 0x0, 0x0⟩,
    ⟨"NQ_INT_STATUS", 0x0300018, [(0x40, 64)], .p, 0x0, 0x0, 0xF, 0x0, 0x0, 0x0⟩,
    ⟨"NQ_POSTED", 0x030001C, [(0x40, 64)], .p, 0x0, 0xFFFFFFFF, 0x0, 0x0, 0x0, 0x0⟩,
    ⟨"NQ_DROPS", 0x0300020, [(0x40, 64)], .p, 0x0, 0xFFFFFFFF, 0x0, 0x0, 0x0, 0x0⟩,
    ⟨"CRU_PARTITION", 0x0400000, [], .p, 0x0, 0x0, 0x0, 0x0, 0x1F, 0x18⟩,
    ⟨"CRU_STATUS", 0x0400004, [], .o, 0x0, 0xF, 0x0, 0x0, 0x0, 0x0⟩,
    ⟨"CRU_WIPE", 0x0400008, [], .p, 0x0, 0x0, 0x0, 0x0, 0x1, 0x0⟩,
    ⟨"CRU_CACHE_CTL", 0x040000C, [], .p, 0x0, 0x0, 0x0, 0x0, 0x3, 0x0⟩,
    ⟨"CRU_ERR_STATUS", 0x0400010, [], .p, 0x0, 0x0, 0x3F, 0x0, 0x0, 0x0⟩,
    ⟨"CRU_SCRUB", 0x0400014, [], .p, 0xFFFFFFFF, 0x0, 0x0, 0x0, 0x0, 0x4000⟩,
    ⟨"WC_INDEX", 0x0410000, [(0x10, 1024)], .o, 0xFFFFFFFF, 0x0, 0x0, 0x0, 0x0, 0x0⟩,
    ⟨"WC_LIMIT", 0x0410004, [(0x10, 1024)], .o, 0xFFFFFFFF, 0x0, 0x0, 0x0, 0x0, 0x0⟩,
    ⟨"WC_GEN", 0x0410008, [(0x10, 1024)], .o, 0xFFFF, 0x0, 0x0, 0x0, 0x0, 0x0⟩,
    ⟨"WC_CTL", 0x041000C, [(0x10, 1024)], .o, 0x1, 0x0, 0x0, 0x0, 0x0, 0x0⟩,
    ⟨"SQ_CTL", 0x0420000, [(0x20, 256)], .p, 0x7F1F07, 0x0, 0x0, 0x0, 0x0, 0x10000⟩,
    ⟨"SQ_BASE_LO", 0x0420004, [(0x20, 256)], .p, 0xFFFFF000, 0x0, 0x0, 0x0, 0x0, 0x0⟩,
    ⟨"SQ_BASE_HI", 0x0420008, [(0x20, 256)], .p, 0xFFFF, 0x0, 0x0, 0x0, 0x0, 0x0⟩,
    ⟨"SQ_PEER", 0x042000C, [(0x20, 256)], .p, 0x80FF1FFF, 0x0, 0x0, 0x0, 0x0, 0x0⟩,
    ⟨"SQ_STATUS", 0x0420010, [(0x20, 256)], .p, 0x0, 0x7F7F7F, 0x0, 0x0, 0x0, 0x0⟩,
    ⟨"SQ_FAULT", 0x0420014, [(0x20, 256)], .p, 0x0, 0x0, 0x7, 0x0, 0x0, 0x0⟩,
    ⟨"HBM_STATUS", 0x0600000, [(0x40000, 8)], .p, 0x0, 0xFF00013F, 0x0, 0x0, 0x0, 0x0⟩,
    ⟨"HBM_ERR", 0x0600004, [(0x40000, 8)], .p, 0x0, 0x0, 0xFFFFFFFF, 0x0, 0x0, 0x0⟩,
    ⟨"HBM_SCRUB", 0x0600008, [(0x40000, 8)], .p, 0xFFFFFFFF, 0x0, 0x0, 0x0, 0x0, 0x4000⟩,
    ⟨"HBM_PPR", 0x060000C, [(0x40000, 8)], .p, 0x0, 0xFFFFFFFF, 0x0, 0x0, 0x0, 0x0⟩,
    ⟨"HBM_DIR_S", 0x0600010, [(0x40000, 8)], .p, 0x0, 0x1FFFFFF, 0x0, 0x0, 0x0, 0x0⟩,
    ⟨"HBM_DIR_E", 0x0600014, [(0x40000, 8)], .p, 0x0, 0x1FFFFFF, 0x0, 0x0, 0x0, 0x0⟩,
    ⟨"HBM_DIR_M", 0x0600018, [(0x40000, 8)], .p, 0x0, 0x1FFFFFF, 0x0, 0x0, 0x0, 0x0⟩,
    ⟨"HBM_RETIRE", 0x0601000, [(0x40000, 8), (0x4, 512)], .p, 0x0, 0x87FFFFFF, 0x0, 0x0, 0x0, 0x0⟩,
    ⟨"RUN_LINK_STATUS", 0x0800000, [(0x10000, 16)], .p, 0x0, 0xFF1F1FFF, 0x0, 0x0, 0x0, 0x0⟩,
    ⟨"RUN_LINK_CTL", 0x0800004, [(0x10000, 16)], .p, 0x0, 0x0, 0x0, 0x0, 0x7, 0x0⟩,
    ⟨"RUN_LINK_ERR", 0x0800008, [(0x10000, 16)], .p, 0x0, 0x0, 0xFFFFFFFF, 0x0, 0x0, 0x0⟩,
    ⟨"RUN_FEC_CORR", 0x080000C, [(0x10000, 16)], .p, 0x0, 0x0, 0xFFFFFFFF, 0x0, 0x0, 0x0⟩,
    ⟨"RUN_PORTMAP", 0x0800010, [(0x10000, 16)], .p, 0xF1FFF, 0x0, 0x0, 0x0, 0x0, 0x0⟩,
    ⟨"RUN_VC_CREDIT", 0x0800020, [(0x10000, 16), (0x4, 8)], .p, 0x0, 0xFFFF, 0x0, 0x0, 0x0, 0x0⟩,
    ⟨"RUN_JOB", 0x0900000, [], .p, 0xFFFF, 0x0, 0x0, 0x0, 0x0, 0x0⟩,
    ⟨"RUN_FLOOD_STATUS", 0x0900004, [], .p, 0x0, 0x4FFFFFFF, 0x80000000, 0x0, 0x0, 0x0⟩,
    ⟨"RUN_STATUS", 0x0900008, [], .p, 0x0, 0x1, 0x0, 0x0, 0x0, 0x0⟩,
    ⟨"RUN_JOB_SET", 0x090000C, [], .p, 0x3FFFFFF, 0x0, 0x0, 0x0, 0x0, 0x0⟩,
    ⟨"RUN_VC_WEIGHT", 0x0900010, [], .p, 0xFFFFFFF, 0x0, 0x0, 0x0, 0x0, 0x1228888⟩,
    ⟨"RUN_SUBST_W0", 0x0900100, [(0x8, 32)], .p, 0xC00F1FFF, 0x0, 0x0, 0x0, 0x0, 0x0⟩ ]

/-- Registers of the spec, part 3. -/
def regTable3 : List RegDesc :=
  [ ⟨"RUN_SUBST_W1", 0x0900104, [(0x8, 32)], .p, 0x1, 0x0, 0x0, 0x0, 0x0, 0x1⟩,
    ⟨"RUN_STAGE_LO", 0x0900400, [(0x10, 8)], .p, 0xFFE00000, 0x0, 0x0, 0x0, 0x0, 0x0⟩,
    ⟨"RUN_STAGE_HI", 0x0900404, [(0x10, 8)], .p, 0xFFFF, 0x0, 0x0, 0x0, 0x0, 0x0⟩,
    ⟨"RUN_STAGE_SIZE", 0x0900408, [(0x10, 8)], .p, 0xFFFF, 0x0, 0x0, 0x0, 0x0, 0x0⟩,
    ⟨"RUN_RED_STATUS", 0x0900500, [], .p, 0x0, 0xFFFFFFFF, 0x0, 0x0, 0x0, 0x0⟩,
    ⟨"RUN_DROP_COUNT", 0x0900504, [], .p, 0x0, 0x0, 0xFFFFFFFF, 0x0, 0x0, 0x0⟩,
    ⟨"TRN_CTL", 0x0900800, [], .p, 0xFF000009, 0x0, 0x0, 0x6, 0x0, 0x0⟩,
    ⟨"TRN_STATUS", 0x0900804, [], .p, 0x0, 0xF07, 0x0, 0x0, 0x0, 0x0⟩,
    ⟨"TRN_SCALE", 0x0900808, [], .p, 0xFFFFFFFF, 0x0, 0x0, 0x0, 0x0, 0x3F800000⟩,
    ⟨"TRN_STEP", 0x090080C, [], .p, 0xFFFFFFFF, 0x0, 0x0, 0x0, 0x0, 0x0⟩,
    ⟨"TRN_UPDATES", 0x0900810, [], .p, 0xFFFFFFFF, 0x0, 0x0, 0x0, 0x0, 0x0⟩,
    ⟨"TRN_CLEAN", 0x0900814, [], .p, 0xFFFFFFFF, 0x0, 0x0, 0x0, 0x0, 0x0⟩,
    ⟨"TRN_GROWTH", 0x0900818, [], .p, 0xFFFFFFFF, 0x0, 0x0, 0x0, 0x0, 0x7D0⟩,
    ⟨"TRN_LIMITS", 0x090081C, [], .p, 0x1F1F, 0x0, 0x0, 0x0, 0x0, 0x1800⟩,
    ⟨"TRN_GATE", 0x0900820, [], .p, 0xFFFFFFFF, 0x0, 0x0, 0x0, 0x0, 0x0⟩,
    ⟨"TRN_MIRROR_LO", 0x0900824, [], .p, 0xFFFFFFC0, 0x0, 0x0, 0x0, 0x0, 0x0⟩,
    ⟨"TRN_MIRROR_HI", 0x0900828, [], .p, 0xFFFF, 0x0, 0x0, 0x0, 0x0, 0x0⟩,
    ⟨"TRN_VETOES", 0x090082C, [], .p, 0xFFFFFFFF, 0x0, 0x0, 0x0, 0x0, 0x0⟩,
    ⟨"TRN_ERR", 0x0900830, [], .p, 0x0, 0x0, 0xF, 0x0, 0x0, 0x0⟩,
    ⟨"SPR_STATUS", 0x0A00000, [], .p, 0x0, 0xF, 0x0, 0x0, 0x0, 0x0⟩,
    ⟨"SPR_AP_CTL", 0x0A00004, [], .p, 0x0, 0x0, 0x0, 0x0, 0x1F, 0x0⟩,
    ⟨"SPR_AP_BASE", 0x0A00008, [], .p, 0x0, 0x0, 0x0, 0x0, 0x3FFFF, 0x0⟩,
    ⟨"SPR_REQ_TIMEOUT", 0x0A0000C, [], .p, 0xFFFFFFFF, 0x0, 0x0, 0x0, 0x0, 0x3E8⟩,
    ⟨"SPR_SNP_TIMEOUT", 0x0A00010, [], .p, 0xFFFFFFFF, 0x0, 0x0, 0x0, 0x0, 0x64⟩,
    ⟨"SPR_INT_EOI", 0x0A00014, [], .p, 0x0, 0x0, 0x0, 0xFF, 0x0, 0x0⟩,
    ⟨"SPR_INT_MASK", 0x0A00020, [(0x4, 8)], .p, 0xFFFFFFFF, 0x0, 0x0, 0x0, 0x0, 0xFFFFFFFF⟩,
    ⟨"SPR_INT_PENDING", 0x0A00040, [(0x4, 8)], .p, 0x0, 0xFFFFFFFF, 0x0, 0x0, 0x0, 0x0⟩,
    ⟨"SPR_ERR_COUNT", 0x0A00060, [], .p, 0x0, 0xFFFF0000, 0xFFFF, 0x0, 0x0, 0x0⟩,
    ⟨"RGL_STATUS", 0x0C00000, [], .p, 0x0, 0x1FF, 0x0, 0x0, 0x0, 0x0⟩,
    ⟨"RGL_CTL", 0x0C00004, [], .p, 0xFF00013F, 0x0, 0x0, 0x0, 0x0, 0x0⟩,
    ⟨"RGL_CAP", 0x0C00008, [], .p, 0x0, 0x0, 0x0, 0x0, 0x1FFF, 0x0⟩,
    ⟨"RGL_POWER", 0x0C0000C, [], .p, 0x0, 0x1FFF, 0x0, 0x0, 0x0, 0x0⟩,
    ⟨"RGL_POLICY", 0x0C00010, [(0x4, 16)], .p, 0x0, 0xFFFFFFFF, 0x0, 0x0, 0x0, 0x0⟩,
    ⟨"RGL_REQ_LO", 0x0C00050, [], .p, 0x0, 0xFFFFFF0F, 0x0, 0x0, 0x0, 0x0⟩,
    ⟨"RGL_REQ_HI", 0x0C00054, [], .p, 0x0, 0xFFFFFFFF, 0x0, 0x0, 0x0, 0x0⟩,
    ⟨"RGL_WINDOW", 0x0C00058, [], .p, 0x0, 0x0, 0x0, 0x0, 0xFFFFFFFF, 0x0⟩,
    ⟨"RGL_WINDOW_STATUS", 0x0C0005C, [], .p, 0x0, 0xFFFFFF01, 0x0, 0x0, 0x0, 0x0⟩,
    ⟨"RGL_DIE", 0x0C00100, [(0x4, 64)], .p, 0x0, 0xFFFFFFFF, 0x0, 0x0, 0x0, 0x0⟩,
    ⟨"RSR_STATUS", 0x0D00000, [], .p, 0x0, 0x1FE, 0x0, 0x0, 0x0, 0x0⟩,
    ⟨"RSR_CTL", 0x0D00004, [], .p, 0xFFFF0FC3, 0x0, 0x0, 0x0, 0x0, 0x3E80001⟩ ]

/-- Registers of the spec, part 4. -/
def regTable4 : List RegDesc :=
  [ ⟨"RSR_RESET", 0x0D00008, [], .p, 0x0, 0x0, 0x0, 0x0, 0x3, 0x0⟩,
    ⟨"RSR_FLOOD", 0x0D0000C, [], .p, 0x0, 0x0, 0x0, 0x1, 0x0, 0x0⟩,
    ⟨"RSR_TO_RINGS_LO", 0x0D00010, [], .p, 0xFFFFFFFF, 0x0, 0x0, 0x0, 0x0, 0x0⟩,
    ⟨"RSR_TO_RINGS_HI", 0x0D00014, [], .p, 0xFFFFFFFF, 0x0, 0x0, 0x0, 0x0, 0x0⟩,
    ⟨"RSR_RECORD_LO", 0x0D00018, [], .p, 0xFFFE0000, 0x0, 0x0, 0x0, 0x0, 0x0⟩,
    ⟨"RSR_RECORD_HI", 0x0D0001C, [], .p, 0xFFF, 0x0, 0x0, 0x0, 0x0, 0x0⟩,
    ⟨"RSR_RECORD_GEN", 0x0D00020, [], .p, 0x0, 0xFFFFFFFF, 0x0, 0x0, 0x0, 0x0⟩,
    ⟨"RSR_CORE", 0x0D00030, [(0x4, 8)], .p, 0x0, 0xFFFFFFFF, 0x0, 0x0, 0x0, 0x0⟩,
    ⟨"RSR_MXE", 0x0D00050, [], .p, 0x0, 0xFFFFFFFF, 0x0, 0x0, 0x0, 0x0⟩,
    ⟨"RSR_BANKS", 0x0D00054, [], .p, 0x0, 0xFFFF, 0x0, 0x0, 0x0, 0x0⟩,
    ⟨"RSR_LANES", 0x0D00058, [], .p, 0x0, 0xFFFF0003, 0x0, 0x0, 0x0, 0x0⟩,
    ⟨"RSR_GATES", 0x0D0005C, [], .p, 0x0, 0xFFFF, 0x0, 0x0, 0x0, 0x0⟩,
    ⟨"RSR_PAGES", 0x0D00060, [(0x4, 8)], .p, 0x0, 0x3FF03FF, 0x0, 0x0, 0x0, 0x0⟩,
    ⟨"RSR_FUSE", 0x0D00080, [], .p, 0x0, 0xFF, 0x0, 0x0, 0x0, 0x0⟩,
    ⟨"ASY_STATUS", 0x0E00000, [], .p, 0x0, 0xFF000D, 0x2, 0x0, 0x0, 0x0⟩,
    ⟨"ASY_CMD", 0x0E00004, [], .p, 0x0, 0x0, 0x0, 0x0, 0xFF, 0x0⟩,
    ⟨"ASY_IN_LEN", 0x0E00008, [], .p, 0x1FFFF, 0x0, 0x0, 0x0, 0x0, 0x0⟩,
    ⟨"ASY_OUT_LEN", 0x0E0000C, [], .p, 0x0, 0x1FFFF, 0x0, 0x0, 0x0, 0x0⟩,
    ⟨"ASY_RESULT", 0x0E00010, [], .p, 0x0, 0xFF, 0x0, 0x0, 0x0, 0x0⟩,
    ⟨"ASY_CTL", 0x0E00014, [], .p, 0x1FF, 0x0, 0x0, 0x0, 0x0, 0x0⟩,
    ⟨"ASY_IN", 0x0E10000, [(0x4, 16384)], .p, 0xFFFFFFFF, 0x0, 0x0, 0x0, 0x0, 0x0⟩,
    ⟨"ASY_OUT", 0x0E20000, [(0x4, 16384)], .p, 0x0, 0xFFFFFFFF, 0x0, 0x0, 0x0, 0x0⟩,
    ⟨"CORE_STATUS", 0x1000000, [(0x10000, 256)], .o, 0x0, 0x1F0F, 0x0, 0x0, 0x0, 0x0⟩,
    ⟨"CORE_TRAP", 0x1000004, [(0x10000, 256)], .p, 0x0, 0x800000FF, 0x0, 0x0, 0x0, 0x0⟩,
    ⟨"CORE_TRAP_PC", 0x1000008, [(0x10000, 256)], .p, 0x0, 0xFFFFFFFF, 0x0, 0x0, 0x0, 0x0⟩,
    ⟨"CORE_TILE_LO", 0x100000C, [(0x10000, 256)], .p, 0x0, 0xFFFFFFFF, 0x0, 0x0, 0x0, 0x0⟩,
    ⟨"CORE_TILE_HI", 0x1000010, [(0x10000, 256)], .p, 0x0, 0x83FFFFFF, 0x0, 0x0, 0x0, 0x0⟩,
    ⟨"CORE_NONFINITE", 0x1000014, [(0x10000, 256)], .o, 0x0, 0xFFFFFFFF, 0x0, 0x0, 0x0, 0x0⟩,
    ⟨"CORE_FLUSHED", 0x1000018, [(0x10000, 256)], .o, 0x0, 0xFFFFFFFF, 0x0, 0x0, 0x0, 0x0⟩,
    ⟨"CNT_CTL", 0x2000000, [], .p, 0x1, 0x0, 0x0, 0x0, 0x0, 0x0⟩,
    ⟨"CNT_STATUS", 0x2000004, [], .o, 0x0, 0x7, 0x0, 0x0, 0x0, 0x0⟩,
    ⟨"CNT_LATCH_LO", 0x2000008, [], .p, 0xFFFFFFFF, 0x0, 0x0, 0x0, 0x0, 0x0⟩,
    ⟨"CNT_LATCH_HI", 0x200000C, [], .p, 0xFFFFFFFF, 0x0, 0x0, 0x0, 0x0, 0x0⟩,
    ⟨"TRC_CTL", 0x2000100, [(0x40, 8)], .p, 0x3F0303, 0x0, 0x0, 0x0, 0x0, 0x0⟩,
    ⟨"TRC_SRC", 0x2000104, [(0x40, 8)], .p, 0xFF00FFFF, 0x0, 0x0, 0x0, 0x0, 0x0⟩,
    ⟨"TRC_SAMPLE", 0x2000108, [(0x40, 8)], .p, 0xFFFF07FF, 0x0, 0x0, 0x0, 0x0, 0x0⟩,
    ⟨"TRC_BASE_LO", 0x200010C, [(0x40, 8)], .p, 0xFFFFFFE0, 0x0, 0x0, 0x0, 0x0, 0x0⟩,
    ⟨"TRC_BASE_HI", 0x2000110, [(0x40, 8)], .p, 0xFFFF, 0x0, 0x0, 0x0, 0x0, 0x0⟩,
    ⟨"TRC_SIZE", 0x2000114, [(0x40, 8)], .p, 0x1F, 0x0, 0x0, 0x0, 0x0, 0x6⟩,
    ⟨"TRC_WR", 0x2000118, [(0x40, 8)], .o, 0x0, 0xFFFFFFFF, 0x0, 0x0, 0x0, 0x0⟩ ]

/-- Registers of the spec, part 5. -/
def regTable5 : List RegDesc :=
  [ ⟨"TRC_RD", 0x200011C, [(0x40, 8)], .o, 0xFFFFFFFF, 0x0, 0x0, 0x0, 0x0, 0x0⟩,
    ⟨"TRC_DROPS", 0x2000120, [(0x40, 8)], .o, 0x0, 0x0, 0xFFFFFFFF, 0x0, 0x0, 0x0⟩,
    ⟨"RR_CTL", 0x2000800, [], .p, 0x13, 0x0, 0x0, 0x20, 0x0, 0x0⟩,
    ⟨"RR_STATUS", 0x2000804, [], .p, 0x0, 0xF, 0x10, 0x0, 0x0, 0x0⟩,
    ⟨"RR_BASE_LO", 0x2000808, [], .p, 0xFFE00000, 0x0, 0x0, 0x0, 0x0, 0x0⟩,
    ⟨"RR_BASE_HI", 0x200080C, [], .p, 0xFFFF, 0x0, 0x0, 0x0, 0x0, 0x0⟩,
    ⟨"RR_SIZE", 0x2000810, [], .p, 0xFFFF, 0x0, 0x0, 0x0, 0x0, 0x0⟩,
    ⟨"RR_VC_MASK", 0x2000814, [], .p, 0xFF, 0x0, 0x0, 0x0, 0x0, 0x0⟩,
    ⟨"RR_POS", 0x2000818, [], .p, 0x0, 0xFFFFFFFF, 0x0, 0x0, 0x0, 0x0⟩,
    ⟨"RR_START", 0x200081C, [], .p, 0xFFFFFFFF, 0x0, 0x0, 0x0, 0x0, 0x0⟩,
    ⟨"RR_END", 0x2000820, [], .p, 0xFFFFFFFF, 0x0, 0x0, 0x0, 0x0, 0x0⟩,
    ⟨"RR_SIDE_LO", 0x2000824, [], .p, 0xFFFFFFE0, 0x0, 0x0, 0x0, 0x0, 0x0⟩,
    ⟨"RR_SIDE_HI", 0x2000828, [], .p, 0xFFFF, 0x0, 0x0, 0x0, 0x0, 0x0⟩ ]

/-- Every register of the spec. -/
def regTable : List RegDesc := regTable0 ++ regTable1 ++ regTable2 ++ regTable3 ++ regTable4 ++ regTable5

/-- The register at an offset, if there is one (R248). -/
def regAt (off : Nat) : Option RegDesc := regTable.find? fun d => d.covers off

/-- The words of the Regulator's default policy blob (Table 14.2, Default column). -/
def policyDefault : List Nat :=
  [0x001B0001, 0x026C12C0, 0x00550384, 0x00001000, 0x00010000, 1000, 100, 1000, 2000]

/-- The value a register has at reset; 0 where no register is. RGL_POLICY shows the default blob (Table 14.7).
(DESIGN CHOICE, log 7.) -/
def regReset (off : Nat) : W32 :=
  if Reg.rglPolicy 0 ≤ off ∧ off < Reg.rglPolicy 16 then BitVec.ofNat 32 (policyDefault.getD ((off - Reg.rglPolicy 0) / 4) 0)
  else match regAt off with
  | some d => BitVec.ofNat 32 d.reset
  | none => 0

end Sys2Proof.Machine
end

