-- ==== Sys2Proof/Machine/CoreTypes.lean ====
section
/-! DEFINITION. What one tile core holds (Table 5.1, R165 to R188, R197): register files, accumulator tiles, weight
planes, operand buffer, unit queues, tile state and condition state. -/

namespace Sys2Proof.Machine

/-- What a tile core is doing (CORE_STATUS.STATE, Table 5.9, apart from WAITING, which is `Core.hold`). -/
inductive CoreMode where
  | idle | running | trapped | resetting | outOfService
deriving DecidableEq, Repr

/-- An instruction a core has fetched and is waiting in: its words, whether the wait is marked T (R183), and whether
the condition of an event or word wait has been met by a write since it began (R215, R269), and whether it waits for a
granule of the operand buffer (R167). -/
structure Hold where
  w : W64
  e : W64
  markT : Bool
  met : Bool := false
  granule : Bool := false
deriving DecidableEq, Repr

/-- A run-time shape (R173). -/
structure KShape where
  m : W32 := 0
  n : W32 := 0
  k : W32 := 0
deriving DecidableEq, Repr

/-- An accumulator tile (R145): its shape, its element type and its 16,384 storage positions. -/
structure Tile where
  transposed : Bool := false
  isInt : Bool := false
  vals : Tab W32 := []
deriving DecidableEq, Repr

/-- A weight plane (R127, R144): VALID, the recorded format code and K, the element codes at k · 64 + n, and the
scale entries of block j of row n at n · 16 + j. -/
structure Plane where
  valid : Bool := false
  fmt : Nat := 0
  k : Nat := 0
  codes : Tab W32 := []
  entries : Tab W16 := []
deriving DecidableEq, Repr

/-- An issued matrix, vector or conversion instruction that has not retired: its code offset and what it raises. -/
structure UnitEntry where
  pc : W64
  conds : Conds
deriving DecidableEq, Repr

/-- The three transfers of the DMA engine (R206, R207, R217). -/
inductive DmaKind where
  | dma | put | racc
deriving DecidableEq, Repr

/-- An outstanding transfer: the descriptors as they stood at issue (R198), its tag, a put's flag, the tile state a
RACC carries (R217), and its code offset. -/
structure DmaEntry where
  kind : DmaKind
  src : W512
  dst : W512
  tag : Nat
  flagAddr : W64
  flagVal : W64
  tileLo : W32
  tileHi : W32
  pc : W64
deriving DecidableEq, Repr

/-- An owner and reduction that a core has sent contributions to, with the fields that commits repeat (R308). -/
structure RedPair where
  owner : Nat
  red : Nat
  layer : Nat
  deadline : Nat
deriving DecidableEq, Repr

/-- A static slot of TAKE under DET (R187). -/
structure StaticSlot where
  counter : Nat
  first : Nat
  limit : Nat
  gen : Nat
  on : Bool
  n : Nat
deriving DecidableEq, Repr

/-- One tile core under its core id. (DESIGN CHOICE, log 5; DEDUCED, log 40.) -/
structure Core where
  mode : CoreMode := .idle
  hold : Option Hold := none
  /-- Code offset of the next instruction (R191), signed. -/
  pc : W64 := 0
  x : Tab W64 := []
  f : Tab W32 := []
  v : Tab W2048 := []
  p : Tab W64 := []
  d : Tab W512 := []
  k : Tab KShape := []
  tiles : Tab Tile := []
  planes : Tab Plane := []
  /-- The score buffer of R156. -/
  score : Tab W32 := []
  /-- The operand buffer (R166) and its poisoned 16-byte words (R85). -/
  ob : Tab Byte := []
  obPoison : Tab Bool := []
  srSeed : W64 := 0
  /-- Sticky flags NV, OF, SAT, NAN_IN and counters of R118 and R107. -/
  nv : Bool := false
  ov : Bool := false
  sat : Bool := false
  nanIn : Bool := false
  nonfinite : W32 := 0
  flushed : W32 := 0
  trapEn : BitVec 5 := 0
  trapValid : Bool := false
  trapCause : Nat := 0
  trapPc : W32 := 0
  /-- CORE_TILE_LO and CORE_TILE_HI (Table 5.11), and whether a tile was taken in this dispatch (R188). -/
  tileLo : W32 := 0
  tileHi : W32 := 0
  took : Bool := false
  /-- Core counters of `cntr` (Table 6.16) that the model keeps. -/
  retired : W64 := 0
  mxeBusy : W64 := 0
  dmaBytes : W64 := 0
  /-- Granule stall steps, in thousandths. -/
  stalled : Nat := 0
  /-- The core stops at its next instruction boundary, since another core of its dispatch has trapped (R189). -/
  stopping : Bool := false
  mxeQ : List UnitEntry := []
  vecQ : List UnitEntry := []
  dmaQ : List DmaEntry := []
  statics : List StaticSlot := []
  /-- Puts of this core whose destination has not acknowledged them (R301). -/
  putsOut : Nat := 0
  /-- Owners and RED_IDs its held tile has sent to, and those it sent to outside a tile (R308). -/
  tilePairs : List RedPair := []
  endPairs : List RedPair := []
  /-- The dispatch (its command identity), DET, rank and size of R176 and R186. -/
  disp : Option Nat := none
  det : Bool := false
  rank : Nat := 0
  size : Nat := 0
  /-- ENTRY and CODE_BYTES of the running kernel (R191), and the k values of the DISPATCH (R183). -/
  entry : Nat := 0
  codeBytes : Nat := 0
  k0 : Tab KShape := []
  /-- The tag of the per-dispatch counters (R357): ring, SEQ and SUB of the dispatch; PREV once its part has ended. -/
  tag : Option (Nat × W32 × Nat) := none
  prev : Bool := false
  /-- A per-core reset is in progress (R183); what it will do: 0 the core returns, 1 its spare comes in, 2 it goes out
  of service (R424); and whether the kernel restarts after it. -/
  faulted : Bool := false
  faultAct : Nat := 0
  restart : Bool := false
  /-- The Beat of the last retirement (R183: the hang limit). -/
  lastRetire : W64 := 0
deriving DecidableEq, Repr

end Sys2Proof.Machine
end

