-- ==== Sys2Proof/Machine/EscTypes.lean ====
section
/-! DEFINITION. What the Escapement holds beyond its registers (R257 to R287): rings, running commands, frames of
control flow, completion entries, dispatches, and the chain runner. -/

namespace Sys2Proof.Machine

/-- Ring states (Table 8.1). -/
inductive RingState where
  | disabled | active | paused | haltedErr | haltedCq
deriving DecidableEq, Repr

/-- Where a ring's next command lies: on the ring at a sequence number, or in a called buffer at an index, under the
sequence number of its CALL (R274). -/
structure Pos where
  inBuf : Bool := false
  seq : W32 := 0
  addr : Nat := 0
  entries : Nat := 0
  idx : Nat := 0
deriving DecidableEq, Repr

/-- Kinds of frames (R272). -/
inductive FrameKind where
  | ifF | loopF | callF
deriving DecidableEq, Repr

/-- A running command: its identity in the model, its numbers (R274), its 64 bytes, the Beat of its admission, its
time limit in µs, the counters of its extension at admission (R280), and what its engine holds. -/
structure Cmd where
  uid : Nat
  seq : W32
  sub : Nat
  iter : Nat
  body : W512
  start : W64
  limit : Nat
  snap : List W64 := []
  /-- WAIT: the condition has held at some instant since admission (R269). -/
  met : Bool := false
  /-- COPY: the numbers of the pieces performed, and the bytes they wrote (R266); messages to a peer that ask for an
  acknowledgement and have none (R301). -/
  pieces : List Nat := []
  written : Nat := 0
  acks : Nat := 0
  /-- COPY: a piece was poison (R85). -/
  poisoned : Bool := false
  /-- STRIKE: the target Beat (R350). -/
  target : W64 := 0
deriving DecidableEq, Repr

/-- An open frame (R272): the command that opened it, the loop's iteration, and where a LOOP repeats or a CALL
returns. The innermost frame stands first in a ring's list. -/
structure Frame where
  kind : FrameKind
  cmd : Cmd
  iter : Nat
  pos : Pos
deriving DecidableEq, Repr

/-- A running IF, ELSE or LOOP passes over commands (R272, R273): its identity, whether it ends before the END rather
than past it, whether an ELSE ends the skip, the depth of nested frames, and the commands a LOOP on the ring has passed. -/
structure Skip where
  uid : Nat
  before : Bool := false
  wantElse : Bool
  loop : Bool
  depth : Nat := 0
  passed : Nat := 0
deriving DecidableEq, Repr

/-- A completion entry due (R278): its 32 bytes, its extension, whether an interrupt follows, and the sequence
number. -/
structure Cqe where
  entry : W256
  ext : Option W512
  irq : Bool
deriving DecidableEq, Repr

/-- A ring beyond its registers. (DESIGN CHOICE, log 5.) -/
structure Ring where
  state : RingState := .disabled
  pos : Pos := {}
  frames : List Frame := []
  skip : Option Skip := none
  running : List Cmd := []
  /-- The running command whose completion later commands wait for (Table 8.3). -/
  gate : Option Nat := none
  /-- Entries that wait for room in the completion queue. -/
  waitCq : List Cqe := []
  /-- The COMPLETION_UNDELIVERABLE entry is still to be written (R285). -/
  marker : Bool := false
  /-- The fault of R284 that put entries in the shadow ring, and the sequence number and
  count of those kept since the ring halted. -/
  fault : Nat := 0
  lastKept : W32 := 0
  kept : Nat := 0
  /-- Sequence numbers whose completion has been committed, newest first (R281). -/
  done : List W32 := []
  /-- Named commands that an abort of MODE 0 reached before their admission, and stretches of commands that an abort of
  MODE 1 has discarded beyond commands it does not cover: from a sequence number on to another (R282). -/
  doomed : List W32 := []
  cuts : List (W32 × W32) := []
  /-- The Beat of the last admission or completion (R288). -/
  last : W64 := 0
deriving DecidableEq, Repr

/-- A DISPATCH that has passed its checks (R172 to R190), under its command's identity. -/
structure Disp where
  live : Bool := false
  ring : Nat := 0
  seq : W32 := 0
  sub : Nat := 0
  set : List Nat := []
  /-- The cores that have begun their part. -/
  started : List Nat := []
  det : Bool := false
  restartable : Bool := false
  entry : Nat := 0
  codeBytes : Nat := 0
  /-- Address of the kernel image, and whether Assay is hashing it (R375). -/
  image : W64 := 0
  verifying : Bool := false
  kv : Tab KShape := []
  /-- The deciding trap (R189): cause and core id. -/
  trap : Option (Nat × Nat) := none
  /-- The core id of the first core fault for which R183 step 4 ended the dispatch. -/
  fault : Option Nat := none
  /-- Sticky conditions and counts of cores that have ended their part. -/
  flags : Nat := 0
  nonfinite : Nat := 0
  flushed : Nat := 0
deriving DecidableEq, Repr

/-- What the chain runner does with a descriptor (R286). -/
inductive ChainWork where
  | fetch | copy | fill | poll | wipe | done (status : Nat)
deriving DecidableEq, Repr

/-- A running chain: the descriptor's address, its 64 bytes, when it began, and its work. -/
structure Chain where
  addr : Nat
  desc : W512
  start : W64
  work : ChainWork
deriving DecidableEq, Repr

/-- A trace record waiting at its die (R360, R362): the die, its type, its source, EVENT_BEAT once the die's copy of the
Beat can give it (R344), and bytes 22 to 31. -/
structure TraceRec where
  die : Nat
  type : Nat
  source : Nat
  beat : Option W64
  body : Nat
deriving DecidableEq, Repr

/-- A trace stream beyond its registers. -/
structure Stream where
  buf : List TraceRec := []
  /-- The Beat of the last acceptance, and of the last COUNTER record. -/
  lastAcc : Option W64 := none
  lastSample : W64 := 0
deriving DecidableEq, Repr

end Sys2Proof.Machine
end

