-- ==== Sys2Proof/Machine/RunTypes.lean ====
section
/-! DEFINITION. What the runner links, the reduction records, the collective engine and the barriers hold beyond their
registers (R289 to R331). -/

namespace Sys2Proof.Machine

/-- A message in a receive buffer of a link that cannot be taken yet: the Beat of its arrival, and what the companion
answers for it (R88, R306, R307). -/
structure RxMsg where
  beat : W64
  msg : RunMsg
  ext : Ext
deriving DecidableEq, Repr

/-- A runner link (R290 to R292, R295, R298): messages waiting for credits, messages in unacknowledged frames with
their frame numbers, the frame numbers of both directions, the failures of one frame and a NAK due, the Beat at which
ACK last advanced, the receive units returned so far per virtual channel, and the failed seal trailers (R383).
(DESIGN CHOICE, log 5.) -/
structure Link where
  waiting : List RunMsg := []
  unacked : List (Nat × RunMsg) := []
  txSeq : Nat := 0
  rxSeq : Nat := 0
  failures : Nat := 0
  nakDue : Bool := false
  lastAck : W64 := 0
  training : Bool := false
  returned : Tab Nat := []
  /-- Units of the far end's buffer of each virtual channel, the units sent and not yet returned by 2 · VC + dateline
  class, oldest first, and each channel's turn in the round robin (R295). -/
  total : Tab Nat := []
  owed : List (Nat × Nat) := []
  turn : Tab Nat := []
  /-- Messages in the receive buffers that wait, in order of arrival. -/
  rx : List RxMsg := []
  /-- Failed seal trailers within the last second: their Beats (R383). -/
  sealFails : List W64 := []
  /-- FRAME_COUNT of the two directions since the link key was installed (R383). -/
  sealTx : W64 := 0
  sealRx : W64 := 0
deriving DecidableEq, Repr

/-! ## Reductions at the owner -/

/-- What names a unit of contributions (R308): the tile of a core, or the KEY of a RACC_END with its sender. -/
inductive UnitKey where
  | tile (src counter index : Nat)
  | rank (key src : Nat)
deriving DecidableEq, Repr

/-- States of a reduction record (Table 9.9); `absent` is a RED_ID that has never been used. -/
inductive RecState where
  | absent | pending | opened | closing | closed
deriving DecidableEq, Repr

/-- A reduction record under its RED_ID (R307 to R312): its REDUCE_OPEN command, its shard, UNITS, DEADLINE, flags,
LAYER_TAG and norm record; the counts of R308; the units that have been completed, those among them not yet added
under DET, and the next KEY of RANKED; and the messages held (contributions of incomplete units; every message of a
PENDING record). -/
structure Rec where
  state : RecState := .absent
  uid : Nat := 0
  die : Nat := 0
  base : Nat := 0
  elems : Nat := 0
  units : Nat := 0
  deadline : Nat := 0
  layer : Nat := 0
  norm : Nat := 0
  det : Bool := false
  staged : Bool := false
  mean : Bool := false
  norms : Bool := false
  ranked : Bool := false
  received : Nat := 0
  keys : List UnitKey := []
  ready : List UnitKey := []
  nextKey : Nat := 0
  held : List RunMsg := []
  dups : Nat := 0
  nonfinite : Nat := 0
  excluded : Nat := 0
  tainted : Bool := false
  poisoned : Bool := false
deriving DecidableEq, Repr

/-! ## The collective engine -/

/-- A collective descriptor (Table 9.5), and the bytes it was read from. -/
structure CollDesc where
  op : Nat
  flags : Nat
  axis : Nat
  wfmt : Nat
  layer : Nat
  red : Nat
  deadline : Nat
  count : Nat
  src : Nat
  dst : Nat
  resid : Nat
  normAddr : Nat
  units : Nat
  rank : Nat
  comp : Nat
  kshift : Nat
  headroom : Nat
  ssrc : Nat
  sdst : Nat
deriving DecidableEq, Repr

/-- A running COLLECTIVE under its command's identity (R303 to R318): the descriptor; the bytes of its destination
that have been written; the residual to write at acceptance; the status and EXCLUDED count its sends have reached;
raised blocks by chunk, in this hop and in all; whether its gather has begun; the ACK_REQ messages outstanding; and
poison or a refusal met while it ran. -/
structure Coll where
  desc : CollDesc
  wrote : Nat := 0
  resid : List Byte := []
  late : Bool := false
  unsent : Nat := 0
  hopRaised : Tab Nat := []
  raised : Tab Nat := []
  acks : Nat := 0
  poisoned : Bool := false
  nonfinite : Nat := 0
deriving DecidableEq, Repr

/-- A multicast write kept for an ALL_GATHER that has not been admitted yet: source, address and bytes. -/
structure EarlyCast where
  src : Nat
  addr : Nat
  bytes : Nat
deriving DecidableEq, Repr

/-! ## Recording -/

/-- A log record in a port's buffer (R363, R365): the port (a link, 16 the Sprue, 17 none), KIND, FLAGS, the arrival and
the body. -/
structure LogRec where
  port : Nat
  kind : Nat
  flags : Nat
  beat : W64
  body : List Byte
deriving DecidableEq, Repr

/-- An open packet group of a link and virtual channel (R364): the arrivals of its first and last message, its messages
and data bytes, and the bytes its digest covers. -/
structure Group where
  first : W64 := 0
  last : W64 := 0
  count : Nat := 0
  bytes : Nat := 0
  content : List Byte := []
deriving DecidableEq, Repr

/-! ## Fabric barriers -/

/-- An open fabric barrier under its ID (R306, R331): the participants here by command identity, the AXES first seen,
whether two arrivals disagree, the neighbours whose arrivals are in, whether the own arrival is held back by the step
gate, whether the arrival of this subtree has been sent, and the OR of the VETOED bits. -/
structure Barrier where
  own : List Nat := []
  axes : Nat := 0
  clash : Bool := false
  arrived : List Nat := []
  held : Bool := false
  sent : Bool := false
  veto : Bool := false
deriving DecidableEq, Repr

end Sys2Proof.Machine
end

