-- ==== Sys2Proof/Machine/SealTypes.lean ====
section
/-! DEFINITION. A sealed job's manifest (Table 12.4) and the wipes (R391 to R393). -/

namespace Sys2Proof.Machine

/-- An admitted image (Table 12.4). -/
structure Image where
  addr : Nat
  bytes : Nat
  digest : W256
deriving DecidableEq, Repr

/-- A seal manifest in force: job tag, the lowest and highest coordinate of the set per axis, job rings, sealed
companion-window ranges as offset and bytes, images, and its SHA-256. -/
structure Manifest where
  job : Nat
  set : List (Nat × Nat)
  rings : W64
  ranges : List (Nat × Nat)
  images : List Image
  digest : W256
deriving DecidableEq, Repr

/-- The debug port (R395 to R397): the challenge drawn, failed unlocks, the unlocked scope, and the cores it holds. -/
structure Debug where
  challenge : Option (List Byte) := none
  fails : Nat := 0
  unlocked : Bool := false
  scope : W32 := 0
  /-- The scope to unlock when the wipe of an accepted unlock ends (R396). -/
  granted : Option W32 := none
  /-- Cores the port has halted, and those among them that may issue one instruction (Table 12.12). -/
  halted : List Nat := []
  stepping : List Nat := []
deriving DecidableEq, Repr

/-- What started a wipe (Table 12.10, R374, R376, R88): a CRU_WIPE write, a chain's WIPE descriptor, seal entry with
the manifest to install, seal exit, or a full wipe for a device reset, a life-cycle transition or a debug unlock. -/
inductive Wipe where
  | cru
  | sealEntry (m : Manifest)
  | sealExit
  | full
deriving DecidableEq, Repr

end Sys2Proof.Machine
end

