-- ==== Sys2Proof/Machine/AssayTypes.lean ====
section
/-! DEFINITION. What Assay holds: its one-time-programmable storage, the keys of Table 12.8, and an operation in
progress (R385, R399, R410, R416). -/

namespace Sys2Proof.Machine

/-- A public key, or its digest. -/
abbrev W384 := BitVec 384

/-- An owner slot: its key once its COMMIT bit is set, and REVOKED (Table 13.2). -/
structure Owner where
  key : Option W256 := none
  revoked : Bool := false
deriving DecidableEq, Repr

/-- Assay storage of one control die (Table 13.2): a field without its COMMIT bit is absent. Of a life-cycle bit it holds
how many of its 8 cells are programmed, and of MIN_SVN how many of its 64 × 8. (DESIGN CHOICE, log 4.) -/
structure Storage where
  serial : Option (BitVec 128) := none
  rootKey : Option W256 := none
  debugDigest : Option W256 := none
  testCells : Nat := 0
  provCells : Nat := 0
  retiredCells : Nat := 0
  seed : Option W384 := none
  owners : List Owner := List.replicate 8 {}
  svnCells : Nat := 0
deriving DecidableEq, Repr

/-- A bit stored as 8 cells is set when a majority of them is (R399). -/
def majority (cells : Nat) : Bool := 4 < cells

/-- MIN_SVN: its cells are programmed in increasing order, all 8 copies of one before the next, and each counts once a
majority of its copies is set (R399). -/
def Storage.minSvn (a : Storage) : Nat := (a.svnCells + 3) / 8

/-- The key registers of Table 12.8: the firmware slot of the base dies, their job slot with its key of this reset and
that of a sealed job (R382), the transport keys, and of a sealed job the master secret, the Sprue transfer key with its salt, the exit key, the fingerprint, and per link the key and
salt it sends with and those it receives with. -/
structure Keys where
  hbmFw : List Byte := []
  hbmOwn : List Byte := []
  hbmJob : List Byte := []
  transport : List Byte := []
  jms : List Byte := []
  sprue : List Byte := []
  exit : List Byte := []
  fpr : List Byte := []
  links : Tab (List Byte × List Byte) := []
deriving DecidableEq, Repr

/-- An operation in progress (R416): its opcode, the result and output it will end with, what a SEAL_ENTER still needs
(the offer's nonce, the ciphertext's digest and JMS), and whether a life-cycle transition ends. -/
structure AsyOp where
  code : Nat
  result : Nat
  out : List Byte
  entering : Option (List Byte × List Byte × List Byte) := none
  lc : Bool := false
deriving DecidableEq, Repr

/-- Assay: both copies of its storage; the challenge of the last CHALLENGE; the seed of the offer key pair and the
nonce of its Hallmark; the operation in progress; the Beat at which LC_PENDING was set; a transition that holds the
cores and the Escapement (R401); the bytes of ASY_OUT; bytes 0 to 127 of the admitted firmware image; RESET_NONCE; the
digest of the Riser record loaded at boot; whether the entropy source is good; and the keys. -/
structure Assay where
  storageA : Storage := {}
  storageB : Storage := {}
  challenge : Option (List Byte) := none
  offer : Option W512 := none
  offerNonce : List Byte := []
  op : Option AsyOp := none
  lcSince : W64 := 0
  lcHold : Bool := false
  out : List Byte := []
  fwHead : List Byte := []
  resetNonce : List Byte := []
  riserDigest : List Byte := []
  entropyOk : Bool := true
  keys : Keys := {}
deriving DecidableEq, Repr

end Sys2Proof.Machine
end

