-- ==== Sys2Proof/Machine/BeatTypes.lean ====
section
/-! DEFINITION. What the Beat unit, the mailbox and the translation firmware hold beyond their registers (R245, R341 to
R359, R366). -/

namespace Sys2Proof.Machine

/-- A 128-bit mailbox value. -/
abbrev W128 := BitVec 128

/-- A translation request in progress (R245): the command, VA and PA words as written, and whether the host made it. -/
structure XlatReq where
  cmd : W32
  va : W32
  pa : W32
  host : Bool
deriving DecidableEq, Repr

/-- Synchronisation (R346 to R348): θ of the last exchange in 1/16 Beat, the trim in parts per
billion and the billionths of a count it has gathered, exchanges in a row within 2 Beats, the Beat of the last completed
exchange and of the last request sent, whether its absence has been noted, the number of the next exchange and the
outstanding one with its T1. The strike register (R351). The armed latch target and the latch bank in
the layout of Table 11.5 (R359). -/
structure BeatUnit where
  theta : W32 := 0
  trim : W32 := 0
  slew : Int := 0
  good : Nat := 0
  lastDone : W64 := 0
  lastSent : W64 := 0
  lost : Bool := false
  exchange : W16 := 0
  waiting : Option (W16 × W64) := none
  strike : Option W64 := none
  latch : Option W64 := none
  bank : Tab W128 := []
deriving DecidableEq, Repr

/-- Replay (R366): the next record of the log in 32-byte units, the place in the
side area of the next group and how many of its messages have been injected, and commits of
STRIKEs that a STRIKE record has still to match (ring, sequence number, target), and whether a replay has ended
without a compute reset since. -/
structure Replay where
  next : Nat := 0
  side : Nat := 0
  inGroup : Nat := 0
  strikes : List (Nat × W32 × W64) := []
  stale : Bool := false
deriving DecidableEq, Repr

end Sys2Proof.Machine
end

