-- ==== Sys2Proof/Machine/BootTypes.lean ====
section
/-! DEFINITION. What bring-up, the package's pins and the management interface hold (R459 to R490). -/

namespace Sys2Proof.Machine

/-- Bring-up and the pins. FW_START of this bring-up has ended; the boot report's FAIL_STATE, CODE, CTRL, NEW_RETIRED,
EXCLUDED and DETAIL; failures of FW_VERIFY in this bring-up and the Beat at which FW_WAIT began; the descriptor's copy
(Table 15.3); pages that MEM_TEST has retired; the phase of Sprue training (0 none, then Table 15.2), its attempts that
have failed, the Beat at which the attempt began and the failed lanes of its map; rails and reference within their limits; the level of RESET_N;
FAULT_N, THERMTRIP_N and BMI_ALERT_N driven low; and the losses of the reference and of a rail. (DESIGN CHOICE,
log 4.) -/
structure Boot where
  fwStarted : Bool := false
  failState : Nat := 0
  code : Nat := 0
  ctrl : Nat := 0
  newRetired : Nat := 0
  excluded : W32 := 0
  detail : W64 := 0
  tries : Nat := 0
  waitSince : W64 := 0
  desc : W512 := 0
  sprPhase : Nat := 0
  sprTries : Nat := 0
  sprSince : W64 := 0
  sprLanes : List Nat := []
  rails : Bool := true
  refclk : Bool := true
  resetN : Bool := false
  faultN : Bool := false
  thermtripN : Bool := false
  alertN : Bool := false
  refLost : Bool := false
  railFault : Bool := false
deriving DecidableEq, Repr

end Sys2Proof.Machine
end

