-- ==== Sys2Proof/Machine/CrucibleTypes.lean ====
section
/-! DEFINITION. What the Crucible, its cache window, its queues and the requests behind it hold (R41 to R88, R232 to
R237, R491 to R493). -/

namespace Sys2Proof.Machine

/-- A message the device sends over the Sprue (Table 7.2): opcode, tag, status, state, address, mask and data. -/
structure SprMsg where
  opc : Nat
  tag : Nat := 0
  status : Nat := 0
  st : Coherence := .i
  addr : Nat := 0
  mask : Option W64 := none
  data : Option W512 := none
  /-- The message is a sealed message (R384). -/
  trailer : Bool := false
deriving DecidableEq, Repr

/-- One line of the cache window (R54 to R58): its way, its 128 bytes, its poisoned 16-byte words, whether an HBM
line is dirty, and the states of the two sectors of a companion line. -/
structure WLine where
  valid : Bool := false
  way : Nat := 0
  data : W1024 := 0
  poison : BitVec 8 := 0
  dirty : Bool := false
  sec0 : Coherence := .i
  sec1 : Coherence := .i
deriving DecidableEq, Repr

/-- An outstanding fill of an HBM line (R56): the line, and the cores held for it in arrival order. -/
structure Miss where
  line : Nat
  waiters : List Nat
deriving DecidableEq, Repr

/-- A device request outstanding at the companion under its tag (R232, R233). -/
structure SprReq where
  opc : Nat
  addr : Nat
  waiters : List Nat
  snooped : Bool
  sentAt : W64
  dead : Bool
deriving DecidableEq, Repr

/-- A request that waits for a free tag (R229): its message, whose tag is not chosen yet, and the cores that wait for
its answer. -/
structure SprWait where
  msg : SprMsg
  waiters : List Nat
deriving DecidableEq, Repr

/-- A companion sector that has come without a place in the window (Table 7.5, R232): its data, whether it is poison,
and the cores whose accesses it still serves. -/
structure Pass where
  sector : Nat
  data : W512
  poison : Bool
  cores : List Nat
deriving DecidableEq, Repr

/-- A snoop of the companion that the base die waits for (R236, R237). -/
structure ApSnoop where
  line : Nat
  inv : Bool
  waiters : List Nat
  sentAt : W64
deriving DecidableEq, Repr

/-- A message of the companion (Table 7.2): opcode, tag, address, mask and data. -/
structure SprIn where
  opc : Nat
  tag : Nat
  addr : Nat
  mask : W64 := 0
  data : W512 := 0
  /-- The data item carries STATUS 3 POISON (R228). -/
  poison : Bool := false
deriving DecidableEq, Repr

/-- An access that the Crucible holds during a wipe or a partition change, or that waits for a snoop of its aperture
line (R52, R88, R236): a core's, a request of the companion, a post, a read of a pop port, a ring's reading of its tail
word, a write of the step word, or a REG_RD behind writes of the companion that are held (R230). -/
inductive Held where
  | core (c : Nat)
  | sprue (q : SprIn)
  | post (q source : Nat) (sw : Bool) (type prio payload : Nat)
  | port (rq : Requester) (tag q : Nat)
  | tail (r : Nat)
  | stepWord
  | regRd (kernel : Bool) (tag off : Nat)
deriving DecidableEq, Repr

/-- A notice queue beyond its registers (R66 to R73, R492): the ordinary entries in order of acceptance, the pending
GAP notice, the latched depth and ring address, and the staleness timer. `slots` holds the ring slot of each entry,
`ring` what the queue has written into its slots, and `flushed` the FLUSHED entry of a pop in progress. -/
structure NQueue where
  entries : List W256 := []
  gap : Option W256 := none
  depth : Nat := 0
  base : Nat := 0
  timer : W64 := 0
  staleFired : Bool := false
  slots : List Nat := []
  ring : Tab W256 := []
  flushed : Option W256 := none
deriving DecidableEq, Repr

/-- A reservation or an entry of a stage queue: first slot, slots, and the published length. -/
structure SqEntry where
  first : Nat
  count : Nat
  len : Option W64
deriving DecidableEq, Repr

/-- A stage queue beyond its registers (R74 to R79): the slots handed out so far, credits taken, reservations in
order, visible entries, and popped entries not yet released. -/
structure SQueue where
  next : Nat := 0
  used : Nat := 0
  reserved : List SqEntry := []
  visible : List SqEntry := []
  popped : List SqEntry := []
  /-- The partner of a remote queue has been lost (R78). -/
  lost : Bool := false
  /-- At a remote consumer: the slot of the next entry to show, and entries whose publishes have come before it (R76). -/
  expect : Nat := 0
  early : List SqEntry := []
deriving DecidableEq, Repr

/-- A work counter beyond its registers (R178, R354): the re-issue list and the base generation. -/
structure WCounter where
  reissue : List W32 := []
  baseGen : W16 := 0
deriving DecidableEq, Repr

end Sys2Proof.Machine
end

