-- ==== Sys2Proof/Machine/RglTypes.lean ====
section
/-! DEFINITION. What the Regulator holds beyond its registers (R423 to R447). -/

namespace Sys2Proof.Machine

/-- An entry of the Riser record (Table 14.3). -/
structure RecEntry where
  kind : Nat
  fused : Bool
  die : Nat
  index : Nat
  detail : Nat
deriving DecidableEq, Repr

/-- A pending repair request (R442): its id, kind, die, index within the die and estimate in ms; and for a Riser that was
advised, the KIND of its record entry (R441). -/
structure RepairReq where
  id : Nat
  kind : Nat
  die : Nat
  index : Nat
  est : Nat
  riser : Nat := 0
deriving DecidableEq, Repr

/-- A granted window: the request, the duration in ms, and once it has begun the Beat at which it expires. -/
structure RepairWindow where
  req : RepairReq
  ms : Nat
  ends : Option W64
deriving DecidableEq, Repr

/-- What the Regulator last measured of a die (Tables 14.7 and 14.8): rate in M steps/s, supply in mV, junction in 1/16 °C,
current in A, words corrected in the last second, delay margin in ps, free fuse entries and the wear index.
(DESIGN CHOICE, log 6.) -/
structure DieTele where
  rate : Nat := 0
  supply : Nat := 0
  junction : Nat := 0
  current : Nat := 0
  corrected : Nat := 0
  margin : Nat := 0
  fuses : Nat := 64
  wear : Nat := 0
deriving DecidableEq, Repr

/-- The Regulator: the Riser record and the Beat from which its next write is due; requests, grants in order of
arrival, the active window first when it has begun; the digest of the policy blob as delivered; measurements by die and
the rate of each die's last RATE notice; the Beats since which a compute die's cores have all been idle; dies without
power and failed dies; pages waiting to be retired with the Beat of their request; the Beat of each core id's last fault; slices
with the bank that is being copied to its spare; and the Beat of the last decision. (DESIGN CHOICE, log 6.) -/
structure Regulator where
  entries : List RecEntry := []
  recordDue : W64 := 0
  reqs : List RepairReq := []
  nextId : Nat := 1
  grants : List RepairWindow := []
  digest : W256 := 0
  tele : Tab DieTele := []
  lastRate : Tab Nat := []
  idleSince : Tab (Option W64) := []
  dark : List Nat := []
  failed : List Nat := []
  pagesDue : List (Nat × W64) := []
  coreFaults : Tab (Option W64) := []
  copying : List (Nat × Nat) := []
  decided : W64 := 0
deriving DecidableEq, Repr

end Sys2Proof.Machine
end

