-- ==== Sys2Proof/Machine/State.lean ====
section
/-! DEFINITION. The whole state of the part, its value after reset, and the reasons a step can stop. -/

namespace Sys2Proof.Machine

/-- The cache window (R54 to R57, R491): its lines by device line number, the pseudo-LRU tree of each set (set · 16 +
slice), the outstanding fills, and the lines a flush or an invalidate still has to handle. (DESIGN CHOICE, log 5.) -/
structure Window where
  lines : Tab WLine := []
  plru : Tab (BitVec 16) := []
  misses : List Miss := []
  flushing : List Nat := []
  inval : Bool := false
  /-- Sectors read without a place in the window (R232). -/
  pass : List Pass := []
deriving DecidableEq, Repr

/-- The Sprue's transport and coherence state (R222 to R240). (DESIGN CHOICE, log 5.) -/
structure Sprue where
  reqs : Tab (Option SprReq) := []
  nextTag : Nat := 0
  dir : Tab Coherence := []
  snoops : List ApSnoop := []
  inFlight : W256 := 0
  /-- Messages put into frames, in order; those that wait for slot credits or for a retrain, in order; and the frames
  that the sender keeps until they are acknowledged, oldest first (R225, R229). -/
  out : List SprMsg := []
  queued : List SprMsg := []
  unacked : List SprMsg := []
  /-- Requests that wait for a free tag (R229). -/
  backlog : List SprWait := []
  /-- Frames (R224, R225): numbers sent, acknowledged and received, slot credits held by class, failures of one frame
  in a row, a NAK due, and the Beat at which ACK last advanced. -/
  txSeq : Nat := 0
  acked : Nat := 0
  rxSeq : Nat := 0
  credits : Tab Nat := []
  failures : Nat := 0
  nakDue : Bool := false
  lastAck : W64 := 0
  /-- Sealed messages sent and accepted since the key was installed, by class (R384). -/
  sealOut : Tab Nat := []
  sealIn : Tab Nat := []
deriving DecidableEq, Repr

/-- The state of the part. -/
structure State where
  /-- Commands waiting, first in, first out. -/
  pending : List Instr := []
  /-- The register space (Table 7.14): written values by offset; an unlisted register holds its reset value. -/
  regs : Tab W32 := []
  /-- Posted writes (type RWP) that have not taken effect (R252): offset and value. -/
  posted : List (Nat × W32) := []
  /-- What the last register or port read answered (the model's own observation; DESIGN CHOICE, log 13). -/
  rdata : W256 := 0
  /-- Denial recording is armed (R254). -/
  denyArmed : Bool := true
  /-- Registers whose stored parity no longer matches (R253). -/
  parityBad : List Nat := []
  /-- No sweep since the last mismatch has found every register right (R451). -/
  parityDirty : Bool := false
  /-- Crucible scratch (sliced-view addresses) and HBM (device addresses); poisoned 16-byte words; retired pages. -/
  mem : List Host.Cell := []
  poison : Tab Bool := []
  /-- Stored words whose data and check bits disagree and that no checker has met yet (R83, R84), by storage key / 16;
  the window's copy of a word has a key of its own. -/
  errs : Tab WordState := []
  retired : List Nat := []
  /-- The Beat of each unit's last scrub access: slice i, base die 16 + k (R86). -/
  scrubbed : Tab W64 := []
  /-- Leaf translation entries by virtual page (Table 7.8; DESIGN CHOICE, log 81). -/
  xlat : Tab W64 := []
  /-- The translation tables of levels 2 and 3 by the index bits they serve: i for level 2, 512 + i for level 3; their
  places in the table region in 4 KiB, 0 for none (R244; DESIGN CHOICE, log 81). -/
  tables : Tab Nat := []
  xlatReq : Option XlatReq := none
  /-- The first 2 MiB page of firmware's own 2 GiB region of HBM (R470; DEDUCED, log 93). -/
  fwBase : Nat := 0x3FC00
  win : Window := {}
  /-- Accesses held, in order of arrival (R52, R60, R88, R236). -/
  held : List Held := []
  cores : Tab Core := []
  /-- Running dispatches by command identity, and the next identity. -/
  disps : Tab Disp := []
  nextUid : Nat := 0
  rings : Tab Ring := []
  /-- The event slots (R268). -/
  events : Tab W64 := []
  /-- The Beat since which the conditions of a mutual wait have held, and whether anything has broken them in this
  Beat (R276). -/
  mwSince : Option W64 := none
  mwBroken : Bool := false
  chain : Option Chain := none
  /-- Trace streams (R360), and the dies whose Beat copy reloads, with the Beat at which each began (R344). -/
  streams : Tab Stream := []
  reloading : List (Nat × W64) := []
  nqs : Tab NQueue := []
  sqs : Tab SQueue := []
  wcs : Tab WCounter := []
  spr : Sprue := {}
  /-- Runner links; messages put into their frames in order, by link; messages to this device itself (R308). -/
  links : Tab Link := []
  runOut : List (Nat × RunMsg) := []
  localPath : List RunMsg := []
  /-- Reduction records by RED_ID, running collectives by command identity, multicast writes that an ALL_GATHER may
  still count, and open fabric barriers by ID. -/
  recs : Tab Rec := []
  colls : Tab Coll := []
  early : List EarlyCast := []
  bars : Tab Barrier := []
  /-- The step gate's arrival of this step has been sent (R331). -/
  gateSent : Bool := false
  /-- The last 16 floods and vetoes seen: (JOB, SERIAL) and (JOB, STEP) pairs, newest first (R299, R328). -/
  floodsSeen : List (Nat × Nat) := []
  vetoesSeen : List (Nat × Nat) := []
  /-- The data of the VETO for the next step that set PENDING_NEXT (R334). -/
  nextVeto : List Byte := []
  /-- The FLOOD value that frame headers carry, with its Beat (R299), and the device's own SERIAL (R452). -/
  floodOut : Option (Nat × Nat × W64) := none
  floodSerial : BitVec 8 := 0
  /-- The next RSEQ of the record log, and the open packet groups by 8 · link + VC (R363, R364). -/
  rrSeq : W32 := 0
  rrGroups : Tab Group := []
  /-- Log records in the port buffers ahead of the writer, oldest first, and the records lost at each port (R365). -/
  rrQueue : List LogRec := []
  rrLost : Tab Nat := []
  /-- The Beat at which QUIET was set (R453). -/
  quietSince : W64 := 0
  /-- The manifest in force (R372), the addresses of verified images (R375), and the wipe in progress. -/
  manifest : Option Manifest := none
  verified : List Nat := []
  wiping : Option Wipe := none
  dbg : Debug := {}
  assay : Assay := {}
  rgl : Regulator := {}
  boot : Boot := {}
  bt : BeatUnit := {}
  replay : Replay := {}
  /-- The master Beat, and what a die's copy shows beyond it where it differs (R341). -/
  beat : W64 := 0
  drift : Tab W64 := []
  /-- The counters of Table 11.4 by selector (R355). -/
  ctr : Tab W64 := []
  /-- The time counts at the last Beat that is a multiple of 2³⁰ (R387). -/
  ctrT : Tab W64 := []
  /-- Software writes into an enabled queue's ring that were dropped (R66). -/
  ringDrops : W64 := 0
  /-- The model's own counter of free values drawn. -/
  free : Nat := 0
deriving DecidableEq, Repr

/-- Why a step stops with a fault. No command of this part does: every refusal of the spec is a status, a trap, a
drop or a report, which is a next state. -/
inductive Fault where
  /-- Raised by no meaning. Safe. -/
  | none
deriving DecidableEq, Repr

/-- Why a step is refused. -/
inductive Refusal where
  /-- A command whose meaning is not written yet, by its mnemonic. Safe. -/
  | notModelled (mnemonic : String)
deriving DecidableEq, Repr

/-- The machine right after power-on, RESET_N low (R479): BOOT_STATE is POWER, every register of Table 7.14 holds its reset
value, memory lists nothing, no command waits, and storage is blank. The spec gives the registers' values; what it gives
no value for is zero, empty, false or idle (DESIGN CHOICE, logs 3 to 7). (DESIGN CHOICE, log 4; DESIGN CHOICE, log
5.) -/
def State.reset : State := {}

end Sys2Proof.Machine
end

