-- ==== Sys2Proof/Machine/Ops.lean ====
section
/-! DEFINITION. Named operations over the state: registers and their fields, counters, the Beat, free values. -/

namespace Sys2Proof.Machine

/-- Slots a message takes: its header, its mask, four of data, and a sealed message's trailer (R228, R384). -/
def SprMsg.slots (m : SprMsg) : Nat := 1 + b2n m.mask.isSome + 4 * b2n m.data.isSome + b2n m.trailer

namespace State

/-- The stored value of a register (before any computed view of `regRead`). -/
def reg (s : State) (off : Nat) : W32 := Tab.get (regReset off) s.regs off

/-- Stores a register's value. -/
def setReg (s : State) (off : Nat) (v : W32) : State := { s with regs := Tab.set (regReset off) s.regs off v }

/-- Bits [hi:lo] of a register. -/
def fld (s : State) (off hi lo : Nat) : Nat := bits (s.reg off).toNat hi lo

/-- Bit `i` of a register. -/
def flag (s : State) (off i : Nat) : Bool := bit (s.reg off).toNat i

/-- Replaces bits [hi:lo] of a register. -/
def setFld (s : State) (off hi lo x : Nat) : State :=
  s.setReg off (BitVec.ofNat 32 (putBits (s.reg off).toNat hi lo x))

/-- Sets bit `i` of a register. -/
def setFlag (s : State) (off i : Nat) : State := s.setReg off (s.reg off ||| (1#32 <<< i))

/-- Clears bit `i` of a register. -/
def clearFlag (s : State) (off i : Nat) : State := s.setReg off (s.reg off &&& ~~~(1#32 <<< i))

/-- Adds to a saturating 32-bit count. -/
def addSat (s : State) (off n : Nat) : State :=
  s.setReg off (BitVec.ofNat 32 (satAdd 32 (s.reg off).toNat n))

/-- Adds to a count of Table 11.4, modulo 2⁶⁴ (R355). -/
def count (s : State) (sel n : Nat) : State :=
  { s with ctr := Tab.modify 0 s.ctr sel (· + BitVec.ofNat 64 n) }

/-- One tile core. -/
def core (s : State) (c : Nat) : Core := Tab.get {} s.cores c
/-- Replaces one tile core. -/
def setCore (s : State) (c : Nat) (k : Core) : State := { s with cores := Tab.set {} s.cores c k }
/-- Changes one tile core. -/
def modCore (s : State) (c : Nat) (f : Core → Core) : State := s.setCore c (f (s.core c))

/-- One notice queue. -/
def nq (s : State) (q : Nat) : NQueue := Tab.get {} s.nqs q
/-- Changes one notice queue. -/
def modNq (s : State) (q : Nat) (f : NQueue → NQueue) : State := { s with nqs := Tab.modify {} s.nqs q f }

/-- One stage queue. -/
def sq (s : State) (q : Nat) : SQueue := Tab.get {} s.sqs q
/-- Changes one stage queue. -/
def modSq (s : State) (q : Nat) (f : SQueue → SQueue) : State := { s with sqs := Tab.modify {} s.sqs q f }

/-- One work counter. -/
def wc (s : State) (n : Nat) : WCounter := Tab.get {} s.wcs n
/-- Changes one work counter. -/
def modWc (s : State) (n : Nat) (f : WCounter → WCounter) : State := { s with wcs := Tab.modify {} s.wcs n f }

/-- A sealed job holds the device (GLB_STATE.SEALED). -/
def sealed (s : State) : Bool := s.flag Reg.glbState 12

/-- An address of the companion window lies in a sealed range of the manifest (Table 12.4). -/
def inSealedRange (s : State) (a : Nat) : Bool :=
  match s.manifest with
  | some m => m.ranges.any fun r => 0x100000000000 + r.1 ≤ a && a < 0x100000000000 + r.1 + r.2
  | none => false

/-- A device request to a companion-window offset, or a snoop of one, is a sealed message (R384). -/
def sealsOffset (s : State) (off : Nat) : Bool := s.sealed && s.inSealedRange (0x100000000000 + off)

/-- Draws the next free value (a value the spec leaves unspecified). (DESIGN CHOICE, log 8.) -/
def draw (s : State) : W64 × State := (Config.freeWord s.free, { s with free := s.free + 1 })

/-- The credit class of an opcode (Table 7.3): 0 REQ, 1 RSP, 2 SNP, 3 CTL. -/
def sprClass (opc : Nat) : Nat :=
  if opc < 0x20 then 0 else if opc < 0x30 then 2 else if opc < 0x40 then 1 else 3

/-- The Sprue carries traffic: it is up and no retrain holds it (R225, R227). -/
def sprCarries (s : State) : Bool := s.fld Reg.sprStatus 3 2 != 0 && !s.flag Reg.sprStatus 1

/-- Puts a message into a frame of its own, which the sender keeps until it is acknowledged (R225). The message takes
slot credits of its class (R229) and is counted in 64-byte units (Table 11.4). (DESIGN CHOICE, log 18; DESIGN
CHOICE, log 19; DESIGN CHOICE, log 73.) -/
def sprPut (m : SprMsg) (s : State) : State :=
  let s := s.count 0x180 ((16 * m.slots + 63) / 64)
  let s := if m.opc = 0x21 ∨ m.opc = 0x22 then s.count 0x184 1 else s
  let p := s.spr
  let idle := p.txSeq = p.acked
  { s with spr := { p with out := p.out ++ [m], unacked := p.unacked ++ [m], txSeq := (p.txSeq + 1) % 4096,
                           lastAck := if idle then s.beat else p.lastAck,
                           sealOut := if m.trailer then Tab.modify 0 p.sealOut (sprClass m.opc) (· + 1) else p.sealOut,
                           credits := Tab.modify 0 p.credits (sprClass m.opc) (· - m.slots) } }

/-- A message of this class and size can go into a frame now: the Sprue carries traffic, its class has the slot credits,
and the sender has room among the 512 frames it keeps (R225, R229). -/
def sprReady (s : State) (m : SprMsg) : Bool :=
  s.sprCarries && m.slots ≤ Tab.get 0 s.spr.credits (sprClass m.opc) && s.spr.unacked.length < 512

/-- Sends messages in order; one that must wait holds the later ones of its class (R230). -/
def sprDrainGo : List Nat → List SprMsg → State → State
  | _, [], s => s
  | late, m :: t, s =>
    if late.contains (sprClass m.opc) || !s.sprReady m then
      sprDrainGo (sprClass m.opc :: late) t { s with spr := { s.spr with queued := s.spr.queued ++ [m] } }
    else sprDrainGo late t (sprPut m s)

/-- Sends the waiting messages that can go. -/
def sprDrain (s : State) : State :=
  sprDrainGo [] s.spr.queued { s with spr := { s.spr with queued := [] } }

/-- Sends a message over the Sprue, behind the waiting ones of its class. In replay writes are discarded (R366). -/
def sprSend (s : State) (m : SprMsg) : State :=
  if s.flag Reg.beatStatus 2 = true ∧ (m.opc = 0x04 ∨ m.opc = 0x05 ∨ m.opc = 0x06) then s
  else sprDrain { s with spr := { s.spr with queued := s.spr.queued ++ [m] } }

end State

/-- A die's copy of the Beat (R341, Table 11.1). -/
def State.copyOf (s : State) (die : Nat) : W64 := s.beat + Tab.get 0 s.drift die

/-- The Beat copy of a die is reloading (R344). -/
def dieReloads (s : State) (die : Nat) : Bool := s.reloading.any fun p => p.1 == die

/-- The store die whose copy of the Beat stamps a notice queue's entries (Table 11.1). -/
def nqDie (q : Nat) : Nat := 32 + q % 16

/-- The Beat and its wrap epoch as a notice carries them (Table 2.3): low 48 bits and bits [63:48]. -/
def beatOf (b : W64) : Nat := b.toNat % 2 ^ 48
/-- The wrap epoch of a Beat. -/
def epochOf (b : W64) : Nat := b.toNat / 2 ^ 48

/-- A notice entry of Table 2.3. -/
def mkNotice (type prio source seq : Nat) (b : W64) (payload : Nat) : W256 :=
  BitVec.ofNat 256
    (type % 256 + (prio % 4) <<< 8 + (source % 2 ^ 16) <<< 16 + (seq % 2 ^ 32) <<< 32 + (beatOf b) <<< 64
      + (epochOf b) <<< 112 + (payload % 2 ^ 128) <<< 128)

/-- The priority of an entry (ATTR[1:0]). -/
def noticePrio (e : W256) : Nat := bits e.toNat 9 8
/-- The type of an entry. -/
def noticeType (e : W256) : Nat := bits e.toNat 7 0

/-- Raises interrupt vector `v` (R240): an INT is sent unless the vector is masked or in flight, and is otherwise kept
pending. -/
def raiseInt (v : Nat) (s : State) : State :=
  let i := v % 256 / 32
  let j := v % 32
  if s.flag (Reg.sprIntMask i) j = false ∧ bit s.spr.inFlight.toNat (v % 256) = false then
    let s := { s with spr := { s.spr with inFlight := s.spr.inFlight ||| (1#256 <<< (v % 256)) } }
    s.sprSend { opc := 0x41, addr := v % 256 }
  else s.setFlag (Reg.sprIntPending i) j

/-- Sets a bit of GLB_FAULT and sends its vector (Table 7.12). -/
def raiseFault (n : Nat) (s : State) : State :=
  let s := s.setFlag Reg.glbFault n
  if s.flag Reg.glbFaultCtl 8 then raiseInt (s.fld Reg.glbFaultCtl 7 0) s else s

/-! ## Trace streams -/

namespace State
/-- One trace stream. -/
def stream (s : State) (i : Nat) : Stream := Tab.get {} s.streams i
/-- Changes one trace stream. -/
def modStream (s : State) (i : Nat) (f : Stream → Stream) : State := { s with streams := Tab.modify {} s.streams i f }
end State

/-- Stream `i` carries a record of this type, and of this core for the types that choose by core (R360). -/
def streamTakes (s : State) (i type : Nat) (core : Option Nat) : Bool :=
  s.flag (Reg.trcCtl i) 0 && s.flag (Reg.trcSrc i) (24 + (type - 0x80)) &&
    (match core with
     | some c => s.fld (Reg.trcSrc i) 7 0 ≤ c && c ≤ s.fld (Reg.trcSrc i) 15 8
     | none => true)

/-- A trace record enters a stream's buffer at its die, or is dropped at a full one (R362). The stamp of a die whose copy
of the Beat reloads waits (R344). -/
def traceEnter (i die type source body : Nat) (s : State) : State :=
  if 16 ≤ ((s.stream i).buf.filter fun r => r.die == die).length then s.addSat (Reg.trcDrops i) 1
  else
    let r : TraceRec :=
      { die := die, type := type, source := source, beat := if dieReloads s die then none else some (s.copyOf die),
        body := body % 2 ^ 80 }
    s.modStream i fun k => { k with buf := k.buf ++ [r] }

/-- Enters a trace record in every stream that carries it (R360). `body` is bytes 22 to 31. -/
def traceEmit (type die source : Nat) (core : Option Nat) (body : Nat) (s : State) : State :=
  forEach (fun i s => if streamTakes s i type core then traceEnter i die type source body s else s) (upFrom 0 8) s

/-! ## Addresses -/

/-- The exclusive-or of the low `n` nibbles of a number. -/
def xorNibbles : Nat → Nat → Nat
  | 0, _ => 0
  | n + 1, v => Nat.xor (v % 16) (xorNibbles n (v / 16))

/-- The slice hash of R47, over bits [47:7] of an address. -/
def sliceHash (a : Nat) : Nat := xorNibbles 11 ((a % 2 ^ 48) / 128)

/-- The sliced-view address of a slice offset. -/
def slicedAddr (slice off : Nat) : Nat := 0x018000000000 + slice <<< 29 + off

/-- The sliced-view address of a hashed-view offset (R45). -/
def hashedKey (o : Nat) : Nat := slicedAddr (sliceHash o) ((o / 2048) * 128 + o % 128)

/-- The regions of Table 7.7, with the Crucible cut at the partition boundary (R49, R50, R51). -/
inductive Place where
  | scratch (key : Nat)
  | window
  | hbm (a : Nat)
  | regs (off : Nat)
  | companion (a : Nat)
  | hole
deriving DecidableEq, Repr

/-- The partition boundary B in bytes (R49). -/
def boundary (s : State) : Nat := s.fld Reg.cruPartition 4 0 * 2 ^ 28

/-- Where a device address lies (R241); under seal the companion window outside the sealed ranges is refused as R51
refuses the cache window (R379). -/
def place (s : State) (a : Nat) : Place :=
  if a < 2 ^ 39 then .hbm a
  else if 0x010000000000 ≤ a ∧ a < 0x010200000000 then
    let o := a - 0x010000000000
    if o < boundary s then .scratch (hashedKey o) else .window
  else if 0x018000000000 ≤ a ∧ a < 0x018200000000 then
    if (a - 0x018000000000) % 2 ^ 29 < boundary s / 16 then .scratch a else .window
  else if 0x020000000000 ≤ a ∧ a < 0x020010000000 then .regs (a - 0x020000000000)
  else if 0x100000000000 ≤ a ∧ a < 0x200000000000 then
    if s.sealed && !s.inSealedRange a then .window else .companion a
  else .hole

/-- The slice that serves an address: the one that holds it, or the home slice of its line (R45, R46, R54). -/
def homeSlice (s : State) (a : Nat) : Nat :=
  match place s a with
  | .scratch key => (key - 0x018000000000) / 2 ^ 29
  | _ => sliceHash a

/-- The Crucible holds every new access: a wipe or a partition change runs (R52, R88). (DEDUCED, log 62.) -/
def cruHolds (s : State) : Bool := s.fld Reg.cruStatus 2 1 != 0

/-- Keeps an access until what holds it ends, in order of arrival. (DESIGN CHOICE, log 67.) -/
def hold (h : Held) (s : State) : State := { s with held := s.held ++ [h] }

/-! ## Notice queues -/

/-- How a post ends (R67, R69, R215). -/
inductive PostResult where
  | accepted | dropped | refused
deriving DecidableEq, Repr

/-- A queue is enabled. -/
def nqEnabled (s : State) (q : Nat) : Bool := s.flag (Reg.nqCtl q) 0

/-- Ordinary entries the queue can hold: N − 1 (R66). -/
def nqRoom (s : State) (q : Nat) : Nat := 2 ^ (s.nq q).depth - 1

/-- The GAP notice is made or updated in the reserved slot, the ring's last. (DESIGN CHOICE, log 17.) -/
def NQueue.putGap (k : NQueue) (g : W256) : NQueue :=
  { k with gap := some g, ring := Tab.set 0 k.ring (2 ^ k.depth - 1) g }

/-- An accepted entry takes the lowest free slot of the ring. (DESIGN CHOICE, log 17.) -/
def NQueue.append (k : NQueue) (e : W256) : NQueue :=
  let slot := ((upFrom 0 (k.slots.length + 1)).find? fun i => !k.slots.contains i).getD 0
  { k with entries := k.entries ++ [e], slots := k.slots ++ [slot], ring := Tab.set 0 k.ring slot e }

/-- Part of the ring lies in the cache window's part of the Crucible (R51). -/
def nqInWindow (s : State) (q : Nat) : Bool :=
  let k := s.nq q
  place s k.base == .window || place s (k.base + 32 * 2 ^ k.depth - 1) == .window

/-- An operation of an enabled queue is refused, since its ring lies in that part (R51). -/
def nqRefuses (s : State) (q : Nat) : Bool := nqEnabled s q && nqInWindow s q

/-- A drop at a full queue (R69): the GAP notice is made or updated. -/
def nqDrop (q prio : Nat) (s : State) : State :=
  let s := ((s.setFlag (Reg.nqIntStatus q) 2).addSat (Reg.nqDrops q) 1).count (0x047 + 8 * (q % 16)) 1
  s.modNq q fun k =>
    match k.gap with
    | none =>
      let b := s.copyOf (nqDie q)
      let pay := 1 + prio <<< 32 + (beatOf b) <<< 64 + (epochOf b) <<< 112
      k.putGap (mkNotice 0x01 prio (0x700 + q % 16) (s.reg (Reg.nqPosted q)).toNat b pay)
    | some g =>
      let n := g.toNat
      let old := bits n 161 160
      let p := max old prio
      let n := putBits n 9 8 p
      let n := putBits n 159 128 (satAdd 32 (bits n 159 128) 1)
      let n := putBits n 161 160 p
      let n := putBits n 239 192 (beatOf (s.copyOf (nqDie q)))
      let n := putBits n 255 240 (epochOf (s.copyOf (nqDie q)))
      k.putGap (BitVec.ofNat 256 n)

/-- The level interrupt of R70, judged on the fill after an accepted post. -/
def nqLevel (q : Nat) (s : State) : State :=
  let lvl := s.fld (Reg.nqLevel q) 16 0
  if lvl ≠ 0 ∧ (s.nq q).entries.length = lvl ∧ s.flag (Reg.nqCtl q) 2 = true then
    raiseInt (s.fld (Reg.nqCtl q) 31 24) (s.setFlag (Reg.nqIntStatus q) 0)
  else s

/-- A post of TYPE, priority and payload to a queue by a source; `sw` marks a post from software (R67, R69, R73).
(DESIGN CHOICE, log 17.) -/
def nqPost (q source : Nat) (sw : Bool) (type prio payload : Nat) (s : State) : State × PostResult :=
  if sw = true ∧ (type < 0x10 ∨ 0x3F < type) then (s.setFlag (Reg.nqIntStatus q) 3, .refused)
  else if nqEnabled s q = false then (s, .dropped)
  else if nqInWindow s q then (s.setFlag Reg.cruErrStatus 3, .dropped)
  else if nqRoom s q ≤ (s.nq q).entries.length then (nqDrop q prio s, .dropped)
  else
    let seq := s.reg (Reg.nqPosted q)
    let e := mkNotice type prio source seq.toNat (s.copyOf (nqDie q)) payload
    let wasEmpty := (s.nq q).entries.isEmpty && (s.nq q).gap.isNone
    let s := (s.setReg (Reg.nqPosted q) (seq + 1)).count (0x046 + 8 * (q % 16)) 1
    let s := s.modNq q fun k =>
      { k.append e with timer := if wasEmpty then s.beat else k.timer,
                        staleFired := if wasEmpty then false else k.staleFired }
    (nqLevel q s, .accepted)

/-- The highest priority among entries. -/
def topPrio (l : List W256) : Nat := l.foldl (fun m e => max m (noticePrio e)) 0

/-- The EMPTY entry of a pop now (R493). -/
def emptyNotice (s : State) (q : Nat) : W256 :=
  mkNotice 0x00 0 (0x700 + q % 16) (s.reg (Reg.nqPosted q)).toNat (s.copyOf (nqDie q)) 0

/-- Index of the entry that a pop takes: the oldest of the highest priority (R68). -/
def NQueue.front (k : NQueue) : Option Nat := k.entries.findIdx? fun e => noticePrio e == topPrio k.entries

/-- A pop (R68, R72, R73): a FLUSHED entry for a pop in progress at a flush, else the GAP notice first, then the oldest
entry of the highest priority, else EMPTY. -/
def nqPop (q : Nat) (s : State) : W256 × State :=
  let k := s.nq q
  match k.flushed with
  | some e => (e, s.modNq q fun k => { k with flushed := none })
  | none =>
    if nqEnabled s q = false then (emptyNotice s q, s)
    else
      let restart (k : NQueue) : NQueue := { k with timer := s.beat, staleFired := false }
      match k.gap with
      | some g => (g, s.modNq q fun k => restart { k with gap := none })
      | none =>
        match k.front with
        | some i =>
          (k.entries.getD i 0, s.modNq q fun k => restart { k with entries := k.entries.eraseIdx i, slots := k.slots.eraseIdx i })
        | none => (emptyNotice s q, s.modNq q restart)

/-- A post whose outcome its poster does not see; the Crucible may hold it (R52, R88). -/
def postNotice (q source : Nat) (sw : Bool) (type prio payload : Nat) (s : State) : State :=
  if cruHolds s then hold (.post q source sw type prio payload) s else (nqPost q source sw type prio payload s).1

/-- A device error log of R458: to the queue RSR_CTL.LOG_QUEUE at priority 3, with the raising unit's SOURCE. -/
def errLog (type source payload : Nat) (s : State) : State :=
  postNotice (s.fld Reg.rsrCtl 11 6) source false type 3 payload s

/-- The die number of the control die that serves (Table 11.6, boot report CTRL). -/
def ctrlDie (s : State) : Nat := 60 + s.boot.ctrl % 2

/-- The control die that serves reads its own copy of Assay storage (R399). -/
def storage (s : State) : Storage := if s.boot.ctrl % 2 = 0 then s.assay.storageA else s.assay.storageB

/-- The device serial number (mailbox space 0x04); 0 until it has been fused. -/
def serialOf (s : State) : BitVec 128 := (storage s).serial.getD 0

/-- A BEAT error log of a die with the present BEAT_FAULT bits (Table 14.6). -/
def beatLog (die : Nat) (s : State) : State := errLog 0x46 0x900 (die + s.fld Reg.beatFault 4 0 <<< 8) s

/-- A Regulator notice of R458: to RGL_CTL.NOTICE_QUEUE with SOURCE 0x0200; one of priority 3 sends the vector when
RGL_CTL.IE is 1. -/
def rglNotice (type prio payload : Nat) (s : State) : State :=
  let s := postNotice (s.fld Reg.rglCtl 5 0) 0x200 false type prio payload s
  if prio = 3 ∧ s.flag Reg.rglCtl 8 = true then raiseInt (s.fld Reg.rglCtl 31 24) s else s

/-- A MEMORY error log of Table 14.6. -/
def memLog (kind source addr : Nat) (s : State) : State := errLog 0x41 source (kind + addr <<< 64) s

/-- A denial under R11 and R254: counted, flagged and logged; `isReg` denials are recorded while armed, and those of
Sprue requests counted in 0x187. -/
def deny (cls : Nat) (sprue write isReg : Bool) (off : Nat) (s : State) : State :=
  let s := s.addSat Reg.glbDenyCount 1
  let s := if sprue then s.count 0x187 1 else s
  let s := s.setFlag Reg.glbAccessStatus (if write then 1 else 0)
  let s :=
    if isReg = true ∧ s.denyArmed = true then
      { s.setReg Reg.glbDenyAddr (BitVec.ofNat 32 (off % 2 ^ 28 + (b2n write) <<< 29 + cls <<< 30)) with denyArmed := false }
    else s
  errLog 0x44 0x900 (off % 2 ^ 32 + cls <<< 32 + (b2n write) <<< 40) s

/-! ## Writes of registers -/

/-- A value is outside a field's range, or a unit would be enabled on a misaligned address (R251): dropped in whole. -/
def rangeDrop (s : State) : State := s.setFlag Reg.glbAccessStatus 5

/-- A write stores fresh parity (R253). (DEDUCED, log 148.) -/
def freshParity (off : Nat) (s : State) : State := { s with parityBad := s.parityBad.filter (· != off) }

/-- Stores the writable bits of a register, keeping the others (R12). -/
def storeReg (off : Nat) (v : W32) (s : State) : State :=
  match regAt off with
  | none => s
  | some d =>
    let m : W32 := BitVec.ofNat 32 (d.rw + d.rwp)
    (freshParity off s).setReg off ((s.reg off &&& ~~~m) ||| (v &&& m))

/-- A write is posted: its register keeps its value until the write takes effect (R252). -/
def postWrite (off : Nat) (v : W32) (s : State) : State := { s with posted := s.posted ++ [(off, v)] }

end Sys2Proof.Machine
end

