-- ==== Sys2Proof/Machine/Memory.lean ====
section
/-! DEFINITION. The device address map, the two views of the Crucible, translation, the cache window and the reads and
writes of memory (R41 to R60, R81, R82, R85, R169, R232 to R236, R241 to R244). -/

namespace Sys2Proof.Machine

/-- Why an access is not performed. -/
inductive MemErr where
  | window | unmapped | retired | poison | translation | regs | aperture
deriving DecidableEq, Repr

/-- Marks of an access (R55). -/
structure Marks where
  noalloc : Bool := false
  evict : Bool := false
deriving DecidableEq, Repr

/-! ## Stored bytes -/

/-- The start addresses of the `g`-byte units that `n` bytes from `a` meet. -/
def unitsOf (g a n : Nat) : List Nat :=
  if n = 0 then [] else (upFrom (a / g) ((a + n - 1) / g - a / g + 1)).map (· * g)

namespace State
/-- The stored byte under a key; a byte nothing has written reads 0. (DESIGN CHOICE, log 3.) -/
def byte (s : State) (k : Nat) : Byte := Tab.get 0 s.mem k
/-- Stores a byte. -/
def setByte (s : State) (k : Nat) (b : Byte) : State := { s with mem := Tab.set 0 s.mem k b }
/-- A stored 16-byte word is poisoned (R85). -/
def isPoison (s : State) (k : Nat) : Bool := Tab.get false s.poison (k / 16)
/-- What a checker will find of a stored word, by its key / 16 (R83). -/
def wordState (s : State) (w : Nat) : WordState := Tab.get .clean s.errs w
/-- Sets what a checker will find of a stored word. -/
def setWordState (s : State) (w : Nat) (e : WordState) : State := { s with errs := Tab.set .clean s.errs w e }
/-- Marks or clears the poison of a 16-byte word; its check bits are then fresh (R85). -/
def setPoison (s : State) (k : Nat) (b : Bool) : State :=
  { s with poison := Tab.set false s.poison (k / 16) b, errs := Tab.set .clean s.errs (k / 16) .clean }
/-- The window's line for a device address. -/
def wline (s : State) (a : Nat) : WLine := Tab.get {} s.win.lines (a / 128)
/-- Changes the window's line for a device address. -/
def modLine (s : State) (a : Nat) (f : WLine → WLine) : State :=
  { s with win := { s.win with lines := Tab.modify {} s.win.lines (a / 128) f } }
end State

/-- Stores consecutive bytes from a key on. -/
def storeBytes : Nat → List Byte → State → State
  | _, [], s => s
  | k, b :: t, s => storeBytes (k + 1) t (s.setByte k b)

/-- What an enabled notice queue has written into its ring at a scratch key (R66). (DESIGN CHOICE, log 17.) -/
def ringByte (s : State) (key : Nat) : Option Byte :=
  s.nqs.findSome? fun e =>
    if nqEnabled s e.1 && e.2.base ≤ key && key < e.2.base + 32 * 2 ^ e.2.depth then
      (Tab.find? e.2.ring ((key - e.2.base) / 32)).map fun w => w.extractLsb' (8 * ((key - e.2.base) % 32)) 8
    else none

/-- A byte of Crucible scratch: an enabled notice queue's slot, or what is stored. -/
def scratchByte (s : State) (k : Nat) : Byte := (ringByte s k).getD (s.byte k)

/-- Byte `i` of a line. -/
def WLine.byteAt (l : WLine) (i : Nat) : Byte := l.data.extractLsb' (8 * i) 8

/-- A line with byte `i` replaced. -/
def WLine.setByteAt (l : WLine) (i : Nat) (b : Byte) : WLine :=
  { l with data := BitVec.ofNat 1024 (putBits l.data.toNat (8 * i + 7) (8 * i) b.toNat) }

/-- The state of the companion sector that holds an address (R57). -/
def WLine.sector (l : WLine) (a : Nat) : Coherence := if a % 128 < 64 then l.sec0 else l.sec1

/-- Sets the state of the companion sector that holds an address. -/
def WLine.setSector (l : WLine) (a : Nat) (c : Coherence) : WLine :=
  if a % 128 < 64 then { l with sec0 := c } else { l with sec1 := c }

/-- Sector bytes 0 to 63 of an address's sector as a 512-bit item. -/
def WLine.sectorData (l : WLine) (a : Nat) : W512 := l.data.extractLsb' (if a % 128 < 64 then 0 else 512) 512

/-- A word of an address's sector is poisoned. -/
def WLine.sectorPoison (l : WLine) (a : Nat) : Bool := l.poison.extractLsb' (if a % 128 < 64 then 0 else 4) 4 != 0

/-- Replaces a sector's 64 bytes and says whether they are poison. -/
def WLine.putSector (l : WLine) (a : Nat) (d : W512) (poison : Bool) : WLine :=
  let lo := if a % 128 < 64 then 0 else 512
  let p : BitVec 8 := 0xF#8 <<< (if a % 128 < 64 then 0 else 4)
  { l with data := BitVec.ofNat 1024 (putBits l.data.toNat (lo + 511) lo d.toNat),
           poison := if poison then l.poison ||| p else l.poison &&& ~~~p }

/-- Sets or clears the poison of the 16-byte word of an address. -/
def WLine.setWord (l : WLine) (a : Nat) (p : Bool) : WLine :=
  let m : BitVec 8 := 1#8 <<< (a % 128 / 16)
  { l with poison := if p then l.poison ||| m else l.poison &&& ~~~m }

/-- The window holds the line of an HBM address, or the sector of a companion address. -/
def inWindow (s : State) (a : Nat) : Bool :=
  (s.wline a).valid && (decide (a < 2 ^ 39) || (s.wline a).sector a != .i)

/-- An address lies in the shared aperture while it is enabled (R234). -/
def inAperture (s : State) (a : Nat) : Bool :=
  s.flag Reg.sprApCtl 0 &&
    (let base := s.fld Reg.sprApBase 17 0 * 2 ^ 21
     base ≤ a && a < base + 2 ^ (21 + s.fld Reg.sprApCtl 4 1))

/-- The directory state of the aperture line of an address (R235). -/
def dirState (s : State) (a : Nat) : Coherence := Tab.get .i s.spr.dir (a / 64)

/-- Sets the directory state of an aperture line. -/
def setDir (a : Nat) (c : Coherence) (s : State) : State :=
  { s with spr := { s.spr with dir := Tab.set .i s.spr.dir (a / 64) c } }

/-- A byte as the device reads it: the window's copy where it holds one, else the stored byte, else the companion's. -/
def peek (s : State) (ext : Ext) (a : Nat) : Option Byte :=
  match place s a with
  | .scratch k => some (scratchByte s k)
  | .hbm a => some (if (s.wline a).valid then (s.wline a).byteAt (a % 128) else s.byte a)
  | .companion a => if inWindow s a then some ((s.wline a).byteAt (a % 128)) else Tab.find? ext.bytes a
  | _ => some 0

/-- The word of an address reads as poison. -/
def peekPoison (s : State) (ext : Ext) (a : Nat) : Bool :=
  match place s a with
  | .scratch k => s.isPoison k
  | .hbm a => if (s.wline a).valid then (s.wline a).poison.getLsbD (a % 128 / 16) else s.isPoison a
  | .companion a =>
    if inWindow s a then (s.wline a).poison.getLsbD (a % 128 / 16) else ext.poisoned.contains (a / 64)
  | _ => false

/-! ## Banks, the code and retired pages (R41, R82 to R86, R429, R430) -/

/-- The bank that holds a byte of a slice, by its slice offset (R41). -/
def bankOf (off : Nat) : Nat := bits off 10 7

/-- The sub-bank of its bank (R41). -/
def subBankOf (off : Nat) : Nat := bits off 12 11

/-- Word `i` of the policy in force. -/
def policyWord (s : State) (i : Nat) : Nat := (s.reg (Reg.rglPolicy i)).toNat
/-- A FLAGS bit of the policy (Table 14.2): 0 AUTO_SPARE, 1 AUTO_RETIRE, 2 IDLE_GATE, 3 ALLOW_CORE_LOSS, 4 FUSE. -/
def policyFlag (s : State) (i : Nat) : Bool := bit (policyWord s 0) (16 + i)

/-- An entry joins the Riser record, which is then unsaved (R446). -/
def addEntry (e : RecEntry) (s : State) : State :=
  let s : State := { s with rgl := { s.rgl with entries := s.rgl.entries ++ [e], recordDue := s.beat } }
  s.setFlag Reg.rsrStatus 7

/-- Retired pages of a base die. -/
def retiredOf (s : State) (k : Nat) : List Nat := s.retired.filter fun p => p / 2 ^ 15 == k

/-- PAGE_RETIRED, done or RETIRE_FULL. -/
def pageNotice (full : Bool) (page : Nat) (s : State) : State :=
  rglNotice 0x76 3 (page / 2 ^ 15 + (b2n full) <<< 8 + (page * 2 ^ 21) <<< 64) s

/-- Retires the page of an HBM address. -/
def retirePage (page : Nat) (s : State) : State :=
  if s.retired.contains page then s
  else
    let s : State := { s with rgl := { s.rgl with pagesDue := s.rgl.pagesDue.filter fun p => p.1 != page } }
    if 512 ≤ (retiredOf s (page / 2 ^ 15)).length then pageNotice true page s
    else
      let s : State := { s with retired := s.retired ++ [page],
                                xlat := s.xlat.filter fun e => bits e.2.toNat 47 21 != page }
      let s := addEntry { kind := 9, fused := false, die := 48 + page / 2 ^ 15, index := page, detail := s.beat.toNat } s
      pageNotice false page s

/-- The 2 MiB page of an address is retired (R82). -/
def pageRetired (s : State) (a : Nat) : Bool := s.retired.contains (a / 2 ^ 21)

/-- A window of the stack that holds an HBM address is active: accesses to the stack wait for its end (R443). -/
def stackHeld (s : State) (a : Nat) : Bool :=
  decide (a < 2 ^ 39) && s.rgl.grants.any fun g =>
    g.ends.isSome && (g.req.kind == 4 || g.req.kind == 5) && g.req.die == 48 + a / 2 ^ 36

/-- Bytes of a device address range reach a stack whose window is active, and not the cache window's lines. -/
def waitsStack (s : State) (a n : Nat) : Bool := (unitsOf 128 a n).any fun u => stackHeld s u && !(s.wline u).valid

/-- Refuses an access that reaches a retired page with the MEMORY log of kind 4 (R82). -/
def reportRetired (a : Nat) (s : State) : State := memLog 4 (0x400 + a / 2 ^ 36) a s

/-- Counts and reports consumed poison (R85, Table 2.11, Table 14.6 kind 1). -/
def reportPoison (a : Nat) (s : State) : State :=
  memLog 1 (0x700 + homeSlice s a) a (s.setFlag Reg.cruErrStatus 2)

/-- A word of a slice is corrected (Table 2.11, Table 11.4). -/
def sliceCorrected (i : Nat) (s : State) : State := (s.setFlag Reg.cruErrStatus 0).count (0x040 + 8 * i + 4) 1

/-- A slice finds a word uncorrectable (R85). -/
def sliceLost (i a : Nat) (s : State) : State :=
  memLog 0 (0x700 + i) a ((s.setFlag Reg.cruErrStatus 1).count (0x040 + 8 * i + 5) 1)

/-- A word of scratch is found uncorrectable (R85). -/
def sliceUncorrectable (key : Nat) (s : State) : State :=
  sliceLost ((key - 0x018000000000) / 2 ^ 29 % 16) key (s.setPoison key true)

/-- A base die corrects a word (Table 14.17, Table 11.4). -/
def hbmCorrected (a : Nat) (s : State) : State :=
  let k := a / 2 ^ 36 % 8
  (s.setFld (Reg.hbmErr k) 7 0 (min (s.fld (Reg.hbmErr k) 7 0 + 1) 0xFF)).count (0x0C0 + 8 * k + 3) 1

/-- A word of HBM is found uncorrectable (R85, R429): it is poisoned and logged, and its page is retired at once under
AUTO_RETIRE. -/
def hbmUncorrectable (a : Nat) (s : State) : State :=
  let k := a / 2 ^ 36 % 8
  let sat (hi lo : Nat) (s : State) : State := s.setFld (Reg.hbmErr k) hi lo (min (s.fld (Reg.hbmErr k) hi lo + 1) 0xFF)
  let s := sat 31 24 (sat 15 8 ((s.setPoison a true).count (0x0C0 + 8 * k + 4) 1))
  let s := memLog 0 (0x400 + k) a s
  if policyFlag s 1 then retirePage (a / 2 ^ 21) s else s

/-- The key under which `State.errs` holds the window's copy of a word. -/
def copyKey (a : Nat) : Nat := 2 ^ 60 + a / 16

/-- A checker meets the stored word of an HBM address (R83, R84). -/
def checkHbmWord (a : Nat) (s : State) : State :=
  match s.wordState (a / 16) with
  | .clean => s
  | .corrected => hbmCorrected a s
  | .uncorrectable => hbmUncorrectable (a / 16 * 16) s

/-- A checker meets the window's copy of a word. -/
def checkCopyWord (a : Nat) (s : State) : State :=
  match s.wordState (copyKey a) with
  | .clean => s
  | .corrected => sliceCorrected (sliceHash a) s
  | .uncorrectable =>
    sliceLost (sliceHash a) (a / 16 * 16) ((s.modLine a fun l => l.setWord a true).setWordState (copyKey a) .clean)

/-- A consumer checks the word of an address where the device holds it (R84). -/
def checkWord (a : Nat) (s : State) : State :=
  match place s a with
  | .scratch k =>
    match s.wordState (k / 16) with
    | .clean => s
    | .corrected => sliceCorrected ((k - 0x018000000000) / 2 ^ 29 % 16) s
    | .uncorrectable => sliceUncorrectable (k / 16 * 16) s
  | .hbm a => if (s.wline a).valid then checkCopyWord a s else checkHbmWord a s
  | .companion a => if inWindow s a then checkCopyWord a s else s
  | _ => s

/-! ## Requests to the companion -/

/-- A tag that no request holds, from the next one on (R229). -/
def freeTag (s : State) : Option Nat :=
  (upFrom s.spr.nextTag (8192 - s.spr.nextTag) ++ upFrom 0 s.spr.nextTag).find? fun t => (Tab.get none s.spr.reqs t).isNone

/-- Sends a request under a tag and keeps it until it is answered. -/
def sprTagged (tag : Nat) (w : SprWait) (s : State) : State :=
  let q : SprReq :=
    { opc := w.msg.opc, addr := w.msg.addr, waiters := w.waiters, snooped := false, sentAt := s.beat, dead := false }
  let s := { s with spr := { s.spr with
    reqs := Tab.set none s.spr.reqs tag (some q), nextTag := (tag + 1) % 8192 } }
  s.sprSend { w.msg with tag := tag, trailer := s.sealsOffset w.msg.addr }

/-- Makes a request of the companion: under a free tag, or behind those that wait for one (R229). -/
def sprRequest (w : SprWait) (s : State) : State :=
  match freeTag s with
  | some tag => sprTagged tag w s
  | none => { s with spr := { s.spr with backlog := s.spr.backlog ++ [w] } }

/-- The tag of an answered request is free, and the first request that waits for a tag takes it. -/
def dropReq (tag : Nat) (s : State) : State :=
  let s : State := { s with spr := { s.spr with reqs := Tab.erase s.spr.reqs tag } }
  match s.spr.backlog with
  | [] => s
  | w :: t => sprTagged tag w { s with spr := { s.spr with backlog := t } }

/-- A request that has no answer in time ends (R233): its tag stays unused, and the timeout is reported. -/
def loseReq (tag : Nat) (r : SprReq) (s : State) : State :=
  let dead : SprReq := { r with dead := true, waiters := [] }
  let s : State := { s with spr := { s.spr with reqs := Tab.set none s.spr.reqs tag (some dead) } }
  memLog 2 0x600 (0x100000000000 + r.addr % 2 ^ 44) ((raiseFault 5 s).count 0x186 1)

/-- A request whose answer comes, or fails to come, within the command that makes it. (DESIGN CHOICE, log 11.) -/
def sprAsk (ext : Ext) (opc a : Nat) (s : State) : State :=
  let base := a / 64 * 64 % 2 ^ 44
  let tag := (freeTag s).getD s.spr.nextTag
  let s : State := { s with spr := { s.spr with nextTag := (tag + 1) % 8192 } }
  let s := s.sprSend { opc := opc, tag := tag, addr := base, trailer := s.sealsOffset base }
  if ext.silent.contains (a / 64) then
    loseReq tag { opc := opc, addr := base, waiters := [], snooped := false, sentAt := s.beat, dead := false } s
  else s

/-- The 64 bytes the companion answers for a sector, if its IOMMU maps it. -/
def extSector (ext : Ext) (a : Nat) : Option W512 :=
  let base := a / 64 * 64
  match Tab.find? ext.bytes base with
  | none => none
  | some _ => some (BitVec.ofNat 512 (ofBytes ((upFrom base 64).map fun k => (Tab.find? ext.bytes k).getD 0)))

/-- How the companion answers a request for a sector made at once: its data, or why it gives none (R232, R233). -/
def extAnswer (ext : Ext) (a : Nat) : Except MemErr W512 :=
  if ext.silent.contains (a / 64) then .error .poison
  else if ext.poisoned.contains (a / 64) then .ok 0
  else match extSector ext a with
    | none => .error .translation
    | some d => .ok d

/-! ## The cache window -/

/-- Sets per slice (R54). -/
def windowSets (s : State) : Nat := (2 ^ 33 - boundary s) / 2 ^ 15

/-- The set of a line: index in its slice, times 16, plus its home slice (R54). -/
def setKey (s : State) (a : Nat) : Nat := (a / 2048) % windowSets s * 16 + sliceHash a

/-- The way the pseudo-LRU tree names as victim: each node's bit points at the half to take. (DESIGN CHOICE, log
180.) -/
def plruVictim (t : BitVec 16) : Nat → Nat → Nat
  | 0, node => node - 16
  | k + 1, node => plruVictim t k (2 * node + b2n (t.getLsbD node))

/-- Points the nodes on a way's path at it (`toward`) or away from it. (DESIGN CHOICE, log 180.) -/
def plruPoint (toward : Bool) (way : Nat) : Nat → Nat → BitVec 16 → BitVec 16
  | 0, _, t => t
  | k + 1, node, t =>
    let right := bit way k
    let t := if right == toward then t ||| (1#16 <<< node) else t &&& ~~~(1#16 <<< node)
    plruPoint toward way k (2 * node + b2n right) t

/-- Records a use of a way, or with evict-first makes it the set's next victim (R55). (DESIGN CHOICE, log 180.) -/
def plruTouch (key way : Nat) (evict : Bool) (s : State) : State :=
  { s with win := { s.win with plru := Tab.modify 0 s.win.plru key (plruPoint evict way 4 1) } }

/-- A use of the line that holds an address. -/
def touchLine (m : Marks) (a : Nat) (s : State) : State := plruTouch (setKey s a) (s.wline a).way m.evict s

/-- Counts `n` 64-byte units read (`w` 0) or written (`w` 1) at an HBM address's base die (Table 11.4). -/
def countHbm (w a n : Nat) (s : State) : State := s.count (0x0C0 + 8 * (a / 2 ^ 36 % 8) + w) n

/-- Counts a window hit or miss at an address's home slice (Table 11.4). -/
def countHit (hit : Bool) (a : Nat) (s : State) : State := s.count (0x040 + 8 * sliceHash a + (if hit then 1 else 2)) 1

/-- Writes a dirty HBM line back to memory with its poison; a retired page refuses it (R82). -/
def writeBackHbm (a : Nat) (s : State) : State :=
  let l := s.wline a
  let base := a / 128 * 128
  if pageRetired s base then reportRetired base s
  else
    let s := storeBytes base (toBytes 128 l.data.toNat) (countHbm 1 a 2 s)
    forEach (fun i s => s.setPoison (base + 16 * i) (l.poison.getLsbD i)) (upFrom 0 8) s

/-- Gives up one companion sector (Table 7.5): M is written back, as poison where a word of it is (R228), E is reported,
S goes silently. -/
def dropSector (a : Nat) (s : State) : State :=
  let l := s.wline a
  let base := a / 64 * 64 % 2 ^ 44
  match l.sector a with
  | .m =>
    let bad := l.sectorPoison a
    sprRequest { msg := { opc := 0x06, addr := base, status := 3 * b2n bad, data := some (if bad then 0 else l.sectorData a) },
                 waiters := [] } s
  | .e => sprRequest { msg := { opc := 0x07, addr := base }, waiters := [] } s
  | _ => s

/-- The copies of a line's words are gone, with what a checker would find of them. -/
def clearCopies (a : Nat) (s : State) : State :=
  forEach (fun i s => s.setWordState (copyKey (a / 128 * 128) + i) .clean) (upFrom 0 8) s

/-- Removes a line from the window, writing back what is dirty (R55, Table 7.5). (DEDUCED, log 65.) -/
def evictLine (a : Nat) (s : State) : State :=
  let l := s.wline a
  let base := a / 128 * 128
  let s := if base < 2 ^ 39 then (if l.dirty then writeBackHbm a s else s)
    else dropSector (base + 64) (dropSector base s)
  (clearCopies a s).modLine a fun _ => {}

/-- The lines present in a set. -/
def linesOfSet (s : State) (key : Nat) : List (Nat × WLine) :=
  s.win.lines.filter fun e => e.2.valid && setKey s (e.1 * 128) == key

/-- The way a new line takes: a free one if there is one, else the victim. -/
def chooseWay (s : State) (key : Nat) : Nat :=
  let used := (linesOfSet s key).map fun e => e.2.way
  match (upFrom 0 16).find? fun w => !used.contains w with
  | some w => w
  | none => plruVictim (Tab.get 0 s.win.plru key) 4 1

/-- Makes room for a line and enters it empty. -/
def allocLine (a : Nat) (evict : Bool) (s : State) : State :=
  let key := setKey s a
  let way := chooseWay s key
  let s := match (linesOfSet s key).find? fun e => e.2.way == way with
    | some e => evictLine (e.1 * 128) s
    | none => s
  let s := s.modLine a fun _ => { valid := true, way := way }
  plruTouch key way evict s

/-- Fills an HBM line from memory, whose words the base die checks (R54, R56, R81). -/
def fillHbm (a : Nat) (evict : Bool) (s : State) : State :=
  let base := a / 128 * 128
  let s := forEach (fun i s => checkHbmWord (base + 16 * i) s) (upFrom 0 8) (countHbm 0 a 2 s)
  let bytes := (upFrom base 128).map s.byte
  let pois := (upFrom 0 8).foldl (fun m i => if s.isPoison (base + 16 * i) then m + 2 ^ i else m) 0
  (allocLine a evict s).modLine a fun l =>
    { l with data := BitVec.ofNat 1024 (ofBytes bytes), poison := BitVec.ofNat 8 pois }

/-! ## The aperture (R58, R234 to R237) -/

/-- The companion's hold on an aperture line must be settled before the device reads or writes it (R58, R236). -/
def needsSnoop (s : State) (write : Bool) (a : Nat) : Bool :=
  inAperture s a && (if write then dirState s a != .i else dirState s a == .e || dirState s a == .m)

/-- A snoop of the companion is not answered in time (R237): the line is poisoned and its state is I. (DEDUCED,
log 70.) -/
def loseSnoop (base : Nat) (s : State) : State :=
  let s := forEach (fun i s => s.setPoison (base + 16 * i) true) (upFrom 0 4) s
  setDir base .i (memLog 0 (0x400 + base / 2 ^ 36) base (raiseFault 6 s))

/-- The data of a snoop's answer is written to HBM (R236). -/
def takeSnoopData (base : Nat) (d : W512) (poison : Bool) (s : State) : State :=
  let s := storeBytes base (toBytes 64 d.toNat) (countHbm 1 base 1 s)
  forEach (fun i s => s.setPoison (base + 16 * i) poison) (upFrom 0 4) s

/-- The base die settles the companion's hold on one aperture line for an access that is performed at once: it snoops,
takes what the companion returns, and sets the directory (R236, R237, R58). -/
def settleDir (ext : Ext) (write : Bool) (a : Nat) (s : State) : State :=
  if needsSnoop s write a then
    let base := a / 64 * 64
    let s := s.sprSend { opc := if write then 0x21 else 0x22, addr := base }
    if ext.silent.contains (base / 64) then loseSnoop base s
    else
      let s := match extSector ext base with
        | some d => takeSnoopData base d (ext.poisoned.contains (base / 64)) s
        | none => s
      setDir base (if write then .i else .s) s
  else s

/-- The 64-byte units of a range that lie in the 128-byte line of an address. -/
def unitsInLine (a n u : Nat) : List Nat := (unitsOf 64 a n).filter fun v => v / 128 == u / 128

/-! ## Reads -/

/-- Brings an HBM line in for a read performed at once: a hit is touched; a miss allocates unless the access is marked
no-allocate. What the companion holds of the bytes read, or of the line that is filled, is settled first. -/
def bringHbm (ext : Ext) (m : Marks) (a n u : Nat) (s : State) : State :=
  let hit := (s.wline u).valid
  let s := countHit hit u s
  if hit then touchLine m u s
  else if m.noalloc then forEach (settleDir ext false) (unitsInLine a n u) (countHbm 0 u (unitsInLine a n u).length s)
  else
    let base := u / 128 * 128
    fillHbm u m.evict (settleDir ext false (base + 64) (settleDir ext false base s))

/-- Enters a companion sector with its data and state. -/
def installSector (a : Nat) (evict : Bool) (d : W512) (poison : Bool) (c : Coherence) (s : State) : State :=
  let s := if (s.wline a).valid then s else allocLine a evict s
  s.modLine a fun l => (l.putSector a d poison).setSector a c

/-- The state that a sector takes as the companion grants it (R57). -/
def extGrant (ext : Ext) (a : Nat) : Coherence := if ext.excl.contains (a / 64) then .e else .s

/-- Brings a companion sector in for a read performed at once (Table 7.5). -/
def bringCompanion (ext : Ext) (m : Marks) (a : Nat) (s : State) : Option MemErr × State :=
  let hit := inWindow s a
  let s := countHit hit a s
  if hit then (none, touchLine m a s)
  else if ext.got.contains (a / 64) then (none, s)
  else
    let s := sprAsk ext (if m.noalloc then 0x03 else 0x01) a s
    match extAnswer ext a with
    | .error e => (some e, s)
    | .ok d =>
      (none, if m.noalloc then s else installSector a m.evict d (ext.poisoned.contains (a / 64)) (extGrant ext a) s)

/-- Performs steps in order until one is refused. -/
def untilErr {α : Type} (f : α → State → Option MemErr × State) : List α → State → Option MemErr × State
  | [], s => (none, s)
  | a :: t, s => match f a s with
    | (none, s) => untilErr f t s
    | r => r

/-- Counts the line accesses of a range at their slices (Table 11.4). -/
def countLines (a n : Nat) (s : State) : State :=
  forEach (fun u s => s.count (0x040 + 8 * homeSlice s u) 1) (unitsOf 128 a n) s

/-- Part of a range as an offset from its start and a length: what a unit of `g` bytes covers of it. -/
def coveredBy (g a n u : Nat) : Nat × Nat := (max a u - a, min (a + n) (u + g) - max a u)

/-- The bytes of a range and the parts of it that are poison, once everything it needs is there; its words are checked
as they are consumed (R84). -/
def fetchHere (ext : Ext) (a n : Nat) (s : State) : (List Byte × List (Nat × Nat)) × State :=
  let s := forEach checkWord (unitsOf 16 a n) s
  (((upFrom a n).map fun k => (peek s ext k).getD 0,
    ((unitsOf 16 a n).filter (peekPoison s ext)).map (coveredBy 16 a n)), s)

/-- Reads `n` bytes at a device address, inside one 2 MiB page, at once: the lines are brought in, then read. The parts
that are poison are told beside the bytes. -/
def fetchPhys (ext : Ext) (m : Marks) (a n : Nat) (s : State) : Except MemErr (List Byte × List (Nat × Nat)) × State :=
  let finish (s : State) : Except MemErr (List Byte × List (Nat × Nat)) × State :=
    (.ok (fetchHere ext a n s).1, (fetchHere ext a n s).2)
  match place s a with
  | .scratch _ => finish (countLines a n s)
  | .hbm _ =>
    if pageRetired s a then (.error .retired, reportRetired a s)
    else finish (forEach (bringHbm ext m a n) (unitsOf 128 a n) (countLines a n s))
  | .companion _ =>
    match untilErr (bringCompanion ext m) (unitsOf 64 a n) (countLines a n s) with
    | (some e, s) => (.error e, s)
    | (none, s) => finish s
  | .window => (.error .window, s.setFlag Reg.cruErrStatus 3)
  | .regs _ => (.error .regs, s)
  | .hole => (.error .unmapped, s)

/-- Consumes what a read gives: poison is an error (R85). -/
def consume (a : Nat) (r : Except MemErr (List Byte × List (Nat × Nat)) × State) : Except MemErr (List Byte) × State :=
  match r with
  | (.error e, s) => (.error e, s)
  | (.ok (d, []), s) => (.ok d, s)
  | (.ok (_, p :: _), s) => (.error .poison, reportPoison (a + p.1) s)

/-- Reads `n` bytes at a device address, inside one 2 MiB page, at once, and consumes them. -/
def readPhys (ext : Ext) (m : Marks) (a n : Nat) (s : State) : Except MemErr (List Byte) × State :=
  consume a (fetchPhys ext m a n s)

/-! ## Writes -/

/-- A scratch key lies in the ring of an enabled notice queue, which software may not write (R66). (DESIGN CHOICE,
log 17.) -/
def inNoticeRing (s : State) (key : Nat) : Bool :=
  s.nqs.any fun e => nqEnabled s e.1 && e.2.base ≤ key && key < e.2.base + 32 * 2 ^ e.2.depth

/-- What an access needs of its page (Table 7.8). -/
inductive Need where
  | read | write | exec
deriving DecidableEq, Repr

/-- The address of a translation table of the firmware table region (R244). -/
def tableAddr (s : State) (n : Nat) : Nat := s.fld Reg.glbXlatRegion 26 0 * 2 ^ 21 + 4096 * n

/-- The entries that a walk for an address reads, one in each level's table (R244). (DESIGN CHOICE, log 81.) -/
def walkWords (s : State) (va : Nat) : List Nat :=
  let p := va % 2 ^ 48 / 2 ^ 21
  let below (key i : Nat) : List Nat :=
    match Tab.get 0 s.tables key with
    | 0 => []
    | n => [tableAddr s n + 8 * i]
  [tableAddr s 0 + 8 * (p / 2 ^ 18)] ++ below (p / 2 ^ 18) (p / 2 ^ 9 % 512) ++ below (512 + p / 2 ^ 9) (p % 512)

/-- A walk for an address meets an uncorrectable word. -/
def walkBad (s : State) (va : Nat) : Bool :=
  (walkWords s va).any fun a => s.isPoison a || s.wordState (a / 16) == .uncorrectable

/-- What a walk for an address reports: XLAT_ERROR where it met an uncorrectable word (Table 7.12). -/
def noteWalk (va : Nat) (s : State) : State :=
  if walkBad s va then raiseFault 1 (forEach checkHbmWord (walkWords s va) s) else s

/-- Translates a device virtual address (R244): the device address and whether the page is no-allocate. -/
def translate (s : State) (need : Need) (va : Nat) : Option (Nat × Bool) :=
  let e := (Tab.get 0 s.xlat (va % 2 ^ 48 / 2 ^ 21)).toNat
  let ok := bit e 0 && !walkBad s va && (match need with
    | .read => true
    | .write => bit e 1
    | .exec => bit e 2)
  if ok then some (bits e 47 21 * 2 ^ 21 + va % 2 ^ 21, bit e 3) else none

/-- A condition of `mwait` (R215) on a word: geu, eq, ne. -/
def mwaitCond (fn : Nat) (v x : W64) : Bool :=
  match fn with
  | 0 => x.toNat ≤ v.toNat
  | 1 => v == x
  | _ => v != x

/-- The 8-byte scratch word at a key. -/
def wordAt (s : State) (key : Nat) : W64 := BitVec.ofNat 64 (ofBytes ((upFrom key 8).map (scratchByte s)))

/-- Register `r` of a core's x file; x0 reads as zero (Table 0.4). -/
def Core.xr (k : Core) (r : Nat) : W64 := if r = 0 then 0 else Tab.get 0 k.x r

/-- The key of the word a held `mwait` watches. -/
def mwaitKey (s : State) (k : Core) (w : W64) : Option Nat :=
  match translate s .read (bits (k.xr (bits w.toNat 46 42)).toNat 47 3 * 8) with
  | some (pa, _) => match place s pa with
    | .scratch key => some key
    | _ => none
  | none => none

/-- Re-evaluates a core's `mwait` watch after a write (R215). -/
def rewatch (c : Nat) (s : State) : State :=
  let k := s.core c
  match k.hold with
  | some h =>
    if bits h.w.toNat 62 56 = 0x62 then
      match mwaitKey s k h.w with
      | some key =>
        if mwaitCond (bits h.w.toNat 31 24) (wordAt s key) (k.xr (bits h.w.toNat 41 37)) then
          s.setCore c { k with hold := some { h with met := true } }
        else s
      | none => s
    else s
  | none => s

/-- Every slice re-evaluates its watches after a write to scratch. -/
def rewatchAll (s : State) : State := forEach rewatch (s.cores.map (·.1)) s

/-- Writes one byte where the device holds it. Aperture lines are written through (R58); a byte of an enabled notice
ring is dropped and counted (R66). -/
def pokeByte (a : Nat) (b : Byte) (s : State) : State :=
  match place s a with
  | .scratch k => if inNoticeRing s k then { s with ringDrops := s.ringDrops + 1 } else s.setByte k b
  | .hbm a =>
    if (s.wline a).valid then
      let s := s.modLine a fun l => { l.setByteAt (a % 128) b with dirty := l.dirty || !inAperture s a }
      if inAperture s a then s.setByte a b else s
    else s.setByte a b
  | .companion a => s.modLine a fun l => (l.setByteAt (a % 128) b).setSector a .m
  | _ => s

/-- Writes consecutive bytes; `mask i` false leaves byte `i` as it is. -/
def pokeBytes (mask : Nat → Bool) : Nat → Nat → List Byte → State → State
  | _, _, [], s => s
  | i, a, b :: t, s => pokeBytes mask (i + 1) (a + 1) t (if mask i then pokeByte a b s else s)

/-- Sets or clears the poison of a word where the device holds it, with fresh check bits. -/
def markWord (p : Bool) (a : Nat) (s : State) : State :=
  match place s a with
  | .scratch k => s.setPoison k p
  | .hbm a =>
    let s := if (s.wline a).valid then (s.modLine a fun l => l.setWord a p).setWordState (copyKey a) .clean else s
    if (s.wline a).valid && !inAperture s a then s else s.setPoison a p
  | .companion a => (s.modLine a fun l => l.setWord a p).setWordState (copyKey a) .clean
  | _ => s

/-- A 16-byte word of which a write writes a byte that `p` names. -/
def meets (p : Nat → Bool) (a n u : Nat) : Bool :=
  let c := coveredBy 16 a n u
  (upFrom c.1 c.2).any p

/-- After a write: a word that poison was written to is poison, and a word written whole with good bytes is not. -/
def markWords (mask bad : Nat → Bool) (a n : Nat) (s : State) : State :=
  forEach (fun u s =>
    if meets (fun i => mask i && bad i) a n u then markWord true u s
    else if a ≤ u && u + 16 ≤ a + n && (upFrom (u - a) 16).all mask then markWord false u s
    else s) (unitsOf 16 a n) s

/-- Prepares an HBM line for a write performed at once: write-allocate unless marked no-allocate; an aperture line is
invalidated at the companion and written through. -/
def bringHbmWrite (ext : Ext) (m : Marks) (a n u : Nat) (s : State) : State :=
  let k := (unitsInLine a n u).length
  let hit := (s.wline u).valid
  let s := countHit hit u s
  let s := forEach (settleDir ext true) (unitsInLine a n u) s
  let s := if inAperture s u then countHbm 1 u k s else s
  if hit then touchLine m u s
  else if inAperture s u then s
  else if m.noalloc then countHbm 1 u k s
  else fillHbm u m.evict s

/-- Prepares a companion sector for a write performed at once (Table 7.5). -/
def bringCompanionWrite (ext : Ext) (m : Marks) (a : Nat) (s : State) : Option MemErr × State :=
  let st := if (s.wline a).valid then (s.wline a).sector a else .i
  let s := countHit (st != .i) a s
  match st with
  | .m => (none, touchLine m a s)
  | .e => (none, touchLine m a s)
  | .s =>
    let s := sprAsk ext 0x02 a (touchLine m a s)
    if ext.silent.contains (a / 64) then (some .poison, s) else (none, s.modLine a fun l => l.setSector a .e)
  | .i =>
    let s := sprAsk ext 0x02 a s
    match extAnswer ext a with
    | .error e => (some e, s)
    | .ok d => (none, installSector a m.evict d (ext.poisoned.contains (a / 64)) .e s)

/-- A no-allocate write to a sector that is not held goes out as WR_PLAIN or WR_PARTIAL (Table 7.5), as poison where a
byte of it is (R228). -/
def sendPartial (mask bad : Nat → Bool) (a n : Nat) (data : List Byte) (u : Nat) (s : State) : State :=
  let sel (k : Nat) : Bool := a ≤ k && k < a + n && mask (k - a)
  let d := BitVec.ofNat 512 (ofBytes ((upFrom u 64).map fun k => if sel k then data.getD (k - a) 0 else 0))
  let m := (upFrom 0 64).foldl (fun acc i => if sel (u + i) then acc + 2 ^ i else acc) 0
  let status := 3 * b2n ((upFrom u 64).any fun k => sel k && bad (k - a))
  if m = 2 ^ 64 - 1 then
    sprRequest { msg := { opc := 0x04, addr := u % 2 ^ 44, status := status, data := some d }, waiters := [] } s
  else
    sprRequest { msg := { opc := 0x05, addr := u % 2 ^ 44, status := status, data := some d, mask := some (BitVec.ofNat 64 m) },
                 waiters := [] } s

/-- Writes one companion sector's part of a range. -/
def writeCompanion (ext : Ext) (m : Marks) (mask bad : Nat → Bool) (a n : Nat) (data : List Byte) (u : Nat)
    (s : State) : Option MemErr × State :=
  if m.noalloc && !inWindow s u then (none, sendPartial mask bad a n data u (countHit false u s))
  else
    match bringCompanionWrite ext m u s with
    | (some e, s) => (some e, s)
    | (none, s) =>
      let c := coveredBy 64 a n u
      (none, markWords (fun i => mask (c.1 + i)) (fun i => bad (c.1 + i)) (a + c.1) c.2
        (pokeBytes mask c.1 (a + c.1) ((data.drop c.1).take c.2) s))

/-- A snoop that a write of a range needs is not answered in time (R237). -/
def snoopSilent (ext : Ext) (s : State) (a n : Nat) : Bool :=
  (unitsOf 64 a n).any fun u => needsSnoop s true u && ext.silent.contains (u / 64)

/-- Writes bytes at a device address, inside one 2 MiB page, at once; the bytes that `bad` names are poison. -/
def storePhys (ext : Ext) (m : Marks) (mask bad : Nat → Bool) (a : Nat) (data : List Byte) (s : State) :
    Except MemErr Unit × State :=
  let n := data.length
  let finish (s : State) : Except MemErr Unit × State :=
    (.ok (), rewatchAll (markWords mask bad a n (pokeBytes mask 0 a data s)))
  match place s a with
  | .scratch _ => finish (countLines a n s)
  | .hbm _ =>
    if pageRetired s a then (.error .retired, reportRetired a s)
    else if snoopSilent ext s a n then
      (.error .poison, reportPoison a (forEach (bringHbmWrite ext m a n) (unitsOf 128 a n) (countLines a n s)))
    else finish (forEach (bringHbmWrite ext m a n) (unitsOf 128 a n) (countLines a n s))
  | .companion _ =>
    match untilErr (writeCompanion ext m mask bad a n data) (unitsOf 64 a n) (countLines a n s) with
    | (some e, s) => (.error e, s)
    | (none, s) => (.ok (), s)
  | .window => (.error .window, s.setFlag Reg.cruErrStatus 3)
  | .regs _ => (.error .regs, s)
  | .hole => (.error .unmapped, s)

/-- Writes good bytes at a device address, inside one 2 MiB page, at once. -/
def writePhys (ext : Ext) (m : Marks) (mask : Nat → Bool) (a : Nat) (data : List Byte) (s : State) :
    Except MemErr Unit × State :=
  storePhys ext m mask (fun _ => false) a data s

/-! ## Translation -/

/-- Cuts a range at 2 MiB page boundaries: (address, bytes) pieces. -/
def pagePieces : Nat → Nat → Nat → List (Nat × Nat)
  | 0, _, _ => []
  | fuel + 1, a, n =>
    let room := 2 ^ 21 - a % 2 ^ 21
    if n = 0 then [] else if n ≤ room then [(a, n)] else (a, room) :: pagePieces fuel (a + room) (n - room)

/-- The page pieces of a range. -/
def pieces (a n : Nat) : List (Nat × Nat) := pagePieces (n / 2 ^ 21 + 2) a n

/-- Bytes of a device virtual range reach a stack whose window is active (R443). -/
def rangeHeld (s : State) (va n : Nat) : Bool :=
  (pieces va n).any fun p => match translate s .read p.1 with
    | some (pa, _) => waitsStack s pa p.2
    | none => false

/-- What the walks for a range report. -/
def noteWalks (va n : Nat) (s : State) : State := forEach (fun p => noteWalk p.1) (pieces va n) s

/-- Every page of a range translates. -/
def translates (s : State) (need : Need) (va n : Nat) : Bool :=
  (pieces va n).all fun p => (translate s need p.1).isSome

/-- Reads the pieces of a virtual range in order. -/
def readPieces (ext : Ext) (m : Marks) : List (Nat × Nat) → State → Except MemErr (List Byte) × State
  | [], s => (.ok [], s)
  | (va, n) :: t, s =>
    match translate s .read va with
    | none => (.error .translation, noteWalk va s)
    | some (pa, na) =>
      match readPhys ext { m with noalloc := m.noalloc || na } pa n s with
      | (.error e, s) => (.error e, s)
      | (.ok d, s) =>
        match readPieces ext m t s with
        | (.ok r, s) => (.ok (d ++ r), s)
        | r => r

/-- Reads `n` bytes at a local virtual address (R244). (DESIGN CHOICE, log 11.) -/
def readVirt (ext : Ext) (m : Marks) (va n : Nat) (s : State) : Except MemErr (List Byte) × State :=
  readPieces ext m (pieces va n) s

/-- The parts of a range that are poison, `i` bytes further on. -/
def shiftParts (i : Nat) (l : List (Nat × Nat)) : List (Nat × Nat) := l.map fun p => (p.1 + i, p.2)

/-- Byte `i` lies in one of the parts. -/
def inParts (l : List (Nat × Nat)) (i : Nat) : Bool := l.any fun p => p.1 ≤ i && i < p.1 + p.2

/-- Reads the pieces of a virtual range in order for a transfer, which moves poison as poison (R85). -/
def fetchPieces (ext : Ext) (m : Marks) : List (Nat × Nat) → State → Except MemErr (List Byte × List (Nat × Nat)) × State
  | [], s => (.ok ([], []), s)
  | (va, n) :: t, s =>
    match translate s .read va with
    | none => (.error .translation, noteWalk va s)
    | some (pa, na) =>
      match fetchPhys ext { m with noalloc := m.noalloc || na } pa n s with
      | (.error e, s) => (.error e, s)
      | (.ok d, s) =>
        match fetchPieces ext m t s with
        | (.ok r, s) => (.ok (d.1 ++ r.1, d.2 ++ shiftParts n r.2), s)
        | r => r

/-- Reads `n` bytes at a local virtual address for a transfer. -/
def fetchVirt (ext : Ext) (m : Marks) (va n : Nat) (s : State) : Except MemErr (List Byte × List (Nat × Nat)) × State :=
  fetchPieces ext m (pieces va n) s

/-- Writes the pieces of a virtual range in order, byte `i` on from the range's start. -/
def storePieces (ext : Ext) (m : Marks) (mask bad : Nat → Bool) : Nat → List (Nat × Nat) → List Byte → State →
    Except MemErr Unit × State
  | _, [], _, s => (.ok (), s)
  | i, (va, n) :: t, data, s =>
    match translate s .write va with
    | none => (.error .translation, noteWalk va s)
    | some (pa, na) =>
      match storePhys ext { m with noalloc := m.noalloc || na } (fun j => mask (i + j)) (fun j => bad (i + j)) pa (data.take n) s with
      | (.error e, s) => (.error e, s)
      | (.ok _, s) => storePieces ext m mask bad (i + n) t (data.drop n) s

/-- Writes bytes at a local virtual address, those that `bad` names as poison; a range with an unmapped page writes
nothing. (DESIGN CHOICE, log 11.) -/
def storeVirt (ext : Ext) (m : Marks) (mask bad : Nat → Bool) (va : Nat) (data : List Byte) (s : State) :
    Except MemErr Unit × State :=
  if translates s .write va data.length = false then (.error .translation, noteWalks va data.length s)
  else storePieces ext m mask bad 0 (pieces va data.length) data s

/-- Writes good bytes at a local virtual address. -/
def writeVirt (ext : Ext) (m : Marks) (mask : Nat → Bool) (va : Nat) (data : List Byte) (s : State) :
    Except MemErr Unit × State :=
  storeVirt ext m mask (fun _ => false) va data s

/-! ## Fabric addresses (R242) -/

/-- What a 64-bit address names: a local address, a peer's, or none. -/
inductive FabAddr where
  | loc (va : Nat)
  | peer (id va : Nat)
  | bad
deriving DecidableEq, Repr

/-- The device's own id (R35, GLB_COORD). -/
def ownId (s : State) : Nat := s.fld Reg.glbCoord 28 16

/-- A device id names a coordinate of the system (R36, R242). -/
def idInSystem (s : State) (id : Nat) : Bool :=
  id % 8 < 2 ^ s.fld Reg.glbAxes 3 0 && id / 8 % 8 < 2 ^ s.fld Reg.glbAxes 7 4
    && id / 64 % 16 < 2 ^ s.fld Reg.glbAxes 11 8 && id / 1024 < 2 ^ s.fld Reg.glbAxes 15 12

/-- Reads a 64-bit address as R242 and R170 do: an own fabric address is the local address beneath it. -/
def fabric (s : State) (a : W64) : FabAddr :=
  let v := a.toNat
  if v / 2 ^ 48 = 0 then .loc v
  else
    let id := bits v 62 50
    if bits v 49 48 ≠ 0 ∨ idInSystem s id = false then .bad
    else if id = ownId s then .loc (v % 2 ^ 48)
    else .peer id (v % 2 ^ 48)

end Sys2Proof.Machine
end

