-- ==== Sys2Proof/Machine/Link.lean ====
section
/-! DEFINITION. Coordinates, routing and the sending of messages on the runner links (R35, R38, R39, R295 to R300,
R302, R377, R453, R496). -/

namespace Sys2Proof.Machine

/-- The coordinate of a device id on an axis (R35). -/
def coordOf (id axis : Nat) : Nat :=
  match axis with
  | 0 => id % 8
  | 1 => id / 8 % 8
  | 2 => id / 64 % 16
  | _ => id / 1024 % 8

/-- The weight of one step along an axis in a device id (R35). -/
def stride (axis : Nat) : Nat :=
  match axis with
  | 0 => 1
  | 1 => 8
  | 2 => 64
  | _ => 1024

/-- A device id with its coordinate on one axis replaced. -/
def withCoord (id axis x : Nat) : Nat := id - coordOf id axis * stride axis + x * stride axis

/-- The size of an axis (GLB_AXES, R40). -/
def axisSize (s : State) (axis : Nat) : Nat := 2 ^ s.fld Reg.glbAxes (4 * axis + 3) (4 * axis)

/-- The virtual channel of R296: an axis's when the coordinates differ on it alone, else VC6. -/
def dataVc (src dst : Nat) : Nat :=
  match (upFrom 0 4).filter fun x => coordOf src x != coordOf dst x with
  | [x] => x + 1
  | _ => 6

/-- The job set's lowest and highest coordinate on an axis (RUN_JOB_SET, R496). -/
def jobRange (s : State) (axis : Nat) : Nat × Nat :=
  match axis with
  | 0 => (s.fld Reg.runJobSet 2 0, s.fld Reg.runJobSet 5 3)
  | 1 => (s.fld Reg.runJobSet 8 6, s.fld Reg.runJobSet 11 9)
  | 2 => (s.fld Reg.runJobSet 15 12, s.fld Reg.runJobSet 19 16)
  | _ => (s.fld Reg.runJobSet 22 20, s.fld Reg.runJobSet 25 23)

/-- A device id lies in the job set. -/
def inJobSet (s : State) (id : Nat) : Bool :=
  (upFrom 0 4).all fun x => (jobRange s x).1 ≤ coordOf id x && coordOf id x ≤ (jobRange s x).2

/-- The direction of the shorter way from one coordinate to another on a ring of `n`: true for −, which also takes a
tie (R297). -/
def goesMinus (n a b : Nat) : Bool :=
  let plus := (b + n - a) % n
  n - plus ≤ plus

/-- The first hop of dimension order from a device to another: axis and direction (R297). -/
def firstHop (s : State) (src dst : Nat) : Option (Nat × Bool) :=
  ((upFrom 0 4).find? fun x => coordOf src x != coordOf dst x).map fun x =>
    (x, goesMinus (axisSize s x) (coordOf src x) (coordOf dst x))

/-- The first of the two logical ports of an axis and direction (R412). -/
def portOf (axis : Nat) (minus : Bool) : Nat := axis * 4 + b2n minus * 2

/-- The link bound to a logical port (RUN_PORTMAP). -/
def linkOfPort (s : State) (p : Nat) : Option Nat :=
  (upFrom 0 16).find? fun l => s.fld (Reg.runPortmap l) 19 16 == p && s.fld (Reg.runLinkStatus l) 31 30 != 3

/-- A link is UP, in service and not in loopback. -/
def linkUp (s : State) (l : Nat) : Bool :=
  s.fld (Reg.runLinkStatus l) 31 30 == 2 && s.flag (Reg.runLinkCtl l) 0 && !s.flag (Reg.runLinkCtl l) 2

/-- A hop crosses the wrap link of its axis (R297). -/
def wraps (n x : Nat) (minus : Bool) : Bool := if minus then x == 0 else x == n - 1

namespace State
/-- One runner link. -/
def link (s : State) (l : Nat) : Link := Tab.get {} s.links l
/-- Changes one runner link. -/
def modLink (s : State) (l : Nat) (f : Link → Link) : State := { s with links := Tab.modify {} s.links l f }
end State

/-- A link takes traffic: it is UP, or it retrains, which holds its messages without loss (R291). (DEDUCED, log
107.) -/
def linkCarries (s : State) (l : Nat) : Bool :=
  (s.fld (Reg.runLinkStatus l) 31 30 == 2 || (s.fld (Reg.runLinkStatus l) 31 30 == 1 && (s.link l).training))
    && s.flag (Reg.runLinkCtl l) 0 && !s.flag (Reg.runLinkCtl l) 2

/-- A link takes this message: under seal VC1 to VC6 go over sealed links only (R377). -/
def linkTakes (s : State) (m : RunMsg) (l : Nat) : Bool :=
  linkCarries s l && (!s.sealed || m.vc == 0 || m.vc == 7 || s.flag (Reg.runLinkStatus l) 28)

/-- The link a message takes towards a neighbour: (SRC + DEST + STREAM) mod 2, or the other one when that is down
(R298). -/
def chooseLink (s : State) (axis : Nat) (minus : Bool) (m : RunMsg) : Option Nat :=
  let p := portOf axis minus
  let pick := m.src + m.dest + m.stream
  let up (q : Nat) : Option Nat := (linkOfPort s q).filter (linkTakes s m)
  match up (p + pick % 2) with
  | some l => some l
  | none => up (p + (pick + 1) % 2)

/-- Units of 32 bytes a message takes: header, extension and data (R294). -/
def msgUnits (m : RunMsg) : Nat := 1 + b2n m.ext.isSome + (m.data.length + 31) / 32

/-- Credits held for a virtual channel of a link. -/
def credit (s : State) (l v : Nat) : Nat := s.fld (Reg.runVcCredit l v) 15 0

/-- The virtual channel and dateline class of a message, as one number. -/
def vcClass (m : RunMsg) : Nat := 2 * (m.vc % 8) + m.dateline % 2

/-- Units of a channel and class that the far end has not returned. -/
def Link.owedFor (k : Link) (vc : Nat) : Nat := ((k.owed.filter fun e => e.1 == vc).map (·.2)).foldl (· + ·) 0

/-- Returned units of a channel pay for its oldest messages. (DESIGN CHOICE, log 182.) -/
def payOwed (v : Nat) : Nat → List (Nat × Nat) → List (Nat × Nat)
  | _, [] => []
  | n, e :: t =>
    if e.1 / 2 = v then if n < e.2 then (e.1, e.2 - n) :: t else payOwed v (n - e.2) t else e :: payOwed v n t

/-- A message can go into a frame now: the link is UP, credits of its channel cover its whole length within its class's
half of the far end's buffer, and the sender has room among the 1,024 frames it keeps (R291, R295). -/
def canSend (s : State) (l : Nat) (m : RunMsg) : Bool :=
  let k := s.link l
  linkUp s l && msgUnits m ≤ credit s l (m.vc % 8) && k.unacked.length < 1024
    && 2 * (k.owedFor (vcClass m) + msgUnits m) ≤ Tab.get 0 k.total (m.vc % 8)

/-- The time a runner die writes into its own exchange as its frame leaves (R346): T1 of a request, T3 of an answer.
(DEDUCED, log 97.) -/
def stampSync (l : Nat) (m : RunMsg) (s : State) : RunMsg × State :=
  let now := s.copyOf (56 + l % 16 / 4)
  let put (o : Nat) : RunMsg := { m with data := m.data.take o ++ toBytes 8 now.toNat ++ m.data.drop (o + 8) }
  if m.opc = 0x38 ∧ m.src = ownId s then
    match ofBytes (m.data.take 1) with
    | 1 => (put 8, { s with bt := { s.bt with waiting := s.bt.waiting.map fun w => (w.1, now) } })
    | 2 => (put 24, s)
    | _ => (m, s)
  else (m, s)

/-- Puts a message into the frames of a link (R290): it takes credits of its channel and stays unacknowledged.
(DESIGN CHOICE, log 18.) -/
def transmit (l : Nat) (m : RunMsg) (s : State) : State :=
  let r := stampSync l m s
  let m := r.1
  let s := r.2.setFld (Reg.runVcCredit l (m.vc % 8)) 15 0 (credit s l (m.vc % 8) - msgUnits m)
  let seq := (s.link l).txSeq
  let s := s.modLink l fun k =>
    { k with unacked := k.unacked ++ [(seq, m)], txSeq := (seq + 1) % 4096, owed := k.owed ++ [(vcClass m, msgUnits m)],
             sealTx := if s.flag (Reg.runLinkStatus l) 28 then k.sealTx + 1 else k.sealTx,
             lastAck := if k.unacked.isEmpty then s.beat else k.lastAck }
  let s := s.count (0x100 + 8 * l) ((32 * msgUnits m + 63) / 64)
  { s with runOut := s.runOut ++ [(l, m)] }

/-- The deadline of a contribution that this device's collective engine sends has passed (R310): it stays unsent. -/
def sendsLate (s : State) (m : RunMsg) : Bool :=
  m.late != 0 && (let d := (s.beat.toNat / 1024 + 2 ^ 32 - m.late % 2 ^ 32) % 2 ^ 32
                  1 ≤ d && d < 2 ^ 31)

/-- Sends a message on a link (R295): at once when it can go and no earlier message of its channel and class waits,
otherwise it waits. A replaying device sends nothing (R366). -/
def linkSend (l : Nat) (m : RunMsg) (s : State) : State :=
  if s.flag Reg.beatStatus 2 then s
  else if (s.link l).waiting.any (fun w => vcClass w == vcClass m) || !canSend s l m then
    s.modLink l fun k => { k with waiting := k.waiting ++ [m] }
  else transmit l m s

/-- Removes the first element that satisfies a test. -/
def dropFirst {α : Type} (p : α → Bool) : List α → List α
  | [] => []
  | a :: t => if p a then t else a :: dropFirst p t

/-- The first waiting message of a channel that can go: one at the head of its dateline class. -/
def nextOf (s : State) (l v : Nat) : Option RunMsg :=
  let w := (s.link l).waiting
  let head (c : Nat) : Option RunMsg := (w.find? fun m => vcClass m == 2 * v + c).filter (canSend s l)
  w.find? fun m => m.vc % 8 == v && (head 0 == some m || head 1 == some m)

/-- Takes a waiting message out of its queue and sends it. -/
def sendWaiting (l : Nat) (m : RunMsg) (s : State) : State :=
  transmit l m (s.modLink l fun k => { k with waiting := dropFirst (fun w => w == m) k.waiting })

/-- Sends every message of VC0 that can go: it has strict priority. -/
def drainControl (l : Nat) : Nat → State → State
  | 0, s => s
  | fuel + 1, s => match nextOf s l 0 with
    | some m => drainControl l fuel (sendWaiting l m s)
    | none => s

/-- Sends messages of a channel while its turn covers them. -/
def drainVc (l v : Nat) : Nat → State → State
  | 0, s => s
  | fuel + 1, s => match nextOf s l v with
    | some m =>
      if msgUnits m ≤ Tab.get 0 (s.link l).turn v then
        drainVc l v fuel (sendWaiting l m (s.modLink l fun k => { k with turn := Tab.modify 0 k.turn v (· - msgUnits m) }))
      else s
    | none => s.modLink l fun k => { k with turn := Tab.erase k.turn v }

/-- The weight of a channel (RUN_VC_WEIGHT): 0 is taken as 1. -/
def vcWeight (s : State) (v : Nat) : Nat := max 1 (s.fld Reg.runVcWeight (4 * v - 1) (4 * v - 4))

/-- One round over VC1 to VC7: each adds its weight in units to its turn and sends what that covers. (DESIGN
CHOICE, log 182.) -/
def drainRound (l : Nat) (s : State) : State :=
  forEach (fun v s =>
    if (nextOf s l v).isSome then
      drainVc l v (s.link l).waiting.length (s.modLink l fun k => { k with turn := Tab.modify 0 k.turn v (· + vcWeight s v) })
    else s) (upFrom 1 7) s

/-- Rounds until nothing more can go. -/
def drainRounds (l : Nat) : Nat → State → State
  | 0, s => s
  | fuel + 1, s => if (upFrom 1 7).any fun v => (nextOf s l v).isSome then drainRounds l fuel (drainRound l s) else s

/-- Sends every waiting message of a link that can go (R295). -/
def drainLink (l : Nat) (s : State) : State :=
  let n := (s.link l).waiting.length
  drainRounds l (130 * n) (drainControl l n s)

/-- A message the device sends to itself arrives on the local path, in order (R308). -/
def localSend (m : RunMsg) (s : State) : State := { s with localPath := s.localPath ++ [m] }

/-- The quiet period of R453 discards a message of this channel. -/
def quietDrops (s : State) (m : RunMsg) : Bool := s.flag Reg.rsrStatus 6 && 1 ≤ m.vc && m.vc ≤ 6

/-- A message that a device of the route or the destination refuses: NAK to its source with RING, SEQ and the status
(R300); ADDR[63:54] carries the refused opcode, so that a barrier's ID in SEQ is told from a sequence number.
(DESIGN CHOICE, log 53.) -/
def nakOf (own : Nat) (m : RunMsg) (status : Nat) : RunMsg :=
  { opc := 0x3E, vc := 0, dest := m.src, src := own, stream := m.stream, addr := status, ring := m.ring, hi := m.opc,
    seq := m.seq }

/-! ## Routes -/

/-- Where a message goes next: here, nowhere by a REFUSE entry, nowhere because both links of its hop are down, or out
of a link in a dateline class. -/
inductive Hop where
  | here
  | refused
  | down
  | out (l dateline : Nat)
deriving DecidableEq, Repr

/-- The lowest-numbered substitution entry in force for a device id (R302). -/
def substFor (s : State) (id : Nat) : Option Nat :=
  (upFrom 0 32).find? fun i =>
    1 ≤ s.fld (Reg.runSubstW0 i) 31 30 && s.fld (Reg.runSubstW0 i) 31 30 ≤ 2 && s.fld (Reg.runSubstW0 i) 12 0 == id

/-- The link of a logical port that takes a message, or else the other one to the same neighbour (R298, R300). -/
def portLink (s : State) (m : RunMsg) (p : Nat) : Option Nat :=
  let up (q : Nat) : Option Nat := (linkOfPort s q).filter (linkTakes s m)
  match up p with
  | some l => some l
  | none => up (Nat.xor p 1)

/-- The next hop of a message that goes to a neighbour (R297, R298, R302). `arr` is the axis on which it has come in, none at
its origin, where a substitution entry applies. -/
def hopTo (s : State) (arr : Option Nat) (x : Nat) (minus : Bool) (m : RunMsg) : Hop :=
  match (if arr.isNone then substFor s m.dest else none) with
  | some i =>
    if s.fld (Reg.runSubstW0 i) 31 30 = 2 then .refused
    else match portLink s m (s.fld (Reg.runSubstW0 i) 19 16) with
      | some l => .out l (s.fld (Reg.runSubstW1 i) 0 0)
      | none => .down
  | none =>
    match chooseLink s x minus m with
    | none => .down
    | some l =>
      .out l (if wraps (axisSize s x) (coordOf (ownId s) x) minus then 1 else if arr = some x then m.dateline else 0)

/-- The next hop of a message by dimension order (R297). -/
def hopOf (s : State) (arr : Option Nat) (m : RunMsg) : Hop :=
  match firstHop s (ownId s) m.dest with
  | none => .here
  | some (x, d) => hopTo s arr x d m

/-- Sends a NAK or WACK on, or discards it where its hop is down (R300). -/
def sendAnswer (m : RunMsg) (hop : Hop) (s : State) : State :=
  match hop with
  | .here => localSend m s
  | .out l d => linkSend l { m with dateline := d } s
  | _ => s.addSat Reg.runDropCount 1

/-- Refuses a message whose next hop is down: NAK towards its source, or a discard for a NAK or WACK (R300). -/
def refuseHop (m : RunMsg) (s : State) : State :=
  if m.opc = 0x3E ∨ m.opc = 0x06 then s.addSat Reg.runDropCount 1
  else
    let nak := nakOf (ownId s) m 0x16
    sendAnswer nak (hopOf s none nak) s

/-- Sends a message to its next hop; a replaying device sends nothing (R366). -/
def takeHop (m : RunMsg) (hop : Hop) (s : State) : State :=
  match hop with
  | .here => localSend m s
  | .refused => s.addSat Reg.runDropCount 1
  | .down => if s.flag Reg.beatStatus 2 then s else refuseHop m s
  | .out l d => linkSend l { m with dateline := d } s

/-- Sends a message towards its destination (R297, R298, R300, R302). -/
def route (arr : Option Nat) (m : RunMsg) (s : State) : State := takeHop m (hopOf s arr m) s

/-- Hands a message of this device to the fabric: discarded in the quiet period (R453), refused outside a sealed job's
set (R377), otherwise routed. -/
def runSend (m : RunMsg) (s : State) : State :=
  if quietDrops s m then s.addSat Reg.runDropCount 1
  else if s.sealed && 1 ≤ m.vc && m.vc ≤ 6 && !inJobSet s m.dest then localSend (nakOf (ownId s) m 0x16) s
  else route none m s

/-- Sends a message to the neighbour on one side (R305, R306, R317, R328, R346). -/
def neighbourSend (axis : Nat) (minus : Bool) (m : RunMsg) (s : State) : State :=
  if quietDrops s m then s.addSat Reg.runDropCount 1 else takeHop m (hopTo s none axis minus m) s

/-- The way to a device is cut (R78, R302): its entry of the substitution table refuses it, or both links of its first
hop are down. -/
def peerCut (s : State) (id : Nat) : Bool :=
  let dead (p : Nat) : Bool := [p, Nat.xor p 1].all fun q => ((linkOfPort s q).filter (linkCarries s)).isNone
  match substFor s id with
  | some i => s.fld (Reg.runSubstW0 i) 31 30 == 2 || dead (s.fld (Reg.runSubstW0 i) 19 16)
  | none => match firstHop s (ownId s) id with
    | some (x, d) => dead (portOf x d)
    | none => false

end Sys2Proof.Machine
end

