-- ==== Sys2Proof/Machine/CoreOps.lean ====
section
/-! DEFINITION. Shared operations of a tile core: register files, retirement, conditions, traps, waits, and the issue
of one instruction (R189, R191 to R198, R220, R221). -/

namespace Sys2Proof.Machine

namespace Core
/-- Writes an x register; x0 discards (Table 0.4). -/
def setX (k : Core) (r : Nat) (v : W64) : Core := if r = 0 then k else { k with x := Tab.set 0 k.x r v }
/-- An f register. -/
def fr (k : Core) (r : Nat) : W32 := Tab.get 0 k.f r
/-- Writes an f register. -/
def setF (k : Core) (r : Nat) (v : W32) : Core := { k with f := Tab.set 0 k.f r v }
/-- A predicate register. -/
def pr (k : Core) (r : Nat) : W64 := Tab.get 0 k.p r
/-- Writes a predicate register. -/
def setP (k : Core) (r : Nat) (v : W64) : Core := { k with p := Tab.set 0 k.p r v }
/-- A vector register. -/
def vr (k : Core) (r : Nat) : W2048 := Tab.get 0 k.v r
/-- Writes a vector register. -/
def setV (k : Core) (r : Nat) (v : W2048) : Core := { k with v := Tab.set 0 k.v r v }
/-- A descriptor register. -/
def dr (k : Core) (r : Nat) : W512 := Tab.get 0 k.d r
/-- Writes a descriptor register. -/
def setD (k : Core) (r : Nat) (v : W512) : Core := { k with d := Tab.set 0 k.d r v }
/-- A run-time shape register. -/
def kr (k : Core) (r : Nat) : KShape := Tab.get {} k.k r
/-- Writes a run-time shape register. -/
def setK (k : Core) (r : Nat) (v : KShape) : Core := { k with k := Tab.set {} k.k r v }
/-- An accumulator tile. -/
def tile (k : Core) (t : Nat) : Tile := Tab.get {} k.tiles t
/-- Replaces an accumulator tile. -/
def setTile (k : Core) (t : Nat) (v : Tile) : Core := { k with tiles := Tab.set {} k.tiles t v }
/-- A weight plane. -/
def plane (k : Core) (p : Nat) : Plane := Tab.get {} k.planes p
/-- Replaces a weight plane. -/
def setPlane (k : Core) (p : Nat) (v : Plane) : Core := { k with planes := Tab.set {} k.planes p v }
/-- A byte of the operand buffer. -/
def obByte (k : Core) (a : Nat) : Byte := Tab.get 0 k.ob a
/-- Writes a byte of the operand buffer. -/
def setObByte (k : Core) (a : Nat) (b : Byte) : Core := { k with ob := Tab.set 0 k.ob a b }
/-- The tile HELD bit (Table 5.11). -/
def held (k : Core) : Bool := k.tileHi.getLsbD 31
/-- Clears HELD. -/
def clearHeld (k : Core) : Core := { k with tileHi := k.tileHi &&& 0x7FFFFFFF#32 }
/-- The tile index of R188: 0 before the first TAKE of the dispatch. -/
def srTile (k : Core) : Nat := if k.took then k.tileLo.toNat else 0

/-- Adds an instruction's conditions to the sticky flags and counters (R118, R220). -/
def raise (k : Core) (c : Conds) : Core :=
  { k with nv := k.nv || c.nv, ov := k.ov || c.ov, sat := k.sat || c.sat, nanIn := k.nanIn || c.nanIn,
           nonfinite := BitVec.ofNat 32 (satAdd 32 k.nonfinite.toNat c.nonfinite),
           flushed := BitVec.ofNat 32 (satAdd 32 k.flushed.toNat c.flushed) }

/-- A condition whose trap enable is set (R221). -/
def arithTrap (k : Core) (c : Conds) : Bool :=
  (k.trapEn.getLsbD 0 && c.nv) || (k.trapEn.getLsbD 1 && c.ov) || (k.trapEn.getLsbD 2 && c.sat)
    || (k.trapEn.getLsbD 3 && c.nanIn) || (k.trapEn.getLsbD 4 && c.nonfinite != 0)

/-- Retires an instruction of `len` bytes: the next one follows it (R197). -/
def retire (k : Core) (len : Nat) (now : W64) : Core :=
  { k with pc := k.pc + BitVec.ofNat 64 len, retired := k.retired + 1, lastRetire := now }

/-- What the core's units have not done yet is dropped (R189). -/
def dropQueues (k : Core) : Core := { k with dmaQ := [], mxeQ := [], vecQ := [] }

/-- A core that has trapped (R189): the cause and the instruction's offset are recorded, its tile and queues given up. -/
def trapped (k : Core) (cause : Nat) (pc : W64) : Core :=
  { k.clearHeld.dropQueues with
    mode := .trapped, hold := none, stopping := false, prev := true, trapValid := true, trapCause := cause, trapPc := pc.setWidth 32 }

/-- The core's part of its dispatch has ended: it keeps its counts, whose tag becomes PREV (R357). -/
def endPart (k : Core) : Core := { k.clearHeld.dropQueues with mode := .idle, hold := none, stopping := false, prev := true }
end Core

namespace Cause
/-! Trap causes of Table 5.5. -/
def illegal : Nat := 0x01
def format : Nat := 0x02
def pair : Nat := 0x03
def shape : Nat := 0x04
def shapeRt : Nat := 0x05
def mode : Nat := 0x06
def tileRange : Nat := 0x07
def accShape : Nat := 0x08
def planeInvalid : Nat := 0x09
def operandRange : Nat := 0x0A
def vDet : Nat := 0x0B
def arith : Nat := 0x0C
def takeLimit : Nat := 0x0D
def windowAccess : Nat := 0x10
def translation : Nat := 0x11
def privilege : Nat := 0x12
def remoteLoad : Nat := 0x13
def poison : Nat := 0x18
def coreFault : Nat := 0x20
end Cause

namespace State
/-- A running dispatch. -/
def disp (s : State) (d : Nat) : Disp := Tab.get {} s.disps d
/-- Changes a running dispatch. -/
def modDisp (s : State) (d : Nat) (f : Disp → Disp) : State := { s with disps := Tab.modify {} s.disps d f }
end State

/-- A DISPATCH trace record of a core: its start (0) or end (1) of a part (Table 11.6). -/
def traceCore (c kind : Nat) (s : State) : State :=
  let t := (s.core c).tag.getD (0, 0, 0)
  traceEmit 0x81 (c / 8) c (some c) (t.2.1.toNat + t.1 <<< 32 + kind <<< 40 + (t.2.2 % 2 ^ 16) <<< 48) s

/-- Stops one core at its instruction boundary (R189): nothing further is issued and its held tile is given up without
a commit. (DEDUCED, log 16.) -/
def stopCore (c : Nat) (s : State) : State :=
  let k := s.core c
  if k.mode = .running then traceCore c 1 (s.setCore c k.endPart) else s

/-- Sends the stop to every core of a dispatch but one (R189): each issues nothing further. (DEDUCED, log 16.) -/
def stopOthers (d c : Nat) (s : State) : State :=
  forEach (fun c s => s.modCore c fun k => { k with stopping := k.mode == .running })
    ((s.disp d).started.filter (· != c)) s

/-- The stop reaches the listed cores. (DEDUCED, log 16.) -/
def reachStop (l : List Nat) (s : State) : State :=
  forEach (fun c s => if (s.core c).stopping then stopCore c s else s) l s

/-- A trap (R189): the core records the cause and the instruction's offset and enters TRAPPED; the first trap of the
dispatch decides its status, and the rest of the set is stopped. -/
def trapAt (c cause : Nat) (pc : W64) (s : State) : State :=
  let k := s.core c
  if k.trapValid then s
  else
    let s := s.setCore c (k.trapped cause pc)
    let s := traceCore c 1 s
    match k.disp with
    | none => s
    | some d =>
      let s := s.modDisp d fun r => { r with trap := if r.trap.isSome then r.trap else some (cause, c) }
      stopOthers d c s

/-- A trap at the core's present instruction. -/
def trap (c cause : Nat) (s : State) : State := trapAt c cause (s.core c).pc s

/-- Retires the present instruction after a change of its core. -/
def finish (c len : Nat) (f : Core → Core) (s : State) : State :=
  s.setCore c ((f { s.core c with hold := none }).retire len s.beat)

/-- The present instruction has been given to a unit (R197): the next one may issue; it retires when the unit is done. -/
def issued (c len : Nat) (f : Core → Core) (s : State) : State :=
  let k := f { s.core c with hold := none }
  s.setCore c { k with pc := k.pc + BitVec.ofNat 64 len }

/-- Retires the present instruction with the conditions it raised; an enabled one traps ARITH at it (R221).
(DEDUCED, log 15.) -/
def finishWith (c len : Nat) (cd : Conds) (f : Core → Core) (s : State) : State :=
  let pc := (s.core c).pc
  let s := finish c len (fun k => (f k).raise cd) s
  if (s.core c).arithTrap cd then trapAt c Cause.arith pc s else s

/-- The core waits in its present instruction; `markT` when the wait is one marked T (R183). (DEDUCED, log 12;
DEDUCED, log 30.) -/
def holdIn (c w e : Nat) (markT : Bool) (s : State) : State :=
  s.modCore c fun k =>
    { k with hold := some { w := BitVec.ofNat 64 w, e := BitVec.ofNat 64 e, markT := markT,
                            met := match k.hold with | some h => h.met | none => false } }

/-- The core waits in its present instruction for a granule of its operand buffer (R167). -/
def holdGranule (c w e : Nat) (markT : Bool) (s : State) : State :=
  (holdIn c w e markT s).modCore c fun k => { k with hold := k.hold.map fun h => { h with granule := true } }

/-- The present code offset lies inside the kernel's code (R191). -/
def pcInRange (k : Core) (len : Nat) : Bool :=
  let off := k.pc.toInt + k.entry
  0 ≤ off && off + len ≤ k.codeBytes

/-- Cores whose instructions the present state lets issue: running, not waiting, and not being stopped (R189). -/
def canIssue (k : Core) : Bool := k.mode == .running && k.hold.isNone && !k.stopping

/-- The guard of R194 lets the instruction execute. -/
def guardTrue (k : Core) (w : Nat) : Bool :=
  Iw.guard w == 0 || (k.pr (Iw.guard w % 8)).getLsbD 0

/-- The effect of one instruction on the state, given its core and words. -/
abbrev Body := Nat → Nat → Nat → State → State

/-- The instruction makes an access to the Crucible. -/
def CoreOp.reaches (op : CoreOp) (w : Nat) : Bool :=
  match op with
  | .ld | .st | .vld | .vst | .dld | .dst => !Iw.ob w
  | .mwait | .npost | .npop | .take | .amoAdd | .amoFadd | .amoCas | .sqres | .sqpub | .sqpop | .sqrel => true
  | _ => false

/-- The debug port has halted the core and not asked for a step (Table 12.12). -/
def debugHolds (s : State) (c : Nat) : Bool := s.dbg.halted.contains c && !s.dbg.stepping.contains c

/-- A step that the debug port asked for has been taken. -/
def stepTaken (c : Nat) (s : State) : State :=
  { s with dbg := { s.dbg with stepping := s.dbg.stepping.filter (· != c) } }

/-- Issues one instruction of the row `op` (R191 to R194). A word of another row is not this event; an unassigned
opcode, a reserved value or an offset outside the code traps ILLEGAL; a false guard only retires. (DESIGN CHOICE,
log 14; DEDUCED, log 39.) -/
def issue (op : CoreOp) (body : Body) (c : Nat) (w e : W64) (s : State) : State :=
  let k := s.core c
  let n := w.toNat
  if canIssue k = false ∨ debugHolds s c = true then s
  else if pcInRange k 8 = false then trap c Cause.illegal (stepTaken c s)
  else if bits n 63 56 = 0xFF then trap c Cause.illegal (stepTaken c s)
  else match coreOp n with
    | none => trap c Cause.illegal (stepTaken c s)
    | some o =>
      if o ≠ op then s
      else
        let s := stepTaken c s
        let len := if op.wide then 16 else 8
        if bit n 63 ≠ op.wide ∨ (op.wide = true ∧ (bits e.toNat 63 56 ≠ 0xFF ∨ pcInRange k 16 = false)) then
          trap c Cause.illegal s
        else if (1 ≤ Iw.guard n ∧ Iw.guard n < 8) ∨ coreLegal op n e.toNat = false then trap c Cause.illegal s
        else if guardTrue k n = false then finish c len id s
        else if cruHolds s && op.reaches n then holdIn c n e.toNat true (hold (.core c) s)
        else body c n e.toNat s

/-- A transfer of control to a code offset (R196): one outside the code or misaligned traps ILLEGAL at the transfer. -/
def jumpTo (c : Nat) (target : W64) (f : Core → Core) (s : State) : State :=
  let k := s.core c
  if target.toNat % 8 ≠ 0 ∨ pcInRange { k with pc := target } 8 = false then trap c Cause.illegal s
  else s.setCore c { (f k).retire 8 s.beat with pc := target, hold := none }

end Sys2Proof.Machine
end

