-- ==== Sys2Proof/Machine/CoreScalar.lean ====
section
/-! DEFINITION. Scalar, predicate, control and system instructions of a tile core (R204, R219, Tables 6.5 and 6.16). -/

namespace Sys2Proof.Machine

/-- The integer operations of Table 6.5 by FN, 64-bit and wrapping. -/
def intOp (fn : Nat) (a b : W64) : W64 :=
  match fn with
  | 0x00 => a + b
  | 0x01 => a - b
  | 0x02 => a * b
  | 0x03 => BitVec.ofNat 64 (a.toNat * b.toNat / 2 ^ 64)
  | 0x04 => a &&& b
  | 0x05 => a ||| b
  | 0x06 => a ^^^ b
  | 0x07 => a <<< (b.toNat % 64)
  | 0x08 => a >>> (b.toNat % 64)
  | 0x09 => a.sshiftRight (b.toNat % 64)
  | 0x0A => if a.toInt ≤ b.toInt then a else b
  | 0x0B => if a.toInt ≤ b.toInt then b else a
  | 0x0C => if a.toNat ≤ b.toNat then a else b
  | _ => if a.toNat ≤ b.toNat then b else a

/-- The comparisons of `pcmp` and `br`: eq, ne, lt, ge, ltu, geu. -/
def intCond (c : Nat) (a b : W64) : Bool :=
  match c with
  | 0 => a == b
  | 1 => a != b
  | 2 => a.toInt < b.toInt
  | 3 => b.toInt ≤ a.toInt
  | 4 => a.toNat < b.toNat
  | _ => b.toNat ≤ a.toNat

/-- All ones or zero. -/
def ones (b : Bool) : W64 := if b then BitVec.allOnes 64 else 0

/-- IMM32 sign-extended. -/
def immS (w : Nat) : W64 := (BitVec.ofNat 32 (Iw.imm32 w)).signExtend 64

/-- `nop`. -/
def bodyNop : Body := fun c _ _ s => finish c 8 id s
/-- `add` to `maxu`. -/
def bodyIntAlu : Body := fun c w _ s =>
  finish c 8 (fun k => k.setX (Iw.rd w) (intOp (Iw.fn w) (k.xr (Iw.ra w)) (k.xr (Iw.rb w)))) s
/-- `addi` to `maxui`. -/
def bodyIntAluImm : Body := fun c w _ s =>
  finish c 8 (fun k => k.setX (Iw.rd w) (intOp (Iw.fnI w) (k.xr (Iw.ra w)) (immS w))) s
/-- `li`. -/
def bodyLi : Body := fun c w _ s => finish c 8 (fun k => k.setX (Iw.rd w) (immS w)) s
/-- `lui`. -/
def bodyLui : Body := fun c w _ s =>
  finish c 8 (fun k => k.setX (Iw.rd w)
    (BitVec.ofNat 64 (Iw.imm32 w * 2 ^ 32 + (k.xr (Iw.ra w)).toNat % 2 ^ 32))) s
/-- `lid`. -/
def bodyLid : Body := fun c w e s =>
  finish c 16 (fun k => k.setX (Iw.rd w) (BitVec.ofNat 64 (Iw.imm32 w + (bits e 31 0) * 2 ^ 32))) s
/-- `pcmp`. -/
def bodyPcmp : Body := fun c w _ s =>
  finish c 8 (fun k => k.setP (Iw.rd w) (ones (intCond (Iw.fn w) (k.xr (Iw.ra w)) (k.xr (Iw.rb w))))) s
/-- `pand`, `por`, `pxor`, `pnot`. -/
def bodyPredicateLogic : Body := fun c w _ s =>
  finish c 8 (fun k =>
    let a := k.pr (Iw.ra w)
    let b := k.pr (Iw.rb w)
    k.setP (Iw.rd w) (match Iw.fn w with
      | 0 => a &&& b
      | 1 => a ||| b
      | 2 => a ^^^ b
      | _ => ~~~a)) s
/-- `pget`. -/
def bodyPget : Body := fun c w _ s => finish c 8 (fun k => k.setX (Iw.rd w) (k.pr (Iw.ra w))) s
/-- `pset`. -/
def bodyPset : Body := fun c w _ s => finish c 8 (fun k => k.setP (Iw.rd w) (k.xr (Iw.ra w))) s
/-- `sel`. -/
def bodySel : Body := fun c w _ s =>
  finish c 8 (fun k =>
    k.setX (Iw.rd w) (if (k.pr (Iw.rc w)).getLsbD 0 then k.xr (Iw.ra w) else k.xr (Iw.rb w))) s

/-- The scalar float operations of Table 6.5 by FN on FP32 codes. -/
def floatOp (fn a b c : Nat) : Nat × Conds :=
  let F := FFmt.fp32
  match fn with
  | 0 => fadd F a b
  | 1 => fsub F a b
  | 2 => fmul F a b
  | 3 => ffma F a b c
  | 4 => fmin F a b
  | 5 => fmax F a b
  | 6 => fdiv F a b
  | 7 => fsqrt F a
  | _ => fexp a

/-- `fadd` to `fexp`. -/
def bodyScalarFloatOp : Body := fun c w _ s =>
  let k := s.core c
  let r := floatOp (Iw.fn w) (k.fr (Iw.ra w)).toNat (k.fr (Iw.rb w)).toNat (k.fr (Iw.rc w)).toNat
  finishWith c 8 r.2 (fun k => k.setF (Iw.rd w) (BitVec.ofNat 32 r.1)) s
/-- `fcvt.f.x`. -/
def bodyFcvtFX : Body := fun c w _ s =>
  finish c 8 (fun k =>
    k.setF (Iw.rd w) (BitVec.ofNat 32 (FFmt.fp32.rne (Val.ofInt (k.xr (Iw.ra w)).toInt)).1)) s
/-- `fcvt.x.f`. -/
def bodyFcvtXF : Body := fun c w _ s =>
  let r := (IFmt.mk 64 true).encode .rtz 0 (FFmt.fp32.decode ((s.core c).fr (Iw.ra w)).toNat)
  finishWith c 8 r.2 (fun k => k.setX (Iw.rd w) (BitVec.ofNat 64 r.1)) s
/-- `fmv.x.f`. -/
def bodyFmvXF : Body := fun c w _ s =>
  finish c 8 (fun k => k.setX (Iw.rd w) ((k.fr (Iw.ra w)).setWidth 64)) s
/-- `fmv.f.x`. -/
def bodyFmvFX : Body := fun c w _ s =>
  finish c 8 (fun k => k.setF (Iw.rd w) ((k.xr (Iw.ra w)).setWidth 32)) s

/-- The comparisons of `fcmp`: eq, lt, le, unordered. -/
def floatCond (c : Nat) (a b : Val) : Bool :=
  if Val.unordered a b then c == 3
  else match c with
    | 0 => Val.cmp a b == .eq
    | 1 => Val.cmp a b == .lt
    | 2 => Val.cmp a b != .gt
    | _ => false

/-- `fcmp`. -/
def bodyFcmp : Body := fun c w _ s =>
  finish c 8 (fun k =>
    k.setP (Iw.rd w) (ones (floatCond (Iw.fn w) (FFmt.fp32.decode (k.fr (Iw.ra w)).toNat)
      (FFmt.fp32.decode (k.fr (Iw.rb w)).toNat)))) s
/-- `fli`. -/
def bodyFli : Body := fun c w _ s => finish c 8 (fun k => k.setF (Iw.rd w) (BitVec.ofNat 32 (Iw.imm32 w))) s

/-- The target of a format B transfer: relative to the instruction. -/
def branchTarget (k : Core) (w : Nat) : W64 := k.pc + BitVec.ofInt 64 (Iw.offs w)

/-- `br`. -/
def bodyBr : Body := fun c w _ s =>
  let k := s.core c
  if intCond (Iw.cond w) (k.xr (Iw.bra w)) (k.xr (Iw.brb w)) then jumpTo c (branchTarget k w) id s
  else finish c 8 id s
/-- `bp`. -/
def bodyBp : Body := fun c w _ s =>
  let k := s.core c
  if (k.pr (Iw.bra w)).getLsbD 0 then jumpTo c (branchTarget k w) id s else finish c 8 id s
/-- `bpn`. -/
def bodyBpn : Body := fun c w _ s =>
  let k := s.core c
  if (k.pr (Iw.bra w)).getLsbD 0 then finish c 8 id s else jumpTo c (branchTarget k w) id s
/-- `jmp`. -/
def bodyJmp : Body := fun c w _ s => jumpTo c (branchTarget (s.core c) w) id s
/-- `call`. -/
def bodyCallInst : Body := fun c w _ s =>
  let k := s.core c
  jumpTo c (branchTarget k w) (fun k => k.setX 31 (k.pc + 8)) s
/-- `jr`. -/
def bodyJr : Body := fun c w _ s => jumpTo c ((s.core c).xr (Iw.ra w)) id s

/-- `srseed` (Table 6.14). -/
def bodySrseed : Body := fun c w _ s => finish c 8 (fun k => { k with srSeed := k.xr (Iw.ra w) }) s
/-- `kset` (R219). -/
def bodyKset : Body := fun c w _ s =>
  finish c 8 (fun k => k.setK (Iw.rd w)
    { m := (k.xr (Iw.ra w)).setWidth 32, n := (k.xr (Iw.rb w)).setWidth 32, k := (k.xr (Iw.rc w)).setWidth 32 }) s
/-- `kget` (R219). -/
def bodyKget : Body := fun c w _ s =>
  finish c 8 (fun k =>
    let sh := k.kr (Iw.ra w)
    k.setX (Iw.rd w) ((match Iw.imm24 w with | 0 => sh.m | 1 => sh.n | _ => sh.k).setWidth 64)) s
/-- `trapen` (R219). -/
def bodyTrapen : Body := fun c w _ s => finish c 8 (fun k => { k with trapEn := BitVec.ofNat 5 (Iw.imm32 w) }) s
/-- `flags` (R219). -/
def bodyFlags : Body := fun c w _ s =>
  finish c 8 (fun k => k.setX (Iw.rd w)
    (BitVec.ofNat 64 (b2n k.nv + 2 * b2n k.ov + 4 * b2n k.sat + 8 * b2n k.nanIn + 256 * b2n k.det))) s

/-- The position of a descriptor field by selector: bit offset and width (Table 6.4). -/
def descField (sel : Nat) : Nat × Nat :=
  match sel with
  | 0 => (0, 64) | 1 => (64, 64) | 2 => (128, 32) | 3 => (160, 32) | 4 => (192, 16) | 5 => (208, 16)
  | 6 => (224, 16) | 7 => (240, 8) | 8 => (248, 8) | 9 => (256, 16) | 10 => (272, 16) | 11 => (288, 32)
  | 12 => (320, 32) | _ => (352, 32)

/-- `dset` (R203). -/
def bodyDset : Body := fun c w _ s =>
  finish c 8 (fun k =>
    let f := descField (Iw.fn w)
    k.setD (Iw.rd w)
      (BitVec.ofNat 512 (putBits (k.dr (Iw.rd w)).toNat (f.1 + f.2 - 1) f.1 (k.xr (Iw.ra w)).toNat))) s
/-- `dget` (R201). -/
def bodyDget : Body := fun c w _ s =>
  finish c 8 (fun k =>
    let f := descField (Iw.fn w)
    k.setX (Iw.rd w) (BitVec.ofNat 64 (bits (k.dr (Iw.ra w)).toNat (f.1 + f.2 - 1) f.1))) s

end Sys2Proof.Machine
end

