-- ==== Sys2Proof/Machine/CoreVector.lean ====
section
/-! DEFINITION. Vector, conversion and quantisation instructions of a tile core (R212 to R214, R122, R123). Results
are written at issue; the instruction stays in the vector queue until it retires (R197), where it raises its
conditions. -/

namespace Sys2Proof.Machine

/-- The lanes of a register of `w`-bit elements, lane 0 first (R212). -/
def lanes (w n : Nat) (v : W2048) : List Nat := (upFrom 0 n).map fun i => (v.extractLsb' (w * i) w).toNat

/-- A register from its `w`-bit lanes, lane 0 first; the bits above are zero. -/
def packLanes (w : Nat) : List Nat → Nat
  | [] => 0
  | x :: t => x % 2 ^ w + 2 ^ w * packLanes w t

/-- A register from its lanes. -/
def ofLanes (w : Nat) (l : List Nat) : W2048 := BitVec.ofNat 2048 (packLanes w l)

/-- Lane width of a TYPE (R212). -/
def laneBits (ty : Nat) : Nat := if ty = 1 ∨ ty = 2 then 16 else 32

/-- The float layout of a TYPE. -/
def laneFmt (ty : Nat) : FFmt := match ty with | 1 => .bf16 | 2 => .fp16 | _ => .fp32

/-- 32-bit lane `j` is enabled (ME, MP). -/
def laneOn (k : Core) (w j : Nat) : Bool := !Iw.me w || (k.pr (Iw.mp w)).getLsbD j

/-- The vector queue holds 8 instructions (R197). -/
def vecFull (k : Core) : Bool := 8 ≤ k.vecQ.length

/-- Issues into the vector queue: the results are written, the conditions wait for retirement (R221). -/
def vecIssue (c w : Nat) (cd : Conds) (f : Core → Core) (s : State) : State :=
  let k := s.core c
  if vecFull k then holdIn c w 0 false s
  else issued c 8 (fun k => { f k with vecQ := k.vecQ ++ [{ pc := k.pc, conds := cd }] }) s

/-- Applies a lane function where lanes are enabled and keeps VD elsewhere, with the conditions of the enabled lanes. -/
def mapLanes (on : Nat → Bool) (per : Nat) (f : Nat → Nat × Conds) : Nat → List Nat → List Nat × Conds
  | _, [] => ([], .none)
  | i, old :: t =>
    let r := mapLanes on per f (i + 1) t
    if on (i / per) then
      let v := f i
      (v.1 :: r.1, v.2.join r.2)
    else (old :: r.1, r.2)

/-- The lane arithmetic of FN 0x00 to 0x0D in a float TYPE. -/
def vecFloat (F : FFmt) (fn a b c : Nat) : Nat × Conds :=
  match fn with
  | 0x00 => fadd F a b
  | 0x01 => fsub F a b
  | 0x02 => fmul F a b
  | 0x03 => ffma F a b c
  | 0x04 => fmin F a b
  | 0x05 => fmax F a b
  | 0x06 => F.rne (F.decode a).abs
  | 0x07 => F.rne (F.decode a).neg
  | 0x08 => fdiv F a b
  | 0x09 => fsqrt F a
  | 0x0A => fexp a
  | 0x0B => frelu F a
  | 0x0C => fsilu a
  | _ => fgelu a

/-- The INT32 lane operations of FN 0x0E to 0x13. -/
def vecBits (fn a b : Nat) : Nat :=
  let x := BitVec.ofNat 32 a
  let y := BitVec.ofNat 32 b
  (match fn with
  | 0x0E => x &&& y
  | 0x0F => x ||| y
  | 0x10 => x ^^^ y
  | 0x11 => x <<< (b % 32)
  | 0x12 => x >>> (b % 32)
  | _ => x.sshiftRight (b % 32)).toNat

/-- A lane-wise operation on VA, VB, VC into VD. -/
def vecLanewise (c w : Nat) (f : Nat → Nat → Nat → Nat × Conds) (s : State) : State :=
  let k := s.core c
  let b := laneBits (Iw.ty w)
  let n := 2048 / b
  let la := lanes b n (k.vr (Iw.ra w))
  let lb := lanes b n (k.vr (Iw.rb w))
  let lc := lanes b n (k.vr (Iw.rc w))
  let r := mapLanes (laneOn k w) (32 / b) (fun i => f (la.getD i 0) (lb.getD i 0) (lc.getD i 0)) 0
    (lanes b n (k.vr (Iw.rd w)))
  vecIssue c w r.2 (fun k => k.setV (Iw.rd w) (ofLanes b r.1)) s

/-- `vadd` to `vneg`. -/
def bodyVectorArith : Body := fun c w _ s => vecLanewise c w (vecFloat (laneFmt (Iw.ty w)) (Iw.fnV w)) s
/-- `vdiv`, `vsqrt`. -/
def bodyVectorDivSqrt : Body := fun c w _ s => vecLanewise c w (vecFloat .fp32 (Iw.fnV w)) s
/-- `vexp`, `vrelu`, `vsilu`, `vgelu`. -/
def bodyVectorFunction : Body := fun c w _ s => vecLanewise c w (vecFloat (laneFmt (Iw.ty w)) (Iw.fnV w)) s
/-- `vand` to `vsra`. -/
def bodyVectorBitwise : Body := fun c w _ s => vecLanewise c w (fun a b _ => (vecBits (Iw.fnV w) a b, .none)) s
/-- `vmov`. -/
def bodyVmov : Body := fun c w _ s => vecLanewise c w (fun a _ _ => (a, .none)) s

/-- The comparisons of `vcmp`: eq, ne, lt, le. -/
def vecCond (ty fn a b : Nat) : Bool :=
  if ty = 3 then
    let x := sext 32 a
    let y := sext 32 b
    match fn with | 0 => x == y | 1 => x != y | 2 => x < y | _ => x ≤ y
  else
    let x := FFmt.fp32.decode a
    let y := FFmt.fp32.decode b
    if Val.unordered x y then fn == 1
    else match fn with
      | 0 => Val.cmp x y == .eq
      | 1 => Val.cmp x y != .eq
      | 2 => Val.cmp x y == .lt
      | _ => Val.cmp x y != .gt

/-- A predicate from its bits, bit 0 first. -/
def ofPred : List Bool → Nat
  | [] => 0
  | b :: t => b2n b + 2 * ofPred t

/-- `vcmp`. -/
def bodyVcmp : Body := fun c w _ s =>
  let k := s.core c
  let la := lanes 32 64 (k.vr (Iw.ra w))
  let lb := lanes 32 64 (k.vr (Iw.rb w))
  let p := ofPred ((upFrom 0 64).map fun j =>
    laneOn k w j && vecCond (Iw.ty w) (Iw.fnV w) (la.getD j 0) (lb.getD j 0))
  vecIssue c w .none (fun k => k.setP (Iw.rd w) (BitVec.ofNat 64 p)) s

/-- `vsel`: 32-bit lane j from VA where bit j of the predicate is 1. (DESIGN CHOICE, log 191.) -/
def bodyVsel : Body := fun c w _ s =>
  let k := s.core c
  let la := lanes 32 64 (k.vr (Iw.ra w))
  let lb := lanes 32 64 (k.vr (Iw.rb w))
  let r := mapLanes (laneOn k w) 1
    (fun j => (if (k.pr (Iw.rc w)).getLsbD j then la.getD j 0 else lb.getD j 0, .none)) 0 (lanes 32 64 (k.vr (Iw.rd w)))
  vecIssue c w .none (fun k => k.setV (Iw.rd w) (ofLanes 32 r.1)) s

/-- `vbcast` (R213): FN 0 copies raw bits; FN 1 copies an f register's bits, rounded once to a 16-bit TYPE.
(DEDUCED, log 38.) -/
def bodyVbcast : Body := fun c w _ s =>
  let k := s.core c
  let raw : Nat × Conds :=
    if Iw.fnV w = 0 then ((k.xr (Iw.xs w)).toNat % 2 ^ 32, .none)
    else
      let v := (k.fr (Iw.xs w)).toNat
      if laneBits (Iw.ty w) = 16 then
        let r := (laneFmt (Iw.ty w)).encode .rne 0 false (FFmt.fp32.decode v)
        (r.1 + r.1 * 2 ^ 16, r.2)
      else (v, .none)
  let r := mapLanes (laneOn k w) 1 (fun _ => (raw.1, .none)) 0 (lanes 32 64 (k.vr (Iw.rd w)))
  vecIssue c w raw.2 (fun k => k.setV (Iw.rd w) (ofLanes 32 r.1)) s

/-- `vlane`: one 32-bit lane into a scalar register named by RB. (DESIGN CHOICE, log 191.) -/
def bodyVlane : Body := fun c w _ s =>
  let k := s.core c
  let v := (lanes 32 64 (k.vr (Iw.ra w))).getD (Iw.imm11 w) 0
  vecIssue c w .none (fun k => k.setX (Iw.rb w) (BitVec.ofNat 64 v)) s

/-- `vred.sum`, `vred.max`, `vred.min` (R149): disabled lanes are +0 in a sum and ignored otherwise. -/
def bodyVred : Body := fun c w _ s =>
  let k := s.core c
  let la := lanes 32 64 (k.vr (Iw.ra w))
  let live := (upFrom 0 64).filter (laneOn k w)
  let r : Nat × Conds :=
    match Iw.fnV w with
    | 0 => treeSum 6 ((upFrom 0 64).map fun j => if laneOn k w j then la.getD j 0 else 0)
    | 1 => (listMax 0xFF800000 (live.map fun j => la.getD j 0), .none)
    | _ => (listMin 0x7F800000 (live.map fun j => la.getD j 0), .none)
  vecIssue c w r.2 (fun k => k.setF (Iw.rb w) (BitVec.ofNat 32 r.1)) s

/-- `vred.isum`: the exact sum of the signed INT32 lanes. -/
def bodyVredIsum : Body := fun c w _ s =>
  let k := s.core c
  let la := lanes 32 64 (k.vr (Iw.ra w))
  let sum := (((upFrom 0 64).filter (laneOn k w)).map fun j => sext 32 (la.getD j 0)).sum
  vecIssue c w .none (fun k => k.setX (Iw.rb w) (BitVec.ofInt 64 sum)) s

/-- The rounding mode of a two-bit RND field. -/
def rndOf : Nat → Rnd
  | 0 => .rne
  | 1 => .rtz
  | _ => .sr

/-- The random value of the element at position `pos` for a core (R188). -/
def srOf (k : Core) (pos : Nat) : Nat := srRandom k.srSeed.toNat k.srTile (pos % 2 ^ 64)

/-- The elements of a packed register (R214): `n` elements of the format, from bit 0. -/
def unpack (f : Fmt) (n : Nat) (v : W2048) : List Nat := lanes f.bits n v

/-- `vcvt` (R214): 64 elements, each converted with one rounding. NONFINITE counts its non-finite results (R220). -/
def bodyVcvt : Body := fun c w _ s =>
  let k := s.core c
  match Fmt.ofCode (Iw.cvFrom w), Fmt.ofCode (Iw.cvTo w) with
  | some fr, some dest =>
    let src := unpack fr 64 (k.vr (Iw.ra w))
    let pos := (k.xr (Iw.xs w)).toNat
    let one (i : Nat) : Nat × Conds :=
      let v := fr.elemVal (src.getD i 0)
      let r := convertTo dest (rndOf (Iw.cvRnd w)) (srOf k (pos + i)) (Iw.cvSat w) v
      let nf := match dest.elem with
        | some e => (e.decode r.1).nonfinite
        | none => false
      (r.1, { r.2 with nonfinite := b2n nf })
    let rs := (upFrom 0 64).map one
    vecIssue c w (Conds.joinAll (rs.map (·.2))) (fun k => k.setV (Iw.rd w) (ofLanes dest.bits (rs.map (·.1)))) s
  | _, _ => s

/-- NONFINITE counts of a block written with scale 0xFF: its 32 elements (R220). -/
def blockConds (b : Block × Conds) : Conds :=
  if b.1.entry % 256 = 0xFF then { b.2 with nonfinite := b.2.nonfinite + 32 } else b.2

/-- `vquant` (R214): lanes 0 to 31 and 32 to 63 as two blocks; scale entries to the register RB names. -/
def bodyVquant : Body := fun c w _ s =>
  let k := s.core c
  match Fmt.ofCode (Iw.cvFrom w) with
  | some f =>
    let src := (lanes 32 64 (k.vr (Iw.ra w))).map FFmt.fp32.decode
    let pos := (k.xr (Iw.xs w)).toNat
    let md := rndOf (Iw.cvRnd w)
    let b0 := quantBlock f md (fun i => srOf k (pos + i)) (src.take 32)
    let b1 := quantBlock f md (fun i => srOf k (pos + 32 + i)) (src.drop 32)
    let entries := b0.1.entry + b1.1.entry <<< (8 * f.scaleBytes)
    vecIssue c w ((blockConds b0).join (blockConds b1))
      (fun k => (k.setV (Iw.rd w) (ofLanes f.bits (b0.1.codes ++ b1.1.codes))).setX (Iw.rb w)
        (BitVec.ofNat 64 entries)) s
  | none => s

/-- `vdeq` (R214): decodes two blocks into FP32 lanes. -/
def bodyVdeq : Body := fun c w _ s =>
  let k := s.core c
  match Fmt.ofCode (Iw.cvFrom w) with
  | some f =>
    let src := unpack f 64 (k.vr (Iw.ra w))
    let ent := (k.xr (Iw.rb w)).toNat
    let one (i : Nat) : Nat × Conds :=
      let e := (ent >>> (8 * f.scaleBytes * (i / 32))) % 2 ^ (8 * f.scaleBytes)
      let v := f.entryVal e (i % 32) (src.getD i 0)
      let r := FFmt.fp32.rne v
      (r.1, { r.2 with nanIn := decide (v = .nan) })
    let rs := (upFrom 0 64).map one
    vecIssue c w (Conds.joinAll (rs.map (·.2))) (fun k => k.setV (Iw.rd w) (ofLanes 32 (rs.map (·.1)))) s
  | none => s

end Sys2Proof.Machine
end

