-- ==== Sys2Proof/Machine/CoreMem.lean ====
section
/-! DEFINITION. What a kernel reaches: core addresses (R169 to R171), waits for lines, loads and stores (R205), tensor
descriptors (R201 to R203), and the transfers of the DMA engine (R206, R207, R217). -/

namespace Sys2Proof.Machine

/-! ## Addresses and waits -/

/-- The cause a core traps with for a refused access. -/
def MemErr.cause : MemErr → Nat
  | .window => Cause.windowAccess
  | .unmapped | .translation => Cause.translation
  | .retired | .poison => Cause.poison
  | .regs => Cause.privilege
  | .aperture => Cause.windowAccess

/-- The 48-bit range of register space meets an access (R171). -/
def hitsRegSpace (va n : Nat) : Bool := va < 0x020010000000 && 0x020000000000 < va + n

/-- The address of an access by a kernel, or the cause it traps with (R169 to R171, R242). -/
def coreAddr (s : State) (a : W64) (n : Nat) (load : Bool) : Except Nat FabAddr :=
  if hitsRegSpace (a.toNat % 2 ^ 48) n then .error Cause.privilege
  else match fabric s a with
    | .bad => .error Cause.translation
    | .peer id va => if load then .error Cause.remoteLoad else .ok (.peer id va)
    | .loc va => .ok (.loc va)

/-- A range of the operand buffer that a core's outstanding transfers fill (R167). -/
structure ObRange where
  lo : Nat
  n : Nat
deriving DecidableEq, Repr

/-- Two operand-buffer ranges share a 4 KiB granule. -/
def sameGranule (a b : ObRange) : Bool :=
  a.n != 0 && b.n != 0 && a.lo / 4096 ≤ (b.lo + b.n - 1) / 4096 && b.lo / 4096 ≤ (a.lo + a.n - 1) / 4096

/-- Adds a core to the waiters of an HBM fill (R56). -/
def addMiss (line c : Nat) (s : State) : State :=
  let ms := s.win.misses
  let ms :=
    if ms.any (fun m => m.line == line) then
      updateWhere (fun m => m.line == line)
        (fun m => if m.waiters.contains c then m else { m with waiters := m.waiters ++ [c] }) ms
    else ms ++ [{ line := line, waiters := [c] }]
  { s with win := { s.win with misses := ms } }

/-- Snoops the companion for an aperture line a core waits for (R236). -/
def addSnoop (line : Nat) (inv : Bool) (c : Nat) (s : State) : State :=
  let sn := s.spr.snoops
  let join (m : ApSnoop) : ApSnoop := if m.waiters.contains c then m else { m with waiters := m.waiters ++ [c] }
  if sn.any (fun m => m.line == line) then
    { s with spr := { s.spr with snoops := updateWhere (fun m => m.line == line) join sn } }
  else
    let new : ApSnoop := { line := line, inv := inv, waiters := [c], sentAt := s.beat }
    let s : State := { s with spr := { s.spr with snoops := sn ++ [new] } }
    s.sprSend { opc := if inv then 0x21 else 0x22, addr := line * 64 }

/-- An outstanding request for a companion sector that still serves waiters. -/
def sectorReq (s : State) (sector : Nat) : Option Nat :=
  (List.find? (fun (e : Nat × Option SprReq) =>
    match e.2 with
    | some r => r.addr / 64 == sector % 2 ^ 38 && (r.opc == 1 || r.opc == 2 || r.opc == 3) && !r.snooped && !r.dead
    | none => false) s.spr.reqs).map (·.1)

/-- Requests a companion sector for a core, merging into an outstanding request or one that waits for a tag (R56,
R232). -/
def addSectorReq (opc sector c : Nat) (s : State) : State :=
  let join (l : List Nat) : List Nat := if l.contains c then l else l ++ [c]
  let same (w : SprWait) : Bool := w.msg.addr == sector * 64 % 2 ^ 44 && w.msg.opc ≤ 3
  match sectorReq s sector with
  | some tag =>
    { s with spr := { s.spr with
      reqs := Tab.modify none s.spr.reqs tag (Option.map fun r => { r with waiters := join r.waiters }) } }
  | none =>
    if s.spr.backlog.any same then
      { s with spr := { s.spr with backlog := updateWhere same (fun w => { w with waiters := join w.waiters }) s.spr.backlog } }
    else sprRequest { msg := { opc := opc, addr := sector * 64 % 2 ^ 44 }, waiters := [c] } s

/-- The sectors that have come for a core without a place in the window (R232), as its load finds them. -/
def passExt (s : State) (c : Nat) : Ext :=
  let l := s.win.pass.filter fun p => p.cores.contains c
  { bytes := l.flatMap fun p => (upFrom 0 64).map fun i => (p.sector * 64 + i, p.data.extractLsb' (8 * i) 8),
    poisoned := (l.filter fun p => p.poison).map fun p => p.sector, got := l.map fun p => p.sector }

/-- A core has taken what came for it. -/
def dropPass (c : Nat) (s : State) : State :=
  let l := s.win.pass.map fun p => { p with cores := p.cores.filter (· != c) }
  { s with win := { s.win with pass := l.filter fun p => !p.cores.isEmpty } }

/-- The requests one page piece of a core's access still needs, made for the core: snoops of aperture lines, fills of
HBM lines, sectors of the companion. A load that allocates waits for its fill, and every access waits for a fill of its
line that is outstanding (R56); `hbmWait` is false for an access that waits for none of its own. -/
def needPiece (c : Nat) (m : Marks) (write hbmWait : Bool) (va n : Nat) (s : State) : State × Bool :=
  match translate s (if write then .write else .read) va with
  | none => (s, false)
  | some (pa, na) =>
    let na := m.noalloc || na
    match place s pa with
    | .hbm _ =>
      if pageRetired s pa then (s, false)
      else if waitsStack s pa n then (if s.held.contains (.core c) then s else hold (.core c) s, true)
      else
        let missing := (unitsOf 128 pa n).filter fun u =>
          !(s.wline u).valid && ((hbmWait && !na && !write) || s.win.misses.any fun m => m.line == u / 128)
        let us := (unitsOf 64 pa n ++ missing.flatMap fun u => [u, u + 64]).eraseDups.filter (needsSnoop s write)
        let s := forEach (fun u => addSnoop (u / 64) write c) us s
        let s := forEach (fun u => addMiss (u / 128) c) missing s
        (s, !(us.isEmpty && missing.isEmpty))
    | .companion _ =>
      let got := (passExt s c).got
      let need := (unitsOf 64 pa n).filter fun u =>
        let st := if (s.wline u).valid then (s.wline u).sector u else .i
        if write then (if na then st == .s else st == .i || st == .s) else st == .i && !got.contains (u / 64)
      (forEach (fun u => addSectorReq (if write then 2 else if na then 3 else 1) (u / 64) c) need s, !need.isEmpty)
    | _ => (s, false)

/-- The requests a core's local range still needs; true when the core must wait. -/
def needRange (c : Nat) (m : Marks) (write hbmWait : Bool) (va n : Nat) (s : State) : State × Bool :=
  (pieces va n).foldl (fun acc p =>
    let r := needPiece c m write hbmWait p.1 p.2 acc.1
    (r.1, acc.2 || r.2)) (s, false)

/-! ## Descriptors -/

namespace Desc
/-! Fields of a descriptor (Table 6.4). -/
def base (d : W512) : Nat := bits d.toNat 63 0
def sbase (d : W512) : Nat := bits d.toNat 127 64
def stride1 (d : W512) : Nat := bits d.toNat 159 128
def stride2 (d : W512) : Nat := bits d.toNat 191 160
def dim0 (d : W512) : Nat := bits d.toNat 207 192
def dim1 (d : W512) : Nat := bits d.toNat 223 208
def dim2 (d : W512) : Nat := bits d.toNat 239 224
def fmtByte (d : W512) : Nat := bits d.toNat 247 240
def flags (d : W512) : Nat := bits d.toNat 255 248
def layerTag (d : W512) : Nat := bits d.toNat 271 256
def redId (d : W512) : Nat := bits d.toNat 287 272
def deadline (d : W512) : Nat := bits d.toNat 319 288
def sstride1 (d : W512) : Nat := bits d.toNat 351 320
def sstride2 (d : W512) : Nat := bits d.toNat 383 352
/-- LOC = 1: the operand buffer. -/
def inOb (d : W512) : Bool := flags d % 4 == 1
/-- The NOALLOC and EVICT marks. -/
def marks (d : W512) : Marks := { noalloc := bit (flags d) 2, evict := bit (flags d) 3 }
/-- The format, when the code names one. -/
def fmt? (d : W512) : Option Fmt := Fmt.ofCode (fmtByte d % 32)
/-- The format of a descriptor that has passed its checks. -/
def fmt (d : W512) : Fmt := (fmt? d).getD .fp32
/-- Bytes of one row (R202). -/
def rowBytes (d : W512) : Nat := dim0 d * (fmt d).bits / 8
/-- Bytes of one row's scale entries. -/
def scaleRow (d : W512) : Nat := if (fmt d).isBlock then dim0 d / 32 * (fmt d).scaleBytes else 0
/-- Address of row `y` of plane `z` (R202). -/
def rowAt (d : W512) (z y : Nat) : Nat := (base d + z * stride2 d + y * stride1 d) % 2 ^ 64
/-- Address of the scale entries of row `y` of plane `z` (R202). -/
def scaleAt (d : W512) (z y : Nat) : Nat := (sbase d + z * sstride2 d + y * sstride1 d) % 2 ^ 64
/-- The rows of the tensor: (plane, row) pairs in order. -/
def rows (d : W512) : List (Nat × Nat) :=
  (upFrom 0 (dim2 d)).flatMap fun z => (upFrom 0 (dim1 d)).map fun y => (z, y)
/-- A tensor with no element. -/
def isEmpty (d : W512) : Bool := dim0 d == 0 || dim1 d == 0 || dim2 d == 0
/-- The byte ranges of a tensor: its rows and its scale rows. -/
def ranges (d : W512) : List (Nat × Nat) :=
  if isEmpty d then [] else
    (rows d).flatMap fun p =>
      (rowAt d p.1 p.2, rowBytes d) :: (if (fmt d).isBlock then [(scaleAt d p.1 p.2, scaleRow d)] else [])
/-- The byte ranges of plane 0, which is all that a matrix instruction uses of a tensor, whatever DIM2 holds. -/
def flatRanges (d : W512) : List (Nat × Nat) :=
  if dim0 d == 0 then [] else
    (upFrom 0 (dim1 d)).flatMap fun y =>
      (rowAt d 0 y, rowBytes d) :: (if (fmt d).isBlock then [(scaleAt d 0 y, scaleRow d)] else [])
/-- The operand-buffer ranges of plane 0, if it lies there. -/
def flatOb (d : W512) : List ObRange := if inOb d then (flatRanges d).map fun p => ⟨p.1, p.2⟩ else []
/-- The operand-buffer ranges of a tensor, if it lies there. -/
def obRanges (d : W512) : List ObRange := if inOb d then (ranges d).map fun p => ⟨p.1, p.2⟩ else []
end Desc

/-- The checks of R203 on a descriptor, in their order. -/
def checkDesc (d : W512) : Except Nat Unit :=
  if bits (Desc.fmtByte d) 7 5 ≠ 0 ∨ bits (Desc.flags d) 7 4 ≠ 0 ∨ 2 ≤ Desc.flags d % 4 then .error Cause.illegal
  else match Desc.fmt? d with
    | none => .error Cause.format
    | some f =>
      if Desc.dim0 d * f.bits % 8 ≠ 0 ∨ (f.isBlock = true ∧ Desc.dim0 d % 32 ≠ 0) then .error Cause.shape
      else if Desc.inOb d && (Desc.ranges d).any (fun p => 0x100000 < p.1 + p.2) then .error Cause.operandRange
      else .ok ()

/-- The checks of R203 on a descriptor that a matrix instruction reads or writes by its plane 0. -/
def checkMat (d : W512) : Except Nat Unit :=
  match checkDesc d with
  | .error e => .error e
  | .ok _ =>
    if Desc.inOb d && (Desc.flatRanges d).any (fun p => 0x100000 < p.1 + p.2) then .error Cause.operandRange else .ok ()

/-! ## Operand buffer -/

/-- Bytes of a core's operand buffer. -/
def Core.obRead (k : Core) (a n : Nat) : List Byte := (upFrom a n).map k.obByte
/-- Writes bytes of a core's operand buffer. -/
def Core.obWrite (mask : Nat → Bool) : Nat → Nat → List Byte → Core → Core
  | _, _, [], k => k
  | i, a, b :: t, k => Core.obWrite mask (i + 1) (a + 1) t (if mask i then k.setObByte a b else k)
/-- After a write of `n` bytes at `a`: a word that poison was written to is poison, and a word written whole with good
bytes is not (R85). -/
def Core.obMark (mask bad : Nat → Bool) (a n : Nat) (k : Core) : Core :=
  let one (p : Tab Bool) (u : Nat) : Tab Bool :=
    if meets (fun i => mask i && bad i) a n u then Tab.set false p (u / 16) true
    else if a ≤ u && u + 16 ≤ a + n && (upFrom (u - a) 16).all mask then Tab.set false p (u / 16) false
    else p
  { k with obPoison := (unitsOf 16 a n).foldl one k.obPoison }
/-- Writes bytes into a core's operand buffer, those that `bad` names as poison. -/
def Core.obStore (mask bad : Nat → Bool) (a : Nat) (data : List Byte) (k : Core) : Core :=
  (Core.obWrite mask 0 a data k).obMark mask bad a data.length
/-- The parts of a range of the operand buffer that are poison. -/
def Core.obParts (k : Core) (a n : Nat) : List (Nat × Nat) :=
  ((unitsOf 16 a n).filter fun u => Tab.get false k.obPoison (u / 16)).map (coveredBy 16 a n)
/-- A 16-byte word of a range of the operand buffer is poisoned (R85). (DEDUCED, log 40.) -/
def Core.obPoisoned (k : Core) (a n : Nat) : Bool := (unitsOf 16 a n).any fun u => Tab.get false k.obPoison (u / 16)
/-- The operand-buffer ranges that outstanding transfers are filling (R167). -/
def Core.obBusy (k : Core) : List ObRange := k.dmaQ.flatMap fun e => if e.kind = .dma then Desc.obRanges e.dst else []
/-- The operand-buffer ranges that outstanding transfers have yet to read (R167, R199). -/
def Core.obReading (k : Core) : List ObRange := k.dmaQ.flatMap fun e => Desc.obRanges e.src
/-- A read of these ranges must wait for a granule. -/
def Core.readBlocked (k : Core) (l : List ObRange) : Bool := l.any fun a => k.obBusy.any (sameGranule a)
/-- A write of these ranges must wait for a granule. -/
def Core.writeBlocked (k : Core) (l : List ObRange) : Bool :=
  l.any fun a => k.obBusy.any (sameGranule a) || k.obReading.any (sameGranule a)

/-! ## Loads and stores -/

/-- The address a load or store forms: xa + OFFSET. -/
def memAddr (k : Core) (w : Nat) : W64 := k.xr (Iw.ra w) + BitVec.ofInt 64 (Iw.offs w)

/-- The access marks of format M. -/
def memMarks (w : Nat) : Marks := { noalloc := Iw.noalloc w, evict := Iw.evict w }

/-- A load of `n` bytes: waits for what is not there, traps on a refused access, and gives the bytes on. -/
def coreLoad (c w : Nat) (addr : W64) (n : Nat) (use : List Byte → State → State) (s : State) : State :=
  let k := s.core c
  if Iw.ob w then
    if 0x100000 < addr.toNat + n then trap c Cause.operandRange s
    else if k.readBlocked [⟨addr.toNat, n⟩] then holdGranule c w 0 true s
    else if k.obPoisoned addr.toNat n then trap c Cause.poison s
    else use (k.obRead addr.toNat n) s
  else match coreAddr s addr n true with
    | .error e => trap c e s
    | .ok (.loc va) =>
      if translates s .read va n = false then trap c Cause.translation (noteWalks va n s)
      else
        let r := needRange c (memMarks w) false true va n s
        if r.2 then holdIn c w 0 true r.1
        else match readVirt (passExt s c) (memMarks w) va n (dropPass c s) with
          | (.error e, s) => trap c e.cause s
          | (.ok d, s) => use d s
    | .ok _ => trap c Cause.translation s

/-- The ring and sequence number of a core's dispatch, which its messages carry (Table 9.2). -/
def coreRing (s : State) (c : Nat) : Nat × Nat :=
  match (s.core c).disp with
  | some d => ((s.disp d).ring, (s.disp d).seq.toNat)
  | none => (0, 0)

/-- Slot size of a stage queue in bytes (R74). -/
def sqSlot (s : State) (q : Nat) : Nat := 4096 * 2 ^ s.fld (Reg.sqCtl q) 12 8

/-- The queue's other end is on a peer (R78). -/
def sqRemote (s : State) (q : Nat) : Bool := s.flag (Reg.sqPeer q) 31

/-- Where a queue's slots start: SQ_BASE, or for the producer end of a remote queue the partner's base, which the spec
does not give this device (free). -/
def sqBase (s : State) (q : Nat) : Nat :=
  if sqRemote s q && s.flag (Reg.sqCtl q) 1 then
    (Config.peerSlotBase (s.fld (Reg.sqPeer q) 12 0) (s.fld (Reg.sqPeer q) 23 16)).toNat
  else s.fld (Reg.sqBaseHi q) 15 0 * 2 ^ 32 + s.fld (Reg.sqBaseLo q) 31 12 * 4096

/-- A store to a peer lies in slots that a remote stage queue of this device has reserved: its data travels as SQ_DATA
(Table 9.3). -/
def isSqData (s : State) (id va : Nat) : Bool :=
  s.sqs.any fun e =>
    sqRemote s e.1 && s.fld (Reg.sqPeer e.1) 12 0 == id &&
      e.2.reserved.any fun r =>
        let a := sqBase s e.1 + r.first * sqSlot s e.1
        a ≤ va && va < a + r.count * sqSlot s e.1

/-- The POISON mask of a message's data (Table 9.2): bit `n` for bytes 64·n to 64·n + 63. -/
def poisonMask (bad : Nat → Bool) (n : Nat) : W64 :=
  BitVec.ofNat 64 ((upFrom 0 ((n + 63) / 64)).foldl
    (fun acc i => if (upFrom (64 * i) (min 64 (n - 64 * i))).any bad then acc + 2 ^ i else acc) 0)

/-- Sends bytes to a peer as PUT messages of at most 4,096 bytes (R294); the last asks for a WACK when `ack`, and is
then counted against the core (R301). Data for reserved stage-queue slots goes as SQ_DATA on VC3. Bytes that `bad`
names travel as poison (R293). A message carries exactly the bytes of its store, padded on the link to units of 32.
(DESIGN CHOICE, log 181.) -/
def sendPut (c id : Nat) (ack : Bool) : Nat → (Nat → Bool) → Nat → List Byte → State → State
  | 0, _, _, _, s => s
  | fuel + 1, bad, va, data, s =>
    let last := data.length ≤ 4096
    let rs := coreRing s c
    let sq := isSqData s id va
    let want := ack && last && !sq
    let d := data.take 4096
    let m : RunMsg :=
      { opc := if sq then 0x03 else 0x01, vc := if sq then 3 else dataVc (ownId s) id, ackReq := want, dest := id,
        src := ownId s, stream := c % 256, addr := va, ring := rs.1, poison := poisonMask bad d.length, seq := rs.2,
        data := d }
    let s := if want then s.modCore c fun k => { k with putsOut := k.putsOut + 1 } else s
    let s := runSend m s
    if last then s else sendPut c id ack fuel (fun i => bad (i + 4096)) (va + 4096) (data.drop 4096) s

/-- The runs of consecutive bytes that a mask selects: first byte and length. -/
def maskRuns (mask : Nat → Bool) : Nat → Nat → List (Nat × Nat)
  | 0, _ => []
  | n + 1, i =>
    let t := maskRuns mask n (i + 1)
    if mask i then
      match t with
      | (j, k) :: t => if j = i + 1 then (i, k + 1) :: t else (i, 1) :: (j, k) :: t
      | [] => [(i, 1)]
    else t

/-- A store to a peer sends the bytes its mask selects, one PUT for each run of them (R170). -/
def storePeer (c id : Nat) (mask : Nat → Bool) (va : Nat) (data : List Byte) (s : State) : State :=
  forEach (fun r s => sendPut c id true 1 (fun _ => false) (va + r.1) ((data.drop r.1).take r.2) s)
    (maskRuns mask data.length 0) s

/-- A store of bytes: into the operand buffer, to local memory, or to a peer as a put (R170). -/
def coreStore (c w : Nat) (addr : W64) (mask : Nat → Bool) (data : List Byte) (fin : State → State) (s : State) :
    State :=
  let k := s.core c
  let n := data.length
  if Iw.ob w then
    if 0x100000 < addr.toNat + n then trap c Cause.operandRange s
    else if k.writeBlocked [⟨addr.toNat, n⟩] then holdGranule c w 0 true s
    else fin (s.modCore c (Core.obStore mask (fun _ => false) addr.toNat data))
  else match coreAddr s addr n false with
    | .error e => trap c e s
    | .ok (.loc va) =>
      if translates s .write va n = false then trap c Cause.translation (noteWalks va n s)
      else
        let r := needRange c (memMarks w) true true va n s
        if r.2 then holdIn c w 0 true r.1
        else match writeVirt {} (memMarks w) mask va data s with
          | (.error e, s) => trap c e.cause s
          | (.ok _, s) => fin s
    | .ok (.peer id va) => fin (storePeer c id mask va data s)
    | .ok .bad => trap c Cause.translation s

/-- `ld.b` to `ld.d`. -/
def bodyLd : Body := fun c w _ s =>
  let n := 2 ^ Iw.size w
  coreLoad c w (memAddr (s.core c) w) n
    (fun d s => finish c 8 (fun k =>
      k.setX (Iw.rd w)
        (if Iw.uns w then BitVec.ofNat 64 (ofBytes d) else BitVec.ofInt 64 (sext (8 * n) (ofBytes d)))) s) s

/-- `st.b` to `st.d`. -/
def bodySt : Body := fun c w _ s =>
  let k := s.core c
  coreStore c w (memAddr k w) (fun _ => true) (toBytes (2 ^ Iw.size w) (k.xr (Iw.rd w)).toNat) (finish c 8 id) s

/-- `vld`. -/
def bodyVld : Body := fun c w _ s =>
  coreLoad c w (memAddr (s.core c) w) 256
    (fun d s => finish c 8 (fun k => k.setV (Iw.rd w) (BitVec.ofNat 2048 (ofBytes d))) s) s

/-- Non-finite stored lanes of a `vst` by its counting type (Table 6.6, R220). -/
def vstNonfinite (k : Core) (w : Nat) (on : Nat → Bool) : Nat :=
  let v := k.vr (Iw.rd w)
  let cnt (F : FFmt) (b per : Nat) : Nat :=
    ((upFrom 0 (2048 / b)).filter fun i =>
      on (i / per) && (F.decode (v.extractLsb' (b * i) b).toNat).nonfinite).length
  match Iw.size w with
  | 0 => cnt .fp32 32 1
  | 1 => cnt .bf16 16 2
  | 2 => cnt .fp16 16 2
  | _ => 0

/-- `vst`. -/
def bodyVst : Body := fun c w _ s =>
  let k := s.core c
  let on (j : Nat) : Bool := Iw.mask w == 0 || (k.pr (Iw.mask w % 8)).getLsbD j
  coreStore c w (memAddr k w) (fun i => on (i / 4)) (toBytes 256 (k.vr (Iw.rd w)).toNat)
    (finishWith c 8 { nonfinite := vstNonfinite k w on } id) s

/-- `dld`: address bits [5:0] are ignored. -/
def bodyDld : Body := fun c w _ s =>
  coreLoad c w (memAddr (s.core c) w &&& ~~~63#64) 64
    (fun d s => finish c 8 (fun k => k.setD (Iw.rd w) (BitVec.ofNat 512 (ofBytes d))) s) s

/-- `dst`. -/
def bodyDst : Body := fun c w _ s =>
  let k := s.core c
  coreStore c w (memAddr k w &&& ~~~63#64) (fun _ => true) (toBytes 64 (k.dr (Iw.rd w)).toNat) (finish c 8 id) s

/-! ## DMA, PUT and RACC at issue -/

/-- The DMA engine holds 16 transfers (R197). -/
def dmaFull (k : Core) : Bool := 16 ≤ k.dmaQ.length

/-- Enters a transfer in the DMA engine. -/
def dmaIssue (kind : DmaKind) (c w : Nat) (s : State) : State :=
  issued c 8 (fun k =>
    { k with dmaQ := k.dmaQ ++
      [{ kind := kind, src := k.dr (Iw.ds w), dst := k.dr (Iw.dd w), tag := Iw.tag w, flagAddr := k.xr (Iw.xf w),
         flagVal := k.xr (Iw.xv w), tileLo := k.tileLo, tileHi := k.tileHi, pc := k.pc }] }) s

/-- Equal DIM0, DIM1, DIM2 (R206). -/
def sameDims (a b : W512) : Bool :=
  Desc.dim0 a == Desc.dim0 b && Desc.dim1 a == Desc.dim1 b && Desc.dim2 a == Desc.dim2 b

/-- The checks of `dma` at issue (R203, R206). (DEDUCED, log 35.) -/
def dmaCheck (k : Core) (w : Nat) : Except Nat Unit :=
  match checkDesc (k.dr (Iw.ds w)) with
  | .error e => .error e
  | .ok _ =>
    match checkDesc (k.dr (Iw.dd w)) with
    | .error e => .error e
    | .ok _ =>
      if sameDims (k.dr (Iw.ds w)) (k.dr (Iw.dd w)) && Desc.fmt (k.dr (Iw.ds w)) == Desc.fmt (k.dr (Iw.dd w)) then .ok ()
      else .error Cause.shape

/-- `dma` (R206). A tensor with a dimension of zero completes at once. -/
def bodyDma : Body := fun c w _ s =>
  let k := s.core c
  match dmaCheck k w with
  | .error e => trap c e s
  | .ok _ =>
    if Desc.isEmpty (k.dr (Iw.ds w)) then finish c 8 id s
    else if dmaFull k then holdIn c w 0 true s
    else dmaIssue .dma c w s

/-- `put` (R207): a destination in the operand buffer traps OPERAND_RANGE. -/
def bodyPut : Body := fun c w _ s =>
  let k := s.core c
  match dmaCheck k w with
  | .error e => trap c e s
  | .ok _ =>
    if Desc.inOb (k.dr (Iw.dd w)) then trap c Cause.operandRange s
    else if dmaFull k then holdIn c w 0 true s
    else dmaIssue .put c w s

/-- The checks of `racc` at issue (R217): formats, dimensions, and a local BASE in HBM. (DEDUCED, log 35.) -/
def raccCheck (s : State) (k : Core) (w : Nat) : Except Nat Unit :=
  let a := k.dr (Iw.ds w)
  let b := k.dr (Iw.dd w)
  match checkDesc a with
  | .error e => .error e
  | .ok _ =>
    match checkDesc b with
    | .error e => .error e
    | .ok _ =>
      let f := Desc.fmt a
      if !(f == .fp32 || f == .bf16 || f.isMx) || Desc.fmt b != .fp32 then .error Cause.format
      else if sameDims a b = false then .error Cause.shape
      else if Desc.inOb b then .error Cause.operandRange
      else match coreAddr s (BitVec.ofNat 64 (Desc.base b)) 4 false with
        | .error e => .error e
        | .ok (.loc va) =>
          match translate s .write va with
          | none => .error Cause.translation
          | some (pa, _) => if pa < 2 ^ 39 then .ok () else .error Cause.operandRange
        | .ok _ => .ok ()

/-- `racc` (R217). -/
def bodyRacc : Body := fun c w _ s =>
  let k := s.core c
  match raccCheck s k w with
  | .error e => trap c e s
  | .ok _ => if dmaFull k then holdIn c w 0 true s else dmaIssue .racc c w s

/-- `dwait`: every transfer whose tag bit is set has completed. -/
def bodyDwait : Body := fun c w _ s =>
  if (s.core c).dmaQ.any (fun e => bit (Iw.dmask w) e.tag) then holdIn c w 0 true s else finish c 8 id s

/-- Every store, DMA write, put and RACC of the core has been accepted (R181): none is outstanding in its engine. -/
def allAccepted (k : Core) : Bool := k.dmaQ.isEmpty

/-- `fence.l`: loads, stores and atomics of a core are performed as they issue. -/
def bodyFenceL : Body := fun c _ _ s => finish c 8 id s
/-- `fence.a`. -/
def bodyFenceA : Body := fun c w _ s => if allAccepted (s.core c) then finish c 8 id s else holdIn c w 0 true s
/-- `fence.r` (R301): the core's count of outstanding ACK_REQ messages is zero as well. -/
def bodyFenceR : Body := fun c w _ s =>
  let k := s.core c
  if allAccepted k && k.putsOut == 0 then finish c 8 id s else holdIn c w 0 true s

end Sys2Proof.Machine
end

