-- ==== Sys2Proof/Machine/CoreMxe.lean ====
section
/-! DEFINITION. The matrix engine (R126 to R162, R208 to R211, R494): planned and run-time shapes, passes, weight planes,
accumulator tiles, the epilogue and fused attention. Results are written at issue; the instruction stays in the MXE
queue until it retires, where it raises its conditions (R197, R221). -/

namespace Sys2Proof.Machine

/-- The MXE queue holds 4 instructions (R197). -/
def mxeFull (k : Core) : Bool := 4 ≤ k.mxeQ.length

/-- Issues into the MXE queue with the conditions it will raise and the array steps it takes. -/
def mxeIssue (c len : Nat) (cd : Conds) (busy : Nat) (f : Core → Core) (s : State) : State :=
  issued c len (fun k =>
    let k' := f k
    { k' with mxeQ := k'.mxeQ ++ [{ pc := k.pc, conds := cd }], mxeBusy := k'.mxeBusy + BitVec.ofNat 64 busy }) s

/-! ## Operand elements in the operand buffer -/

/-- A packed element code at a byte address (R97): element `i` of `b` bits. -/
def Core.obElem (k : Core) (addr b i : Nat) : Nat :=
  let a := addr + b * i / 8
  (ofBytes (k.obRead a ((b * i % 8 + b + 7) / 8)) >>> (b * i % 8)) % 2 ^ b

/-- The scale entry of block `j` of row `y` of a block tensor in the operand buffer (R202). -/
def Core.obEntry (k : Core) (d : W512) (y j : Nat) : Nat :=
  let e := (Desc.fmt d).scaleBytes
  ofBytes (k.obRead (Desc.scaleAt d 0 y + j * e) e)

/-- The code of element `i` of row `y` of a tensor in the operand buffer. -/
def Core.obCode (k : Core) (d : W512) (y i : Nat) : Nat := k.obElem (Desc.rowAt d 0 y) (Desc.fmt d).bits i

/-- The value of element `i` of row `y` of a float or block tensor in the operand buffer. -/
def Core.obVal (k : Core) (d : W512) (y i : Nat) : Val :=
  let f := Desc.fmt d
  if f.isBlock then f.entryVal (k.obEntry d y (i / 32)) (i % 32) (k.obCode d y i) else f.elemVal (k.obCode d y i)

/-- The integer of element `i` of row `y` of an integer tensor in the operand buffer. -/
def Core.obInt (k : Core) (d : W512) (y i : Nat) : Int :=
  match (Desc.fmt d).ifmt with
  | some f => f.decode (k.obCode d y i)
  | none => 0

/-- The weight tile at row `n0`, element `k0` of a weight descriptor as a plane of `kt` by 64 (R126, R144). -/
def Core.loadTile (k : Core) (d : W512) (k0 n0 kt : Nat) : Plane :=
  let f := Desc.fmt d
  let codes := (upFrom 0 (kt * 64)).foldl
    (fun t i => Tab.set 0 t i (BitVec.ofNat 32 (k.obCode d (n0 + i % 64) (k0 + i / 64)))) []
  let entries := if f.isBlock then
      (upFrom 0 (64 * (kt / 32))).foldl
        (fun t i =>
          let n := i / (kt / 32)
          let j := i % (kt / 32)
          Tab.set 0 t (n * 16 + j) (BitVec.ofNat 16 (k.obEntry d (n0 + n) (k0 / 32 + j)))) []
    else []
  { valid := true, fmt := Desc.fmtByte d % 32, k := kt, codes := codes, entries := entries }

/-- The format a plane records. -/
def Plane.format (p : Plane) : Fmt := (Fmt.ofCode p.fmt).getD .fp32

/-- The value of weight (k, n) of a plane. -/
def Plane.val (p : Plane) (k n : Nat) : Val :=
  let f := p.format
  let c := (Tab.get 0 p.codes (k * 64 + n)).toNat
  if f.isBlock then f.entryVal (Tab.get 0 p.entries (n * 16 + k / 32)).toNat (k % 32) c else f.elemVal c

/-- The integer of weight (k, n) of a plane. -/
def Plane.int (p : Plane) (k n : Nat) : Int :=
  match p.format.ifmt with
  | some f => f.decode (Tab.get 0 p.codes (k * 64 + n)).toNat
  | none => 0

/-! ## Operands of the epilogue -/

/-- Core addresses at which an instruction's descriptor ranges lie outside the operand buffer. -/
def devRanges (d : W512) (rs : List (Nat × Nat)) : List (Nat × Nat) := if Desc.inOb d then [] else rs.filter (·.2 != 0)

/-- The ranges' addresses are refused, not translated or poisoned: the cause the core traps with. -/
def rangesTrap (s : State) (write : Bool) (rs : List (Nat × Nat)) : Option Nat :=
  rs.findSome? fun r =>
    match coreAddr s (BitVec.ofNat 64 r.1) r.2 (!write) with
    | .error e => some e
    | .ok (.loc va) => if translates s (if write then .write else .read) va r.2 then none else some Cause.translation
    | .ok _ => none

/-- The waits that a core's device-address ranges, each with its marks, still need. -/
def rangesNeed (c : Nat) (write : Bool) (rs : List (Marks × Nat × Nat)) (s : State) : State × Bool :=
  rs.foldl (fun acc r =>
    match fabric acc.1 (BitVec.ofNat 64 r.2.1) with
    | .loc va =>
      let q := needRange c r.1 write true va r.2.2 acc.1
      (q.1, acc.2 || q.2)
    | _ => acc) (s, false)

/-- Bytes of a range named by a descriptor, from the operand buffer or memory; none when the read is refused. -/
def fetch (c : Nat) (d : W512) (a n : Nat) (s : State) : Option (List Byte) × Nat × State :=
  if Desc.inOb d then
    if (s.core c).obPoisoned a n then (none, Cause.poison, s) else (some ((s.core c).obRead a n), 0, s)
  else match fabric s (BitVec.ofNat 64 a) with
    | .loc va =>
      match readVirt {} (Desc.marks d) va n s with
      | (.ok b, s) => (some b, 0, s)
      | (.error e, s) => (none, e.cause, s)
    | _ => (none, Cause.translation, s)

/-- The first `n` elements of rows 0 to `m` − 1 of a non-block tensor, as element codes. -/
def fetchRows (c : Nat) (d : W512) (m n : Nat) (s : State) : Option (List (List Nat)) × Nat × State :=
  (upFrom 0 m).foldl
    (fun acc y =>
      match acc with
      | (none, e, s) => (none, e, s)
      | (some rows, _, s) =>
        let b := (Desc.fmt d).bits
        match fetch c d (Desc.rowAt d 0 y) (n * b / 8) s with
        | (some bytes, _, s) => (some (rows ++ [(upFrom 0 n).map fun i => (ofBytes bytes >>> (b * i)) % 2 ^ b]), 0, s)
        | (none, e, s) => (none, e, s))
    (some [], 0, s)

/-! ## The epilogue -/

namespace Epi
/-! Fields of the EPI word (Table 6.10). -/
def vsum (e : Nat) : Nat := bits e 51 47
def vmax (e : Nat) : Nat := bits e 46 42
def dres (e : Nat) : Nat := bits e 41 38
def dbias (e : Nat) : Nat := bits e 37 34
def dcol (e : Nat) : Nat := bits e 33 30
def drow (e : Nat) : Nat := bits e 29 26
def dout (e : Nat) : Nat := bits e 25 22
def dest (e : Nat) : Nat := bits e 21 20
def axis (e : Nat) : Bool := bit e 19
def sat (e : Nat) : Bool := bit e 18
def rnd (e : Nat) : Nat := bits e 17 16
def ofmt (e : Nat) : Nat := bits e 15 11
def stats (e : Nat) : Bool := bit e 6
def act (e : Nat) : Nat := bits e 5 4
def resid (e : Nat) : Bool := bit e 3
def bias (e : Nat) : Bool := bit e 2
def cscale (e : Nat) : Bool := bit e 1
def rscale (e : Nat) : Bool := bit e 0
/-- DEST values of Table 6.10. -/
def toStore (e : Nat) : Bool := dest e == 1
def toRacc (e : Nat) : Bool := dest e == 2
def toOperand (e : Nat) : Bool := dest e == 3
/-- Any of steps 2 to 6 is enabled (Table 4.6). -/
def floatStep (e : Nat) : Bool := rscale e || cscale e || bias e || resid e || act e != 0 || stats e
end Epi

/-- A vector operand of the epilogue: FP32, with at least `n` elements in DIM0 (R494). -/
def checkVec (d : W512) (n : Nat) : Except Nat Unit :=
  match checkMat d with
  | .error e => .error e
  | .ok _ =>
    if Desc.fmt d ≠ .fp32 then .error Cause.format
    else if Desc.dim0 d < n then .error Cause.shape
    else .ok ()

/-- Runs a check only when it applies. -/
def checkIf (b : Bool) (t : Except Nat Unit) : Except Nat Unit := if b then t else .ok ()

/-- One check after another. -/
def andThen (a b : Except Nat Unit) : Except Nat Unit := match a with
  | .error e => .error e
  | .ok _ => b

/-- The checks of the EPI word and of the descriptors it names (R209, R148, R494) for a planned output of `m` rows and
`n` columns, in `groups` lane groups of a normal-shaped tile (one when transposed). (DEDUCED, log 35; DESIGN
CHOICE, log 192.) -/
def epiCheck (k : Core) (e m n : Nat) (trans : Bool) : Except Nat Unit :=
  let of := Fmt.ofCode (Epi.ofmt e)
  let blk := match of with | some f => f.isBlock | none => false
  let groups := if trans then 1 else (m + 63) / 64
  andThen (if bits e 63 52 ≠ 0 ∨ bits e 10 7 ≠ 0 ∨ Epi.rnd e = 3 then .error Cause.illegal else .ok ()) <|
  andThen (if of = none then .error Cause.illegal else .ok ()) <|
  andThen (if blk && Epi.toOperand e then .error Cause.illegal else .ok ()) <|
  andThen (if Epi.dest e = 0 ∧ Epi.ofmt e ≠ 0 then .error Cause.illegal else .ok ()) <|
  andThen (if Epi.axis e && (!blk || !Epi.toStore e) then .error Cause.illegal else .ok ()) <|
  andThen (if Epi.stats e && (31 < Epi.vmax e + groups - 1 || 31 < Epi.vsum e + groups - 1) then .error Cause.illegal
    else .ok ()) <|
  andThen (checkIf (Epi.rscale e) (checkVec (k.dr (Epi.drow e)) m)) <|
  andThen (checkIf (Epi.cscale e) (checkVec (k.dr (Epi.dcol e)) n)) <|
  andThen (checkIf (Epi.bias e) (checkVec (k.dr (Epi.dbias e)) n)) <|
  andThen (checkIf (Epi.resid e)
    (let d := k.dr (Epi.dres e)
     andThen (checkMat d) <|
     if ¬ (Desc.fmt d = .fp32 ∨ Desc.fmt d = .bf16 ∨ Desc.fmt d = .fp16) then .error Cause.format
     else if Desc.dim1 d < m ∨ Desc.dim0 d < n then .error Cause.shape else .ok ())) <|
  checkIf (Epi.dest e != 0)
    (let d := k.dr (Epi.dout e)
     let f := of.getD .fp32
     andThen (checkMat d) <|
     andThen (if Epi.toRacc e && (!(f == .fp32 || f == .bf16 || f.isMx) || Desc.fmt d != .fp32) then .error Cause.format
       else .ok ()) <|
     andThen (if !Epi.toRacc e && Desc.fmt d != f then .error Cause.format else .ok ()) <|
     andThen (if Epi.axis e && m % 32 != 0 then .error Cause.shape else .ok ()) <|
     andThen (if (if Epi.axis e then Desc.dim1 d < n ∨ Desc.dim0 d < m else Desc.dim1 d < m ∨ Desc.dim0 d < n) then
       .error Cause.shape else .ok ()) <|
     if (Epi.toOperand e && !Desc.inOb d) || (Epi.toRacc e && Desc.inOb d) then .error Cause.operandRange else .ok ())

/-- The operands the epilogue has read: scales, bias, and residual rows. -/
structure EpiData where
  rs : List Nat
  cs : List Nat
  bs : List Nat
  res : List (List Nat)
  resFmt : Fmt

/-- Steps 1 to 5 of Table 4.6 on one element: an FP32 code. -/
def epiValue (e : Nat) (dt : EpiData) (isInt : Bool) (i j acc : Nat) : Nat × Conds :=
  let F := FFmt.fp32
  let step (on : Bool) (f : Nat → Nat × Conds) (v : Nat × Conds) : Nat × Conds :=
    if on then
      let r := f v.1
      (r.1, v.2.join r.2)
    else v
  let v0 : Nat × Conds := if isInt then ((F.rne (Val.ofInt (sext 32 acc))).1, .none) else (acc, .none)
  let v := step (Epi.rscale e) (fun x => fmul F x (dt.rs.getD i 0)) v0
  let v := step (Epi.cscale e) (fun x => fmul F x (dt.cs.getD j 0)) v
  let v := step (Epi.bias e) (fun x => fadd F x (dt.bs.getD j 0)) v
  let v := step (Epi.resid e)
    (fun x => fadd F x (F.rne (dt.resFmt.elemVal ((dt.res.getD i []).getD j 0))).1) v
  step (Epi.act e != 0)
    (fun x => match Epi.act e with
      | 1 => frelu F x
      | 2 => fsilu x
      | _ => fgelu x) v

/-- Converts one element to a non-block output format (step 7). -/
def epiConvert (k : Core) (e : Nat) (f : Fmt) (isInt : Bool) (i j : Nat) (acc v : Nat) : Nat × Conds :=
  let r := srOf k (i * 1024 + j)
  let md := rndOf (Epi.rnd e)
  let out :=
    if isInt && !Epi.floatStep e && f.isInt then convertTo f md r (Epi.sat e) (Val.ofInt (sext 32 acc))
    else convertTo f md r (Epi.sat e) (FFmt.fp32.decode v)
  let nf := match f.elem with
    | some x => (x.decode out.1).nonfinite
    | none => false
  (out.1, { out.2 with nonfinite := b2n nf })

/-- One row of packed output: its byte offset in the row, its bytes, and for a block format its scale entries. -/
structure OutRow where
  row : Nat
  bytes : List Byte
  scales : List Byte
deriving DecidableEq, Repr

/-- The packed bytes of element codes, padded with code 0 to whole bytes (R97, R134). -/
def packRow (f : Fmt) (codes : List Nat) : List Byte := toBytes ((codes.length * f.bits + 7) / 8) (packLanes f.bits codes)

/-- The converted output of `mr` live rows and `nr` live columns, with its conditions (R134, R148, R151). -/
def epiOutput (k : Core) (e : Nat) (isInt : Bool) (mr nr : Nat) (acc val : Nat → Nat → Nat) : List OutRow × Conds :=
  let f := (Fmt.ofCode (Epi.ofmt e)).getD .fp32
  let blockRow (row cnt : Nat) (at_ : Nat → Nat × Nat) (live : Nat → Bool) : OutRow × Conds :=
    let bs := (upFrom 0 ((cnt + 31) / 32)).map fun b =>
      quantBlock f (rndOf (Epi.rnd e))
        (fun i => srOf k ((at_ (32 * b + i)).1 * 1024 + (at_ (32 * b + i)).2))
        ((upFrom (32 * b) 32).map fun i =>
          if live i then FFmt.fp32.decode (val (at_ i).1 (at_ i).2) else Val.zero false)
    ({ row := row, bytes := packRow f (bs.flatMap fun b => b.1.codes),
       scales := bs.flatMap fun b => toBytes f.scaleBytes b.1.entry }, Conds.joinAll (bs.map blockConds))
  let rs : List (OutRow × Conds) :=
    if f.isBlock then
      if Epi.axis e then (upFrom 0 nr).map fun j => blockRow j mr (fun i => (i, j)) (fun i => i < mr)
      else (upFrom 0 mr).map fun i => blockRow i nr (fun j => (i, j)) (fun j => j < nr)
    else
      (upFrom 0 mr).map fun i =>
        let cs := (upFrom 0 nr).map fun j => epiConvert k e f isInt i j (acc i j) (val i j)
        ({ row := i, bytes := packRow f (cs.map (·.1)), scales := [] }, Conds.joinAll (cs.map (·.2)))
  (rs.map (·.1), Conds.joinAll (rs.map (·.2)))

/-- The device-address ranges an output writes. -/
def outRanges (d : W512) (rows : List OutRow) : List (Nat × Nat) :=
  rows.flatMap fun r => [(Desc.rowAt d 0 r.row, r.bytes.length), (Desc.scaleAt d 0 r.row, r.scales.length)]

/-- Writes one range of an output: operand buffer, local memory, or a peer. -/
def outWrite (c : Nat) (d : W512) (a : Nat) (data : List Byte) (s : State) : State × Option Nat :=
  if data.isEmpty then (s, none)
  else if Desc.inOb d then (s.modCore c (Core.obStore (fun _ => true) (fun _ => false) a data), none)
  else match fabric s (BitVec.ofNat 64 a) with
    | .loc va =>
      match writeVirt {} (Desc.marks d) (fun _ => true) va data s with
      | (.ok _, s) => (s, none)
      | (.error e, s) => (s, some e.cause)
    | .peer id va => (sendPut c id true (data.length / 4096 + 1) (fun _ => false) va data s, none)
    | .bad => (s, some Cause.translation)

/-- Writes the rows of an output in order, stopping at the first refused one. -/
def outRows (c : Nat) (d : W512) : List OutRow → State → State × Option Nat
  | [], s => (s, none)
  | r :: t, s =>
    match outWrite c d (Desc.rowAt d 0 r.row) r.bytes s with
    | (s, some e) => (s, some e)
    | (s, none) =>
      match outWrite c d (Desc.scaleAt d 0 r.row) r.scales s with
      | (s, some e) => (s, some e)
      | (s, none) => outRows c d t s

/-- The extension of Table 9.7. `tileLo` and `tileHi` are laid out as CORE_TILE_LO and CORE_TILE_HI. -/
def redExt (layer red deadline tileLo tileHi fmt comp key raised : Nat) : W256 :=
  BitVec.ofNat 256
    (layer % 2 ^ 16 + (red % 2 ^ 16) <<< 16 + (deadline % 2 ^ 32) <<< 32 + (tileLo % 2 ^ 32) <<< 64
      + (tileHi % 2 ^ 32) <<< 96 + (fmt % 256) <<< 128 + (comp % 256) <<< 136 + (key % 2 ^ 16) <<< 144
      + (raised % 2 ^ 16) <<< 160)

/-- Hands a contribution to the fabric, or to the local path of an own shard (R308). -/
def raccSend (m : RunMsg) (s : State) : State := if m.dest = ownId s then localSend m s else runSend m s

/-- Enters a pair once. -/
def addPair (p : RedPair) (l : List RedPair) : List RedPair :=
  if l.any (fun q => q.owner == p.owner && q.red == p.red) then l else l ++ [p]

/-- Records the owner of a contribution for commits and ends (R308). -/
def notePair (tileHi : W32) (p : RedPair) (k : Core) : Core :=
  if tileHi.getLsbD 31 then { k with tilePairs := addPair p k.tilePairs }
  else { k with endPairs := addPair p k.endPairs }

/-- Sends one row of contributions to the shard a descriptor names (R150, R217): on the runner links, or on the local
path to an own shard (R308). -/
def sendRacc (c : Nat) (d : W512) (f : Fmt) (fcode : Nat) (tileLo tileHi : W32) (row : Nat) (bytes scales : List Byte)
    (s : State) : State :=
  let a := Desc.rowAt d 0 row
  let rs := coreRing s c
  let own := ownId s
  let mk (id va : Nat) : RunMsg :=
    { opc := 0x10, vc := dataVc own id, dest := id, src := own, stream := c % 256, addr := va, ring := rs.1,
      seq := rs.2,
      ext := some (redExt (Desc.layerTag d) (Desc.redId d) (Desc.deadline d) tileLo.toNat tileHi.toNat fcode 0 c 0),
      data := bytes ++ (if f.isBlock then scales else []) }
  let pair (id : Nat) : RedPair :=
    { owner := id, red := Desc.redId d, layer := Desc.layerTag d, deadline := Desc.deadline d }
  match fabric s (BitVec.ofNat 64 a) with
  | .loc va => raccSend (mk own va) (s.modCore c (notePair tileHi (pair own)))
  | .peer id va => raccSend (mk id va) (s.modCore c (notePair tileHi (pair id)))
  | .bad => s

/-- Row statistics into VMAX and VSUM (R149, R209): the results of each live row over `tiles` accumulator tiles, combined
in tile order. -/
def epiStats (e : Nat) (trans : Bool) (tiles mr nr : Nat) (val : Nat → Nat → Nat) (k : Core) : Core × Conds :=
  let w := if trans then 256 else 64
  let lg := if trans then 8 else 6
  let rowStat (i : Nat) : (Nat × Nat) × Conds :=
    (upFrom 0 tiles).foldl
      (fun acc t =>
        let cols := upFrom (t * w) w
        let mx := listMax 0xFF800000 ((cols.filter (· < nr)).map (val i))
        let sm := treeSum lg (cols.map fun j => if j < nr then val i j else 0)
        if t = 0 then ((mx, sm.1), sm.2)
        else
          let a := fadd FFmt.fp32 acc.1.2 sm.1
          (((fmax FFmt.fp32 acc.1.1 mx).1, a.1), acc.2.join (sm.2.join a.2)))
      ((0xFF800000, 0), .none)
  let put (k : Core) (v i x : Nat) : Core :=
    let r := v + (if trans then 0 else i / 64)
    let lo := 32 * (i % 64)
    k.setV r (BitVec.ofNat 2048 (putBits (k.vr r).toNat (lo + 31) lo x))
  (upFrom 0 mr).foldl
    (fun acc i =>
      let r := rowStat i
      (put (put acc.1 (Epi.vmax e) i r.1.1) (Epi.vsum e) i r.1.2, acc.2.join r.2))
    (k, .none)

/-- Reads the epilogue's operands for the live part. -/
def epiFetch (c e mr nr : Nat) (s : State) : Option EpiData × Nat × State :=
  let k := s.core c
  let vec (on : Bool) (d : W512) (n : Nat) (s : State) : Option (List Nat) × Nat × State :=
    if on then
      match fetchRows c d 1 n s with
      | (some rows, _, s) => (some (rows.headD []), 0, s)
      | (none, e, s) => (none, e, s)
    else (some [], 0, s)
  match vec (Epi.rscale e) (k.dr (Epi.drow e)) mr s with
  | (none, x, s) => (none, x, s)
  | (some rs, _, s) =>
    match vec (Epi.cscale e) (k.dr (Epi.dcol e)) nr s with
    | (none, x, s) => (none, x, s)
    | (some cs, _, s) =>
      match vec (Epi.bias e) (k.dr (Epi.dbias e)) nr s with
      | (none, x, s) => (none, x, s)
      | (some bs, _, s) =>
        let d := k.dr (Epi.dres e)
        match (if Epi.resid e then fetchRows c d mr nr s else (some [], 0, s)) with
        | (none, x, s) => (none, x, s)
        | (some res, _, s) => (some { rs := rs, cs := cs, bs := bs, res := res, resFmt := Desc.fmt d }, 0, s)

/-- The descriptors an epilogue reads and the part of each it reads, as ranges. -/
def epiReads (k : Core) (e mr nr : Nat) : List (W512 × List (Nat × Nat)) :=
  let vec (on : Bool) (d : W512) (n : Nat) := if on then [(d, [(Desc.rowAt d 0 0, 4 * n)])] else []
  vec (Epi.rscale e) (k.dr (Epi.drow e)) mr ++ vec (Epi.cscale e) (k.dr (Epi.dcol e)) nr
    ++ vec (Epi.bias e) (k.dr (Epi.dbias e)) nr
    ++ (if Epi.resid e then
        let d := k.dr (Epi.dres e)
        [(d, (upFrom 0 mr).map fun y => (Desc.rowAt d 0 y, nr * (Desc.fmt d).bits / 8))]
      else [])

/-- Runs the epilogue on finished accumulators (R147 to R151): operands, values, statistics, conversion, destination.
The cause is set when an operand or the output is refused. -/
def runEpilogue (c e : Nat) (trans isInt : Bool) (tiles mr nr : Nat) (acc : Nat → Nat → Nat) (s : State) :
    State × Conds × Option Nat :=
  match epiFetch c e mr nr s with
  | (none, x, s) => (s, .none, some x)
  | (some dt, _, s) =>
    let vals := (upFrom 0 mr).map fun i => (upFrom 0 nr).map fun j => epiValue e dt isInt i j (acc i j)
    let val (i j : Nat) : Nat := ((vals.getD i []).getD j (0, .none)).1
    let vc := if Epi.floatStep e || Epi.dest e != 0 then Conds.joinAll (vals.map fun r => Conds.joinAll (r.map (·.2)))
      else .none
    let st := if Epi.stats e then epiStats e trans tiles mr nr val (s.core c) else (s.core c, .none)
    let s := s.setCore c st.1
    if Epi.dest e = 0 then (s, vc.join st.2, none)
    else
      let k := s.core c
      let d := k.dr (Epi.dout e)
      let out := epiOutput k e isInt mr nr acc val
      let cd := vc.join (st.2.join out.2)
      if Epi.toRacc e then
        let f := (Fmt.ofCode (Epi.ofmt e)).getD .fp32
        (forEach (fun (r : OutRow) => sendRacc c d f (Epi.ofmt e) k.tileLo k.tileHi r.row r.bytes r.scales) out.1 s,
          cd, none)
      else
        let w := outRows c d out.1 s
        (w.1, cd, w.2)

/-! ## `mm` (R131 to R146, R208) -/

/-- What an `mm` has settled at issue. -/
structure MmPlan where
  trans : Bool
  da : W512
  /-- Weight descriptor, or the plane with REUSE. -/
  dw : Option W512
  reuse : Nat
  wf : Fmt
  isInt : Bool
  m : Nat
  red : Nat
  n : Nat
  /-- Reduction values a weight tile covers, and outputs per accumulator tile. -/
  kt : Nat
  group : Nat
  width : Nat
  acc : Nat
  tiles : Nat

/-- The 4-bit formats that a pair of them doubles (Table 4.3). -/
def both4 (a w : Fmt) : Bool := a.is4 && w.is4

/-- Table 4.2. -/
def legalPlan (trans : Bool) (m red n kt : Nat) : Bool :=
  if trans then 16 ≤ m && m ≤ 64 && m % 16 == 0 && 64 ≤ red && red ≤ 1024 && red % 64 == 0 && 256 ≤ n && n ≤ 1024 && n % 256 == 0
  else 16 ≤ m && m ≤ 256 && m % 16 == 0 && 256 ≤ red && red ≤ 4096 && red % kt == 0 && 64 ≤ n && n ≤ 256 && n % 64 == 0

/-- The plan of an `mm`, or the cause it traps with: descriptors, pairing, mode, shape, tiles. (DEDUCED, log 31;
DEDUCED, log 32.) -/
def mmPlan (k : Core) (w : Nat) : Except Nat MmPlan :=
  let da := k.dr (bits w 49 46)
  let sel := bits w 45 41
  let trans := bit w 50
  let reuse := 0x10 ≤ sel
  let dw := k.dr (sel % 16)
  let pl := k.plane (sel % 2)
  match checkMat da, (if reuse then .ok () else checkMat dw) with
  | .error e, _ => .error e
  | .ok _, .error e => .error e
  | .ok _, .ok _ =>
    if !Desc.inOb da || (!reuse && !Desc.inOb dw) then .error Cause.operandRange
    else if reuse && !pl.valid then .error Cause.planeInvalid
    else
      let af := Desc.fmt da
      let wf := if reuse then pl.format else Desc.fmt dw
      let kt := if reuse then pl.k else if both4 af wf then 512 else 256
      let m := Desc.dim1 da
      let red := Desc.dim0 da
      let n := if reuse then (if trans then 256 else 64) else if trans then Desc.dim0 dw else Desc.dim1 dw
      let wred := if reuse then (if trans then 64 else pl.k) else if trans then Desc.dim1 dw else Desc.dim0 dw
      let tiles := if trans then n / 256 else n / 64
      let acc := bits w 40 39
      if af.pairsWith wf = false then .error Cause.pair
      else if (bit w 51 && trans) || (trans && wf.is4) then .error Cause.mode
      else if red ≠ wred then .error Cause.shape
      else if legalPlan trans m red n kt = false ∨ (reuse && !trans && (red != kt || (wf.is4 && (kt == 512) != both4 af wf))) = true then
        .error Cause.shape
      else if 4 < acc + tiles then .error Cause.tileRange
      else .ok { trans := trans, da := da, dw := if reuse then none else some dw, reuse := sel % 2, wf := wf,
                 isInt := af.isInt, m := m, red := red, n := n, kt := kt, group := if trans then 64 else 256,
                 width := if trans then 256 else 64, acc := acc, tiles := tiles }

/-- INIT (Table 6.9): KEEP needs a tile of the same shape and type; LOAD a tile of the accumulator's format that covers
the plan (R145, R146, R494). -/
def initCheck (k : Core) (p : MmPlan) (w : Nat) : Except Nat Unit :=
  match bits w 38 37 with
  | 2 =>
    if (upFrom p.acc p.tiles).any fun t => (k.tile t).transposed != p.trans || (k.tile t).isInt != p.isInt then
      .error Cause.accShape
    else .ok ()
  | 1 =>
    let d := k.dr (bits w 36 33)
    andThen (checkMat d) <|
    if Desc.fmt d ≠ (if p.isInt then .int32 else .fp32) then .error Cause.format
    else if Desc.dim1 d < p.m ∨ Desc.dim0 d < p.n then .error Cause.shape
    else .ok ()
  | _ => .ok ()

/-- The storage position of element (r, c) of a tile (R145). -/
def tilePos (trans : Bool) (r c : Nat) : Nat := if trans then r * 256 + c else r * 64 + c

/-- One output element: its groups in increasing reduction index added to its initial value (R112, R115, R133, R134). -/
def mmElement (p : MmPlan) (kLive : Nat) (aVal : Nat → Nat → Val) (aInt : Nat → Nat → Int)
    (wVal : Nat → Nat → Val) (wInt : Nat → Nat → Int) (i j init : Nat) : Nat × Conds :=
  (upFrom 0 (p.red / p.group)).foldl
    (fun acc g =>
      let idx := upFrom (g * p.group) p.group
      if p.isInt then
        let s := intSum ((idx.filter (· < kLive)).map fun r => (aInt i r, wInt r j))
        let r := accInt acc.1 s
        (r.1, acc.2.join r.2)
      else
        let ps := idx.map fun r => if r < kLive then opProduct (aVal i r) (wVal r j) else (Val.zero false, .none)
        let s := windowSum (ps.map (·.1))
        let r := accFloat acc.1 s.1
        (r.1, acc.2.join ((Conds.joinAll (ps.map (·.2))).join (s.2.join r.2))))
    (init, .none)

/-- The weight tiles of an instruction in pass order: (accumulator tile, reduction tile) (R133). -/
def mmPasses (p : MmPlan) : List (Nat × Nat) :=
  let per := if p.trans then p.red / 64 else p.red / p.kt
  (upFrom 0 p.tiles).flatMap fun t => (upFrom 0 per).map fun g => (t, g)

/-- The planes after the instruction: weight tiles alternate from the first plane on (R133, R208). -/
def mmPlanes (p : MmPlan) (first : Nat) (k : Core) : Core :=
  match p.dw with
  | none => k
  | some d =>
    let ps := mmPasses p
    let last := ps.length - 2
    (upFrom last 2).foldl (fun k i =>
      match ps[i]? with
      | none => k
      | some (t, g) =>
        let k0 := if p.trans then t * 256 else g * p.kt
        let n0 := if p.trans then g * 64 else t * 64
        k.setPlane ((first + i) % 2) (k.loadTile d k0 n0 p.kt)) k

/-- The operand-buffer rows an `mm` reads. -/
def mmReads (p : MmPlan) : List ObRange :=
  Desc.flatOb p.da ++ (match p.dw with | some d => Desc.flatOb d | none => [])

/-- Initial accumulator rows of INIT = LOAD. -/
def mmInit (c w mr nr : Nat) (s : State) : Option (List (List Nat)) × Nat × State :=
  if bits w 38 37 = 1 then fetchRows c ((s.core c).dr (bits w 36 33)) mr nr s
  else (some [], 0, s)

/-- Array steps of an instruction's passes: live rows times the row interval (R138, Table 4.3). (DEDUCED, log 37.) -/
def mmBusy (p : MmPlan) (mr : Nat) : Nat :=
  mr * (if (Desc.fmt p.da).cls = some .f16 then 2 else 1) * (mmPasses p).length

/-- The shard ranges that a RACC output of `mr` rows and `nr` columns names (R169 to R171, R217). -/
def raccRanges (d : W512) (mr nr : Nat) : List (Nat × Nat) := (upFrom 0 mr).map fun y => (Desc.rowAt d 0 y, 4 * nr)

/-- The device ranges and granules of an epilogue: traps, waits, then the body. -/
def epiGate (c w e2 : Nat) (ep mr nr : Nat) (obs : List ObRange) (extra : List (W512 × List (Nat × Nat)))
    (go : State → State) (s : State) : State :=
  let k := s.core c
  let reads := extra ++ epiReads k ep mr nr
  let d := k.dr (Epi.dout ep)
  let writes : Bool := Epi.toStore ep || Epi.toOperand ep
  let rowsOut := if Epi.axis ep then nr else mr
  let outs := if writes then
      let f := Desc.fmt d
      let cols := if Epi.axis ep then mr else nr
      let cols := if f.isBlock then (cols + 31) / 32 * 32 else cols
      (upFrom 0 rowsOut).flatMap fun y =>
        [(Desc.rowAt d 0 y, (cols * f.bits + 7) / 8),
         (Desc.scaleAt d 0 y, if f.isBlock then cols / 32 * f.scaleBytes else 0)]
    else []
  let rd := reads.flatMap fun r => devRanges r.1 r.2
  let rdm := reads.flatMap fun r => (devRanges r.1 r.2).map fun x => (Desc.marks r.1, x)
  let obr := obs ++ reads.flatMap fun r => if Desc.inOb r.1 then r.2.map fun x => ⟨x.1, x.2⟩ else []
  let obw : List ObRange := if writes && Desc.inOb d then outs.map fun x => ⟨x.1, x.2⟩ else []
  let wr := if writes then devRanges d outs else []
  let racc := if Epi.toRacc ep then raccRanges d mr nr else []
  match rangesTrap s false rd, rangesTrap s true (wr ++ racc) with
  | some x, _ => trap c x s
  | none, some x => trap c x s
  | none, none =>
    if k.readBlocked obr || k.writeBlocked obw then holdGranule c w e2 false s
    else if mxeFull k then holdIn c w e2 false s
    else if cruHolds s && !(rd.isEmpty && wr.isEmpty && racc.isEmpty) then holdIn c w e2 false (hold (.core c) s)
    else
      let q := rangesNeed c false rdm s
      let q2 := rangesNeed c true (wr.map fun x => (Desc.marks d, x)) q.1
      if q.2 || q2.2 then holdIn c w e2 false q2.1 else go q2.1

/-- A local RACC output must lie in HBM (R217, R209). -/
def raccDest (s : State) (k : Core) (ep : Nat) : Except Nat Unit :=
  if Epi.toRacc ep then
    match coreAddr s (BitVec.ofNat 64 (Desc.base (k.dr (Epi.dout ep)))) 4 false with
    | .error e => .error e
    | .ok (.loc va) =>
      match translate s .write va with
      | none => .error Cause.translation
      | some (pa, _) => if pa < 2 ^ 39 then .ok () else .error Cause.operandRange
    | .ok _ => .ok ()
  else .ok ()

/-- The passes of an `mm` and its epilogue. -/
def mmRun (c w : Nat) (p : MmPlan) (ep mr nr kr : Nat) (s : State) : State :=
  let k := s.core c
  if (mmReads p).any (fun r => k.obPoisoned r.lo r.n) then trap c Cause.poison s
  else match mmInit c w mr nr s with
  | (none, x, s) => trap c x s
  | (some rows, _, s) =>
    let k := s.core c
    let pl := k.plane p.reuse
    let wVal (r j : Nat) : Val := match p.dw with
      | some d => if p.trans then k.obVal d r j else k.obVal d j r
      | none => if p.trans then pl.val j r else pl.val r j
    let wInt (r j : Nat) : Int := match p.dw with
      | some d => if p.trans then k.obInt d r j else k.obInt d j r
      | none => if p.trans then pl.int j r else pl.int r j
    let init (i j : Nat) : Nat := match bits w 38 37 with
      | 0 => 0
      | 1 => (rows.getD i []).getD j 0
      | _ => (Tab.get 0 (k.tile (p.acc + j / p.width)).vals (tilePos p.trans i (j % p.width))).toNat
    let out := (upFrom 0 mr).map fun i => (upFrom 0 nr).map fun j =>
      mmElement p kr (k.obVal p.da) (k.obInt p.da) wVal wInt i j (init i j)
    let at_ (i j : Nat) : Nat := ((out.getD i []).getD j (0, .none)).1
    let cd := Conds.joinAll (out.map fun r => Conds.joinAll (r.map (·.2)))
    let setTiles (k : Core) : Core := (upFrom 0 p.tiles).foldl (fun k t =>
      let old := k.tile (p.acc + t)
      let vals := (upFrom 0 mr).foldl (fun v i =>
        ((upFrom (t * p.width) p.width).filter (· < nr)).foldl (fun v j =>
          Tab.set 0 v (tilePos p.trans i (j % p.width)) (BitVec.ofNat 32 (at_ i j))) v) old.vals
      k.setTile (p.acc + t) { transposed := p.trans, isInt := p.isInt, vals := vals }) k
    let s := s.modCore c fun k => mmPlanes p (b2n (bit w 24)) (setTiles k)
    let r := runEpilogue c ep p.trans p.isInt p.tiles mr nr at_ s
    match r.2.2 with
    | some x => trap c x r.1
    | none => mxeIssue c 8 (cd.join r.2.1) (mmBusy p mr) id r.1

/-- `mm` (R208). -/
def bodyMm : Body := fun c w _ s =>
  let k := s.core c
  let ep := (k.xr (bits w 29 25)).toNat
  let ks := k.kr (bits w 32 30)
  match mmPlan k w with
  | .error e => trap c e s
  | .ok p =>
    match andThen (initCheck k p w) (andThen (epiCheck k ep p.m p.n p.trans) (raccDest s k ep)) with
    | .error e => trap c e s
    | .ok _ =>
      let mr := ks.m.toNat
      let nr := ks.n.toNat
      if p.m < mr ∨ p.n < nr ∨ p.red < ks.k.toNat then trap c Cause.shapeRt s
      else if mr = 0 ∨ nr = 0 then finish c 8 id s
      else
        let dinit := k.dr (bits w 36 33)
        let extra := if bits w 38 37 = 1 then
            [(dinit, (upFrom 0 mr).map fun y => (Desc.rowAt dinit 0 y, 4 * nr))] else []
        epiGate c w 0 ep mr nr (mmReads p) extra (mmRun c w p ep mr nr ks.k.toNat) s

/-- `pload` (R210). -/
def bodyPload : Body := fun c w _ s =>
  let k := s.core c
  let d := k.dr (bits w 51 48)
  match checkMat d with
  | .error e => trap c e s
  | .ok _ =>
    let f := Desc.fmt d
    let kt := if f.is4 then 512 else 256
    if !Desc.inOb d then trap c Cause.operandRange s
    else if !f.isOperand then trap c Cause.format s
    else if Desc.dim0 d < kt ∨ Desc.dim1 d < 64 then trap c Cause.shape s
    else if k.readBlocked (Desc.flatOb d) then holdGranule c w 0 false s
    else if mxeFull k then holdIn c w 0 false s
    else if (Desc.flatOb d).any (fun r => k.obPoisoned r.lo r.n) then trap c Cause.poison s
    else mxeIssue c 8 .none 0 (fun k => k.setPlane (b2n (bit w 47)) (k.loadTile d 0 0 kt)) s

/-- `tepi` (R210): the epilogue on the live part of one tile, in the tile's own shape and type. -/
def bodyTepi : Body := fun c w _ s =>
  let k := s.core c
  let t := k.tile (bits w 51 50)
  let ks := k.kr (bits w 49 47)
  let ep := (k.xr (bits w 46 42)).toNat
  let m := if t.transposed then 64 else 256
  let n := if t.transposed then 256 else 64
  match andThen (epiCheck k ep m n t.transposed) (raccDest s k ep) with
  | .error e => trap c e s
  | .ok _ =>
    let mr := ks.m.toNat
    let nr := ks.n.toNat
    if m < mr ∨ n < nr then trap c Cause.shapeRt s
    else if mr = 0 ∨ nr = 0 then finish c 8 id s
    else
      epiGate c w 0 ep mr nr [] []
        (fun s =>
          let acc (i j : Nat) : Nat := (Tab.get 0 t.vals (tilePos t.transposed i j)).toNat
          let r := runEpilogue c ep t.transposed t.isInt 1 mr nr acc s
          match r.2.2 with
          | some x => trap c x r.1
          | none => mxeIssue c 8 r.2.1 0 id r.1) s

/-- The tile row and segment of `vtget` and `vtput` (R210); none when outside the tile's shape. -/
def vtPos (t : Tile) (x : W64) : Option Nat :=
  let row := bits x.toNat 7 0
  let seg := bits x.toNat 9 8
  if t.transposed then (if row < 64 then some (row * 256 + seg * 64) else none)
  else if seg = 0 then some (row * 64) else none

/-- `vtget`. -/
def bodyVtget : Body := fun c w _ s =>
  let k := s.core c
  let t := k.tile (Iw.ra w)
  match vtPos t (k.xr (Iw.rb w)) with
  | none => trap c Cause.tileRange s
  | some p =>
    vecIssue c w .none (fun k => k.setV (Iw.rd w)
      (ofLanes 32 ((upFrom p 64).map fun i => (Tab.get 0 t.vals i).toNat))) s

/-- `vtput`. -/
def bodyVtput : Body := fun c w _ s =>
  let k := s.core c
  let t := k.tile (Iw.ra w)
  match vtPos t (k.xr (Iw.rb w)) with
  | none => trap c Cause.tileRange s
  | some p =>
    let ls := lanes 32 64 (k.vr (Iw.rc w))
    vecIssue c w .none (fun k => k.setTile (Iw.ra w)
      { t with vals := (upFrom 0 64).foldl (fun v i => Tab.set 0 v (p + i) (BitVec.ofNat 32 (ls.getD i 0))) t.vals }) s

end Sys2Proof.Machine
end

