-- ==== Sys2Proof/Machine/CoreAttn.lean ====
section
/-! DEFINITION. Fused attention (R155 to R160, R211). -/

namespace Sys2Proof.Machine

/-- What an `attn` has settled at issue (Table 6.12). -/
structure AttnPlan where
  dq : W512
  dk : W512
  dv : W512
  dm : W512
  m : Nat
  d : Nat
  ts : Nat
  ot : Nat
  sb : Bool
  first : Bool
  mask : Nat
  g : Nat
  pf : Fmt
  sr : Bool
  qbase : Nat
  kbase : Nat

/-- The P format of PFMT. -/
def attnP : Nat → Fmt
  | 0 => .bf16
  | 1 => .fp16
  | 2 => .e4m3
  | _ => .e5m2

/-- The checks of `attn` (R211, R155, R128). (DEDUCED, log 31; DEDUCED, log 32; DESIGN CHOICE, log 193.) -/
def attnPlan (k : Core) (w e : Nat) : Except Nat AttnPlan :=
  let dq := k.dr (bits w 51 48)
  let dk := k.dr (bits w 47 44)
  let dv := k.dr (bits w 43 40)
  let dm := k.dr (bits e 40 37)
  let bm : Bool := bits w 18 17 == 2
  let d := Desc.dim0 dq
  let m := Desc.dim1 dq
  let ts := bits w 39 38
  let ot := bits w 37 36
  let sb := bit w 12
  let first := bit w 16
  let pf := attnP (bits w 15 14)
  match andThen (checkMat dq) (andThen (checkMat dk) (andThen (checkMat dv) (checkIf bm (checkMat dm)))) with
  | .error x => .error x
  | .ok _ =>
    let fq := Desc.fmt dq
    let fk := Desc.fmt dk
    let fv := Desc.fmt dv
    let outs := upFrom ot (d / 64)
    if !Desc.inOb dq || !Desc.inOb dk || !Desc.inOb dv || (bm && !Desc.inOb dm) then .error Cause.operandRange
    else if fq.isOperand = false ∨ fq.cls ≠ fk.cls ∨ fk.cls ≠ fv.cls ∨ fk.is4 = true ∨ pf.pairsWith fv = false then .error Cause.pair
    else if !(d == 64 || d == 128 || d == 192 || d == 256) || Desc.dim1 dk != 256 || Desc.dim1 dv != 256
        || Desc.dim0 dk != d || Desc.dim0 dv != d || m < 16 || 64 < m || m % 16 != 0
        || (bm && (Desc.rowBytes dm < 32 || Desc.dim1 dm < m)) then .error Cause.shape
    else if 4 < ot + d / 64 || (sb && ts != 0) || (!sb && (outs.contains ts || d == 256)) then .error Cause.tileRange
    else if !first && outs.any (fun t => (k.tile t).transposed || (k.tile t).isInt) then .error Cause.accShape
    else .ok { dq := dq, dk := dk, dv := dv, dm := dm, m := m, d := d, ts := ts, ot := ot, sb := sb, first := first,
               mask := bits w 18 17, g := bits e 45 41, pf := pf, sr := bit w 13,
               qbase := (k.xr (bits e 55 51)).toNat, kbase := (k.xr (bits e 50 46)).toNat }

/-- Key `j` is masked for query row `r` (R159). (DEDUCED, log 34.) -/
def attnMasked (k : Core) (p : AttnPlan) (r j : Nat) : Bool :=
  match p.mask with
  | 1 => (p.qbase + r) / 2 ^ p.g < (p.kbase + j) / 2 ^ p.g
  | 2 => (k.obByte (Desc.rowAt p.dm 0 r + j / 8)).getLsbD (j % 8)
  | _ => false

/-- The score of query row `r` and key `j`: the d/64 slices accumulate from +0, one group of 64 each (R157). -/
def attnScore (k : Core) (p : AttnPlan) (kLive r j : Nat) : Nat × Conds :=
  (upFrom 0 (p.d / 64)).foldl
    (fun acc h =>
      let ps := (upFrom (64 * h) 64).map fun n =>
        if n < kLive then opProduct (k.obVal p.dq r n) (k.obVal p.dk j n) else (Val.zero false, .none)
      let s := windowSum (ps.map (·.1))
      let a := accFloat acc.1 s.1
      (a.1, acc.2.join ((Conds.joinAll (ps.map (·.2))).join (s.2.join a.2))))
    (0, .none)

/-- The row function's results for one row: m, l, alpha, whether the row is one that R160 leaves unchanged, and P. That
every position so far is masked is told from m = −∞ and the present block alone. (DEDUCED, log 183.) -/
structure AttnRow where
  m : Nat
  l : Nat
  alpha : Nat
  dead : Bool
  p : List Nat
  conds : Conds

/-- The row function of R157 on the scores of one row. -/
def attnRow (k : Core) (p : AttnPlan) (sigma keys r : Nat) (m l : Nat) (scores : List Nat) : AttnRow :=
  let F := FFmt.fp32
  let masked (j : Nat) : Bool := attnMasked k p r j || decide (keys ≤ j)
  let xs := (upFrom 0 256).map fun j =>
    let x := if keys ≤ j then (0xFF800000, Conds.none) else fmul F (scores.getD j 0) sigma
    if masked j then (0xFF800000, x.2) else x
  let mNew := listMax m (xs.map (·.1))
  if mNew = 0xFF800000 then
    let sum := treeSum 8 ((upFrom 0 256).map fun _ => 0)
    let la := fmul F l 0x3F800000
    let ln := fadd F la.1 sum.1
    { m := mNew, l := ln.1, alpha := 0x3F800000, dead := (upFrom 0 256).all masked, p := (upFrom 0 256).map fun _ => 0,
      conds := (Conds.joinAll (xs.map (·.2))).join (la.2.join ln.2) }
  else
    let dm := fsub F m mNew
    let al := fexp dm.1
    let pe := (upFrom 0 256).map fun j =>
      if masked j then (0, Conds.none)
      else
        let x := fsub F (xs.getD j (0, .none)).1 mNew
        let y := fexp x.1
        let c := convertTo p.pf (if p.sr then .sr else .rne) (srOf k (r * 1024 + j)) false (F.decode y.1)
        (c.1, x.2.join (y.2.join c.2))
    let wide := pe.map fun c => (F.rne (p.pf.elemVal c.1)).1
    let sum := treeSum 8 wide
    let la := fmul F l al.1
    let ln := fadd F la.1 sum.1
    { m := mNew, l := ln.1, alpha := al.1, dead := false, p := pe.map (·.1),
      conds := (Conds.joinAll (xs.map (·.2))).join (dm.2.join (al.2.join ((Conds.joinAll (pe.map (·.2))).join
        (sum.2.join (la.2.join ln.2))))) }

/-- A product of P and V: a NaN of P, which is no operand element, raises no NAN_IN (R220). -/
def pvProduct (x v : Val) : Val × Conds :=
  let r := opProduct x v
  (r.1, { r.2 with nanIn := decide (v = .nan) })

/-- One output element: scaled by alpha, then one group of 256 keys added (R157). A row masked so far is unchanged
(R160). -/
def attnOut (k : Core) (p : AttnPlan) (keys : Nat) (row : AttnRow) (old col : Nat) : Nat × Conds :=
  if row.dead then (old, .none)
  else
    let o := fmul FFmt.fp32 old row.alpha
    let ps := (upFrom 0 256).map fun j =>
      if j < keys then pvProduct (p.pf.elemVal (row.p.getD j 0)) (k.obVal p.dv j col) else (Val.zero false, .none)
    let s := windowSum (ps.map (·.1))
    let a := accFloat o.1 s.1
    (a.1, o.2.join ((Conds.joinAll (ps.map (·.2))).join (s.2.join a.2)))

/-- Lane `r` of a vector register. -/
def laneGet (v : W2048) (r : Nat) : Nat := (v.extractLsb' (32 * r) 32).toNat
/-- A vector register with lane `r` replaced. -/
def laneSet (v : W2048) (r x : Nat) : W2048 := BitVec.ofNat 2048 (putBits v.toNat (32 * r + 31) (32 * r) x)

/-- The whole block of R157 on the live rows. (DEDUCED, log 33.) -/
def attnRun (w : Nat) (p : AttnPlan) (mr keys kLive : Nat) (k : Core) : Core × Conds :=
  let vm := bits w 35 31
  let vl := bits w 30 26
  let sigma := (k.fr (bits w 25 22)).toNat
  let scores := (upFrom 0 mr).map fun r => (upFrom 0 keys).map fun j => attnScore k p kLive r j
  let sc (r : Nat) : List Nat := (scores.getD r []).map (·.1)
  let rows := (upFrom 0 mr).map fun r =>
    let m := if p.first then 0xFF800000 else laneGet (k.vr vm) r
    let l := if p.first then 0 else laneGet (k.vr vl) r
    attnRow k p sigma keys r m l (sc r)
  let dead : AttnRow := { m := 0, l := 0, alpha := 0, dead := true, p := [], conds := .none }
  let outs := (upFrom 0 mr).map fun r => (upFrom 0 p.d).map fun c =>
    let old := if p.first then 0 else (Tab.get 0 (k.tile (p.ot + c / 64)).vals (r * 64 + c % 64)).toNat
    attnOut k p keys (rows.getD r dead) old c
  let out (r c : Nat) : Nat := ((outs.getD r []).getD c (0, .none)).1
  let cd := (Conds.joinAll (scores.map fun r => Conds.joinAll (r.map (·.2)))).join
    ((Conds.joinAll (rows.map (·.conds))).join (Conds.joinAll (outs.map fun r => Conds.joinAll (r.map (·.2)))))
  let k' := (upFrom 0 (p.d / 64)).foldl (fun k t =>
    let vals := (upFrom 0 mr).foldl (fun v r =>
      (upFrom 0 64).foldl (fun v c => Tab.set 0 v (r * 64 + c) (BitVec.ofNat 32 (out r (64 * t + c)))) v)
      (k.tile (p.ot + t)).vals
    k.setTile (p.ot + t) { vals := vals }) k
  let fill (v : Tab W32) : Tab W32 := (upFrom 0 mr).foldl (fun v r =>
    (upFrom 0 keys).foldl (fun v j => Tab.set 0 v (r * 256 + j) (BitVec.ofNat 32 ((sc r).getD j 0))) v) v
  let k' := if p.sb then { k' with score := fill [] }
    else k'.setTile p.ts { transposed := true, isInt := false, vals := fill (k'.tile p.ts).vals }
  let k' := (upFrom 0 mr).foldl (fun k r =>
    let row := rows.getD r dead
    (k.setV vm (laneSet (k.vr vm) r row.m)).setV vl (laneSet ((k.setV vm (laneSet (k.vr vm) r row.m)).vr vl) r row.l)) k'
  let k' := (k'.setPlane 0 { k'.plane 0 with valid := false })
  (k'.setPlane 1 { k'.plane 1 with valid := false }, cd)

/-- `attn` (R211). -/
def bodyAttn : Body := fun c w e s =>
  let k := s.core c
  let ks := k.kr (bits w 21 19)
  match attnPlan k w e with
  | .error x => trap c x s
  | .ok p =>
    let mr := ks.m.toNat
    let keys := ks.n.toNat
    let obs := Desc.flatOb p.dq ++ Desc.flatOb p.dk ++ Desc.flatOb p.dv
      ++ (if p.mask = 2 then Desc.flatOb p.dm else [])
    if p.m < mr ∨ 256 < keys ∨ p.d < ks.k.toNat then trap c Cause.shapeRt s
    else if mr = 0 ∨ keys = 0 then finish c 16 id s
    else if k.readBlocked obs then holdGranule c w e false s
    else if mxeFull k then holdIn c w e false s
    else if obs.any (fun r => k.obPoisoned r.lo r.n) then trap c Cause.poison s
    else
      let r := attnRun w p mr keys ks.k.toNat k
      let busy := mr * (if (Desc.fmt p.dq).cls = some .f16 then 2 else 1) * (2 * (p.d / 64))
      mxeIssue c 16 r.2 busy (fun _ => r.1) s

end Sys2Proof.Machine
end

