-- ==== Sys2Proof/Machine/Events.lean ====
section
/-! DEFINITION. Event slots (R268 to R270) and the stage queues' shared operations (R74 to R79). -/

namespace Sys2Proof.Machine

namespace State
/-- The value of an event slot. -/
def event (s : State) (slot : Nat) : W64 := Tab.get 0 s.events (slot % 4096)
/-- One ring. -/
def ring (s : State) (r : Nat) : Ring := Tab.get {} s.rings r
/-- Changes one ring. -/
def modRing (s : State) (r : Nat) (f : Ring → Ring) : State := { s with rings := Tab.modify {} s.rings r f }
end State

namespace Cb
/-! Fields of a 64-byte command (Tables 8.2 to 8.7). -/
/-- The number in `n` bytes at a byte offset. -/
def at_ (b : W512) (off n : Nat) : Nat := bits b.toNat (8 * (off + n) - 1) (8 * off)
def opcode (b : W512) : Nat := at_ b 0 1
def flags (b : W512) : Nat := at_ b 1 1
def serial (b : W512) : Bool := bit (flags b) 0
def cqe (b : W512) : Bool := bit (flags b) 1
def ext (b : W512) : Bool := bit (flags b) 2
def irq (b : W512) : Bool := bit (flags b) 3
def cont (b : W512) : Bool := bit (flags b) 4
def det (b : W512) : Bool := bit (flags b) 5
def timeout (b : W512) : Nat := at_ b 4 4
def event (b : W512) : Nat := at_ b 16 2 % 4096
def value (b : W512) : Nat := at_ b 24 8
/-- The address in bytes 16 to 23. -/
def addr (b : W512) : Nat := at_ b 16 8
end Cb

/-- Something happens that breaks a mutual wait (R276). -/
def mwBreak (s : State) : State := { s with mwBroken := true }

/-- Marks the waiters of a slot whose operand the new value has reached (R269): running WAIT commands and cores held in
`ewait`. -/
def eventWake (slot : Nat) (v : W64) (s : State) : State :=
  let wake (c : Cmd) : Cmd :=
    if Cb.opcode c.body = 0x05 ∧ Cb.event c.body = slot ∧ Cb.value c.body ≤ v.toNat then { c with met := true } else c
  let s := forEach (fun r s => s.modRing r fun k => { k with running := k.running.map wake }) (s.rings.map (·.1)) s
  forEach (fun c s =>
    let k := s.core c
    match k.hold with
    | some h =>
      let w := h.w.toNat
      if bits w 62 56 = 0x61 ∧ (k.xr (Iw.ra w)).toNat % 4096 = slot ∧ (k.xr (Iw.rb w)).toNat ≤ v.toNat then
        s.setCore c { k with hold := some { h with met := true } }
      else s
    | none => s) (s.cores.map (·.1)) s

/-- A slot takes a value; a change is seen by every waiter and breaks a mutual wait. -/
def eventSet (slot : Nat) (v : W64) (s : State) : State :=
  let slot := slot % 4096
  if s.event slot = v then s
  else
    let s : State := { s with events := Tab.set 0 s.events slot v }
    mwBreak (eventWake slot v s)

/-- RECORD with OP MAX (R268). -/
def eventMax (slot : Nat) (v : W64) (s : State) : State :=
  eventSet slot (if (s.event slot).toNat < v.toNat then v else s.event slot) s

/-- RECORD with OP ADD, saturating (R268). -/
def eventAdd (slot : Nat) (v : W64) (s : State) : State :=
  eventSet slot (BitVec.ofNat 64 (satAdd 64 (s.event slot).toNat v.toNat)) s

end Sys2Proof.Machine
end

