-- ==== Sys2Proof/Machine/StageQueue.lean ====
section
/-! DEFINITION. Stage queues (R74 to R79, R218, R336, R337) and the work counters' TAKE and REISSUE (R178 to R181,
R354). -/

namespace Sys2Proof.Machine

/-- Slots of a queue. -/
def sqSlots (s : State) (q : Nat) : Nat := s.fld (Reg.sqCtl q) 22 16

/-- Slots an entry of `len` bytes takes; a length of zero takes one (R75, R218). -/
def slotsFor (s : State) (q len : Nat) : Nat := max 1 ((len + sqSlot s q - 1) / sqSlot s q)

/-- Credits the producer end holds. -/
def sqCredits (s : State) (q : Nat) : Nat := sqSlots s q - (s.sq q).used

/-- The queue is in service with this end on the device (bit 1 producer, bit 2 consumer). -/
def sqHas (s : State) (q endBit : Nat) : Bool := s.flag (Reg.sqCtl q) 0 && s.flag (Reg.sqCtl q) endBit

/-- What a stage-queue operation answers: a result, a failure code of R218, or a wait. -/
inductive SqAns where
  | ok (v : Nat)
  | fail (code : Nat)
  | wait
deriving DecidableEq, Repr

/-- A reservation (R75): consecutive slots from the next one on. An entry that runs past the last slot goes on at the
slot with that number modulo SLOT_COUNT, though the answer is the first slot's address. (DESIGN CHOICE, log 185.) -/
def sqReserve (q len : Nat) (s : State) : SqAns × State :=
  if sqHas s q 1 = false then (.fail 2, s)
  else
    let n := slotsFor s q len
    if sqSlots s q < n then (.fail 1, s.setFlag (Reg.sqFault q) 0)
    else if sqCredits s q < n then (if (s.sq q).lost then .fail 3 else .wait, s)
    else
      let k := s.sq q
      let e : SqEntry := { first := k.next, count := n, len := none }
      let s := s.modSq q fun k =>
        { k with next := (k.next + n) % sqSlots s q, used := k.used + n, reserved := k.reserved ++ [e] }
      let a := sqBase s q + e.first * sqSlot s q
      (.ok (if sqRemote s q then s.fld (Reg.sqPeer q) 12 0 * 2 ^ 50 + a else a), s)

/-- The leading reservations that have been published, and the rest (R76). -/
def splitPublished : List SqEntry → List SqEntry × List SqEntry
  | [] => ([], [])
  | e :: t => if e.len.isSome then ((e :: (splitPublished t).1), (splitPublished t).2) else ([], e :: t)

/-- A publish sent to the consumer: the first slot's address, and the length and slots as data. (DESIGN CHOICE,
log 24.) -/
def publishMsg (s : State) (q stream : Nat) (rs : Nat × Nat) (e : SqEntry) : RunMsg :=
  { opc := 0x04, vc := 3, dest := s.fld (Reg.sqPeer q) 12 0, src := ownId s, stream := stream,
    addr := sqBase s q + e.first * sqSlot s q, ring := rs.1, hi := s.fld (Reg.sqPeer q) 23 16 * 4, seq := rs.2,
    data := toBytes 8 (e.len.getD 0).toNat ++ toBytes 8 e.count }

/-- Entries published in order become visible: here, or at the remote consumer by SQ_PUBLISH (R76). -/
def sqShow (q stream : Nat) (rs : Nat × Nat) (s : State) : State :=
  let p := splitPublished (s.sq q).reserved
  let s := s.modSq q fun k => { k with reserved := p.2 }
  if sqRemote s q then forEach (fun e s => runSend (publishMsg s q stream rs e) s) p.1 s
  else s.modSq q fun k => { k with visible := k.visible ++ p.1 }

/-- A publish of the reservation whose first slot an address names (R76): a length beyond the reserved slots, none for
an address that names no reservation, publishes nothing. -/
def sqPublish (q stream : Nat) (rs : Nat × Nat) (addr len : Nat) (s : State) : SqAns × State :=
  if sqHas s q 1 = false then (.fail 2, s)
  else
    let a := addr % 2 ^ 48
    let here (e : SqEntry) : Bool := e.len.isNone && sqBase s q + e.first * sqSlot s q == a
    match (s.sq q).reserved.find? here with
    | none => (.fail 4, s.setFlag (Reg.sqFault q) 1)
    | some e =>
      if e.count * sqSlot s q < len then (.fail 4, s.setFlag (Reg.sqFault q) 1)
      else
        let put (e : SqEntry) : SqEntry := { e with len := some (BitVec.ofNat 64 len) }
        (.ok 0, sqShow q stream rs (s.modSq q fun k => { k with reserved := updateWhere here put k.reserved }))

/-- Shows the entries that have come, in reservation order. -/
def showInOrder (slots : Nat) : Nat → SQueue → SQueue
  | 0, k => k
  | n + 1, k =>
    match k.early.find? fun e => e.first == k.expect with
    | some e =>
      showInOrder slots n { k with visible := k.visible ++ [e], early := dropFirst (fun x => x == e) k.early,
                                   expect := (k.expect + e.count) % slots }
    | none => k

/-- A publish arrives at a remote consumer: its entry is shown when every earlier reservation has been (R76, R77). -/
def sqArrive (q : Nat) (e : SqEntry) (s : State) : State :=
  s.modSq q fun k => showInOrder (sqSlots s q) (k.early.length + 1) { k with early := k.early ++ [e] }

/-- Part of the slots at a queue's consumer lies in the cache window's part of the Crucible (R51). -/
def sqInWindow (s : State) (q : Nat) : Bool :=
  !(sqRemote s q && s.flag (Reg.sqCtl q) 1) &&
    (place s (sqBase s q) == .window || place s (sqBase s q + sqSlots s q * sqSlot s q - 1) == .window)

/-- A pop (R77): the oldest visible entry's first slot address; its length is the second part. -/
def sqPopEntry (q : Nat) (s : State) : SqAns × Nat × State :=
  if sqHas s q 2 = false then (.fail 2, 0, s)
  else match (s.sq q).visible with
    | [] => (if (s.sq q).lost then .fail 3 else .wait, 0, s)
    | e :: t =>
      let base := s.fld (Reg.sqBaseHi q) 15 0 * 2 ^ 32 + s.fld (Reg.sqBaseLo q) 31 12 * 4096
      (.ok (base + e.first * sqSlot s q), (e.len.getD 0).toNat,
        s.modSq q fun k => { k with visible := t, popped := k.popped ++ [e] })

/-- A release of the oldest popped entry (R77): the credits return to the producer, over VC3 when it is remote. -/
def sqRelease (q stream : Nat) (rs : Nat × Nat) (s : State) : SqAns × State :=
  if sqHas s q 2 = false then (.fail 2, s)
  else match (s.sq q).popped with
    | [] => (.fail 5, s)
    | e :: t =>
      let s := s.modSq q fun k => { k with popped := t }
      if sqRemote s q then
        (.ok 0, runSend
          { opc := 0x05, vc := 3, dest := s.fld (Reg.sqPeer q) 12 0, src := ownId s, stream := stream,
            hi := s.fld (Reg.sqPeer q) 23 16 * 4, ring := rs.1, seq := e.count } s)
      else (.ok 0, s.modSq q fun k => { k with used := k.used - e.count })

/-! ## Work counters -/

/-- What TAKE answers (R179). -/
def takeWord (disabled exhausted : Bool) (index gen : Nat) : W64 :=
  BitVec.ofNat 64 (index % 2 ^ 32 + (gen % 2 ^ 16) <<< 32 + (b2n disabled) <<< 62 + (b2n exhausted) <<< 63)

/-- TAKE at a work counter's slice (R178): the word answered, whether it hands out a tile, and the state. -/
def takeAt (n : Nat) (s : State) : W64 × Bool × State :=
  let gen := s.fld (Reg.wcGen n) 15 0
  if s.flag (Reg.wcCtl n) 0 = false then (takeWord true false 0 0, false, s)
  else match (s.wc n).reissue with
    | i :: t => (takeWord false false i.toNat gen, true, s.modWc n fun k => { k with reissue := t })
    | [] =>
      let i := s.reg (Reg.wcIndex n)
      if (s.reg (Reg.wcLimit n)).toNat ≤ i.toNat then (takeWord false true i.toNat gen, false, s)
      else (takeWord false false i.toNat gen, true, s.setReg (Reg.wcIndex n) (i + 1))

/-- REISSUE (R178, R354): refused when the list holds 8 entries or the generation would return to its base; else the
generation rises and the index is appended. -/
def reissueAt (n : Nat) (index : W32) (s : State) : Option State :=
  let g := (s.fld (Reg.wcGen n) 15 0 + 1) % 2 ^ 16
  if 8 ≤ (s.wc n).reissue.length ∨ g = (s.wc n).baseGen.toNat then none
  else some ((s.setFld (Reg.wcGen n) 15 0 g).modWc n fun k => { k with reissue := k.reissue ++ [index] })

end Sys2Proof.Machine
end

