-- ==== Sys2Proof/Machine/CoreSync.lean ====
section
/-! DEFINITION. Synchronisation, notices, time-stamps, counters, TAKE, atomics, stage-queue instructions and the end
of a kernel (R178 to R188, R215 to R218). -/

namespace Sys2Proof.Machine

/-- Under DET an instruction whose V mark is of kind R traps (R186). -/
def vmark (b : Body) : Body := fun c w e s => if (s.core c).det then trap c Cause.vDet s else b c w e s

/-! ## Waits on events and words -/

/-- `erec`. -/
def bodyErec : Body := fun c w _ s =>
  let k := s.core c
  finish c 8 id (eventMax (k.xr (Iw.ra w)).toNat (k.xr (Iw.rb w)) s)

/-- `ewait`. -/
def bodyEwait : Body := fun c w _ s =>
  let k := s.core c
  if (k.xr (Iw.rb w)).toNat ≤ (s.event (k.xr (Iw.ra w)).toNat).toNat then finish c 8 id s else holdIn c w 0 true s

/-- `mwait`. (DEDUCED, log 28.) -/
def bodyMwait : Body := fun c w _ s =>
  let k := s.core c
  let va := bits (k.xr (Iw.ra w)).toNat 47 3 * 8
  if hitsRegSpace va 8 then trap c Cause.privilege s
  else match translate s .read va with
    | none => trap c Cause.translation (noteWalk va s)
    | some (pa, _) =>
      match place s pa with
      | .scratch key =>
        let s := checkWord pa s
        if s.isPoison key then trap c Cause.poison (reportPoison pa s)
        else if mwaitCond (Iw.fn w) (wordAt s key) (k.xr (Iw.rb w)) then finish c 8 id s
        else holdIn c w 0 true s
      | .window => trap c Cause.windowAccess (s.setFlag Reg.cruErrStatus 3)
      | _ => trap c Cause.windowAccess s

/-! ## Notices, time and counters -/

/-- The answer of a post (Table 6.15). -/
def PostResult.code : PostResult → W64
  | .accepted => 0
  | .dropped => 1
  | .refused => 2

/-- `npost`. -/
def bodyNpost : Body := vmark fun c w _ s =>
  let k := s.core c
  let payload := (k.xr (Iw.rb w)).toNat + (k.xr (Iw.rc w)).toNat <<< 64
  let q := bits (k.xr (Iw.ra w)).toNat 5 0
  let r := nqPost q c true (Iw.fn w) (Iw.imm24 w % 4) payload s
  if nqRefuses s q && r.2 != .refused then trap c Cause.windowAccess r.1
  else finish c 8 (fun k => k.setX (Iw.rd w) r.2.code) r.1

/-- `npop`. -/
def bodyNpop : Body := vmark fun c w _ s =>
  let q := bits ((s.core c).xr (Iw.ra w)).toNat 5 0
  if nqRefuses s q then trap c Cause.windowAccess (s.setFlag Reg.cruErrStatus 3)
  else
    let r := nqPop q s
    finish c 8 (fun k => k.setV (Iw.rd w) (r.1.setWidth 2048)) r.2

/-- `tstamp`. -/
def bodyTstamp : Body := vmark fun c w _ s =>
  if dieReloads s (c / 8) then holdIn c w 0 false s else finish c 8 (fun k => k.setX (Iw.rd w) (s.copyOf (c / 8))) s

/-- `tstamp.t`: a trace record of TYPE 0x80. -/
def bodyTstampT : Body := fun c w _ s =>
  if dieReloads s (c / 8) then holdIn c w 0 false s
  else
    let v := ((s.core c).xr (Iw.ra w)).toNat
    finish c 8 id (traceEmit 0x80 (c / 8) c (some c) (Iw.imm24 w % 2 ^ 16 + v <<< 16) s)

/-- The coarsened form C(n) of an event count (R387): 0, or the largest power of 16 not above it. -/
def coarseN (n : Nat) : Nat := if n = 0 then 0 else 16 ^ (Nat.log2 n / 4)

/-- A core counter by its `cntr` selector. -/
def coreCounter (k : Core) (sel : Nat) : W64 :=
  match sel with
  | 0 => k.nonfinite.setWidth 64
  | 1 => k.flushed.setWidth 64
  | 2 => k.retired
  | 3 => k.mxeBusy
  | 4 => BitVec.ofNat 64 (k.stalled / 1000)
  | _ => k.dmaBytes

/-- `cntr`. (DEDUCED, log 27.) -/
def bodyCntr : Body := vmark fun c w _ s =>
  let sel := Iw.imm24 w % 256
  let v := coreCounter (s.core c) sel
  let v := if s.sealed ∧ sel ≤ 1 then BitVec.ofNat 64 (coarseN v.toNat) else v
  finish c 8 (fun k => k.setX (Iw.rd w) v) s

/-! ## Tiles -/

/-- A commit, end or taint message of a reduction (Table 9.3, R308). (DEDUCED, log 26.) -/
def pairMsg (s : State) (c opc vc : Nat) (tileLo tileHi key : Nat) (p : RedPair) : RunMsg :=
  let rs := coreRing s c
  { opc := opc, vc := vc, dest := p.owner, src := ownId s, stream := c % 256, ring := rs.1, seq := rs.2,
    ext := some (redExt p.layer p.red p.deadline tileLo tileHi 0 0 key 0) }

/-- RACC_COMMIT of the held tile to every owner it contributed to (R308); the tile is then no longer held. -/
def commitTile (c : Nat) (s : State) : State :=
  let k := s.core c
  if k.held then
    let send (p : RedPair) (s : State) : State :=
      raccSend (pairMsg s c 0x11 (dataVc (ownId s) p.owner) k.tileLo.toNat k.tileHi.toNat 0 p) s
    (forEach send k.tilePairs s).modCore c fun k => { k.clearHeld with tilePairs := [] }
  else s.modCore c fun k => { k with tilePairs := [] }

/-- The tile of a held core has all its writes accepted (R181). -/
def tileSettled (k : Core) : Bool := !k.held || allAccepted k

/-- A core that takes a tile holds it (R181). -/
def holdTile (c n : Nat) (word : W64) (s : State) : State :=
  s.modCore c fun k =>
    { k with tileLo := word.setWidth 32, took := true,
             tileHi := BitVec.ofNat 32 (bits word.toNat 47 32 + (n % 1024) <<< 16 + 2 ^ 31) }

/-- The static form of TAKE under DET (R187). -/
def takeStatic (c n : Nat) (s : State) : Option (W64 × Bool × State) :=
  let k := s.core c
  let fresh := (k.statics.find? fun t => t.counter == n).isNone
  if fresh = true ∧ 8 ≤ k.statics.length then none
  else
    let new : StaticSlot :=
      { counter := n, first := (s.reg (Reg.wcIndex n)).toNat, limit := (s.reg (Reg.wcLimit n)).toNat,
        gen := s.fld (Reg.wcGen n) 15 0, on := s.flag (Reg.wcCtl n) 0, n := 0 }
    let l := if fresh then k.statics ++ [new] else k.statics
    match l.find? fun t => t.counter == n with
    | none => none
    | some t =>
      if t.on = false then some (takeWord true false 0 0, false, s.modCore c fun k => { k with statics := l })
      else
        let i := t.first + k.rank + t.n * k.size
        let l := updateWhere (fun t => t.counter == n) (fun t => { t with n := t.n + 1 }) l
        let s := s.modCore c fun k => { k with statics := l }
        if t.limit ≤ i then some (takeWord false true i t.gen, false, s) else some (takeWord false false i t.gen, true, s)

/-- `take` (R178 to R181, R187). (DEDUCED, log 30.) -/
def bodyTake : Body := fun c w _ s =>
  let k := s.core c
  let n := if Iw.fnI w = 0 then bits (Iw.imm32 w) 9 0 else bits (k.xr (Iw.ra w)).toNat 9 0
  if tileSettled k = false then holdIn c w 0 false s
  else
    let r := if k.det then takeStatic c n s
      else some (takeAt n (s.count (0x040 + 8 * (n % 16) + 3) 1))
    match r with
    | none => trap c Cause.takeLimit s
    | some (word, tile, s) =>
      let s := commitTile c s
      let s := if tile then holdTile c n word s else s
      finish c 8 (fun k => k.setX (Iw.rd w) word) s

/-- `tend`. (DEDUCED, log 30.) -/
def bodyTend : Body := fun c w _ s =>
  if tileSettled (s.core c) = false then holdIn c w 0 true s else finish c 8 id (commitTile c s)

/-- `end`: waits as R181 and for every unit queue, sends the commit of a held tile and RACC_END for contributions
outside a tile (R308), and ends the core's part. -/
def bodyKernelEnd : Body := fun c w _ s =>
  let k := s.core c
  if !k.dmaQ.isEmpty || !k.mxeQ.isEmpty || !k.vecQ.isEmpty then holdIn c w 0 true s
  else
    let s := commitTile c s
    let send (p : RedPair) (s : State) : State := raccSend (pairMsg s c 0x12 (dataVc (ownId s) p.owner) 0 0 c p) s
    let s := (forEach send k.endPairs s).modCore c fun k => { k with endPairs := [] }
    traceCore c 1 ((finish c 8 id s).modCore c Core.endPart)

/-! ## Atomics -/

/-- An atomic at an address (R62): refused outside naturally aligned scratch words. -/
def atomicAt (c n : Nat) (a : W64) (go : Nat → State → State) (s : State) : State :=
  match coreAddr s a n true with
  | .error e => trap c e s
  | .ok (.loc va) =>
    if a.toNat % n ≠ 0 then trap c Cause.windowAccess (s.setFlag Reg.cruErrStatus 3)
    else match translate s .write va with
      | none => trap c Cause.translation (noteWalk va s)
      | some (pa, _) =>
        match place s pa with
        | .scratch key =>
          let s := checkWord pa s
          if s.isPoison key then trap c Cause.poison (reportPoison pa s)
          else go key (s.count (0x040 + 8 * homeSlice s pa + 3) 1)
        | _ => trap c Cause.windowAccess (s.setFlag Reg.cruErrStatus 3)
  | .ok _ => trap c Cause.translation s

/-- The number in `n` bytes of scratch. -/
def scratchNum (s : State) (key n : Nat) : Nat := ofBytes ((upFrom key n).map (scratchByte s))

/-- An atomic's write of a scratch word; a word of an enabled notice ring is not written (R66). -/
def scratchPut (key n v : Nat) (s : State) : State :=
  if inNoticeRing s key then { s with ringDrops := s.ringDrops + 1 } else rewatchAll (storeBytes key (toBytes n v) s)

/-- `amo.add.w` and `amo.add.d`. (DEDUCED, log 28.) -/
def bodyAmoAdd : Body := vmark fun c w _ s =>
  let k := s.core c
  let n := if Iw.fn w = 0 then 4 else 8
  atomicAt c n (k.xr (Iw.ra w)) (fun key s =>
    let old := scratchNum s key n
    finish c 8 (fun k => k.setX (Iw.rd w) (BitVec.ofNat 64 old))
      (scratchPut key n ((old + (k.xr (Iw.rb w)).toNat) % 2 ^ (8 * n)) s)) s

/-- `amo.fadd` and `amo.fadd.p`: FP32 add by RNE at the slice, which raises no condition of the core (R220).
(DEDUCED, log 28.) -/
def bodyAmoFadd : Body := vmark fun c w _ s =>
  let k := s.core c
  atomicAt c 4 (k.xr (Iw.ra w)) (fun key s =>
    let old := scratchNum s key 4
    let s := scratchPut key 4 (fadd FFmt.fp32 old ((k.xr (Iw.rb w)).toNat % 2 ^ 32)).1 s
    if Iw.fn w = 2 then finish c 8 (fun k => k.setX (Iw.rd w) (BitVec.ofNat 64 old)) s else finish c 8 id s) s

/-- `amo.cas.w` and `amo.cas.d`. (DEDUCED, log 28; DEDUCED, log 29.) -/
def bodyAmoCas : Body := vmark fun c w _ s =>
  let k := s.core c
  let n := if Iw.fn w = 4 then 4 else 8
  atomicAt c n (k.xr (Iw.ra w)) (fun key s =>
    let old := scratchNum s key n
    let s := if old = (k.xr (Iw.rc w)).toNat % 2 ^ (8 * n) then
        scratchPut key n ((k.xr (Iw.rb w)).toNat % 2 ^ (8 * n)) s
      else s
    finish c 8 (fun k => k.setX (Iw.rd w) (BitVec.ofNat 64 old)) s) s

/-! ## Stage-queue instructions (Table 6.17) -/

/-- A failure code as a result (R218). -/
def sqFail (code : Nat) : W64 := BitVec.ofNat 64 (2 ^ 63 + code)

/-- Gives the answer of a queue operation to the instruction's register, or waits. -/
def sqFinish (c w : Nat) (a : SqAns) (f : Core → Core) (s : State) : State :=
  match a with
  | .ok v => finish c 8 (fun k => f (k.setX (Iw.rd w) (BitVec.ofNat 64 v))) s
  | .fail e => finish c 8 (fun k => k.setX (Iw.rd w) (sqFail e)) s
  | .wait => holdIn c w 0 true s

/-- The queue an instruction names. -/
def sqOf (w : Nat) : Nat := Iw.imm24 w % 256

/-- A queue operation whose slots lie in the cache window's part is not performed (R51). -/
def sqGate (b : Body) : Body := fun c w e s =>
  if s.flag (Reg.sqCtl (sqOf w)) 0 && sqInWindow s (sqOf w) then trap c Cause.windowAccess (s.setFlag Reg.cruErrStatus 3)
  else b c w e s

/-- `sqres`. -/
def bodySqres : Body := sqGate fun c w _ s =>
  let r := sqReserve (sqOf w) ((s.core c).xr (Iw.ra w)).toNat s
  sqFinish c w r.1 id r.2
/-- `sqpub`. (DEDUCED, log 25.) -/
def bodySqpub : Body := sqGate fun c w _ s =>
  let k := s.core c
  let r := sqPublish (sqOf w) (c % 256) (coreRing s c) (k.xr (Iw.ra w)).toNat (k.xr (Iw.rb w)).toNat s
  sqFinish c w r.1 id r.2
/-- `sqpop`. -/
def bodySqpop : Body := sqGate fun c w _ s =>
  let r := sqPopEntry (sqOf w) s
  sqFinish c w r.1 (fun k => k.setX (Iw.rd w + 1) (BitVec.ofNat 64 r.2.1)) r.2.2
/-- `sqrel`. -/
def bodySqrel : Body := sqGate fun c w _ s =>
  let r := sqRelease (sqOf w) (c % 256) (coreRing s c) s
  sqFinish c w r.1 id r.2

/-- The body of every row. -/
def coreBody : CoreOp → Body
  | .nop => bodyNop | .intAlu => bodyIntAlu | .intAluImm => bodyIntAluImm | .li => bodyLi | .lui => bodyLui
  | .lid => bodyLid | .pcmp => bodyPcmp | .predicateLogic => bodyPredicateLogic | .pget => bodyPget
  | .pset => bodyPset | .sel => bodySel | .scalarFloatOp => bodyScalarFloatOp | .fcvtFX => bodyFcvtFX
  | .fcvtXF => bodyFcvtXF | .fmvXF => bodyFmvXF | .fmvFX => bodyFmvFX | .fcmp => bodyFcmp | .fli => bodyFli
  | .br => bodyBr | .bp => bodyBp | .bpn => bodyBpn | .jmp => bodyJmp | .callInst => bodyCallInst | .jr => bodyJr
  | .kernelEnd => bodyKernelEnd | .tend => bodyTend | .ld => bodyLd | .st => bodySt | .vld => bodyVld
  | .vst => bodyVst | .dld => bodyDld | .dst => bodyDst | .dset => bodyDset | .dget => bodyDget | .dma => bodyDma
  | .put => bodyPut | .dwait => bodyDwait | .fenceL => bodyFenceL | .fenceA => bodyFenceA | .fenceR => bodyFenceR
  | .mm => bodyMm | .pload => bodyPload | .tepi => bodyTepi | .vtget => bodyVtget | .vtput => bodyVtput
  | .attn => bodyAttn | .vectorArith => bodyVectorArith | .vectorDivSqrt => bodyVectorDivSqrt
  | .vectorFunction => bodyVectorFunction | .vectorBitwise => bodyVectorBitwise | .vmov => bodyVmov
  | .vcmp => bodyVcmp | .vsel => bodyVsel | .vbcast => bodyVbcast | .vlane => bodyVlane | .vred => bodyVred
  | .vredIsum => bodyVredIsum | .vcvt => bodyVcvt | .vquant => bodyVquant | .vdeq => bodyVdeq
  | .srseed => bodySrseed | .erec => bodyErec | .ewait => bodyEwait | .mwait => bodyMwait | .npost => bodyNpost
  | .npop => bodyNpop | .tstamp => bodyTstamp | .tstampT => bodyTstampT | .cntr => bodyCntr | .take => bodyTake
  | .amoAdd => bodyAmoAdd | .amoFadd => bodyAmoFadd | .amoCas => bodyAmoCas | .racc => bodyRacc
  | .sqres => bodySqres | .sqpub => bodySqpub | .sqpop => bodySqpop | .sqrel => bodySqrel | .kset => bodyKset
  | .kget => bodyKget | .trapen => bodyTrapen | .flags => bodyFlags

/-- A held core tries its instruction again. (DEDUCED, log 12.) -/
def retryCore (c : Nat) (s : State) : State :=
  match (s.core c).hold with
  | none => s
  | some h =>
    let met := h.met
    match coreOp h.w.toNat with
    | none => s
    | some op =>
      if (s.core c).stopping then s
      else if cruHolds s && op.reaches h.w.toNat then
        if s.held.contains (.core c) then s else hold (.core c) s
      else
      let s := s.modCore c fun k => { k with hold := none }
      let s := coreBody op c h.w.toNat h.e.toNat s
      if met then s.modCore c fun k => { k with hold := k.hold.map fun h => { h with met := true } } else s

/-- Cores try again, in the order of a list. -/
def retryAll (l : List Nat) (s : State) : State := forEach retryCore l s

/-- Every core of a list that is still held traps; traps at one instant are recorded by core id (R189). -/
def trapWaiters (l : List Nat) (cause : Nat) (s : State) : State :=
  forEach (fun c s => if l.contains c && (s.core c).hold.isSome then trap c cause s else s) (upFrom 0 256) s

/-! ## Fills of the cache window (R56) -/

/-- Storage errors that have arisen by now: a checker meets each when the word is next read (R83, R84). -/
def upsetWords (bad : List (Nat × WordState)) (s : State) : State := forEach (fun e s => s.setWordState e.1 e.2) bad s

/-- No half of a line waits for a snoop of the companion. -/
def lineSettled (s : State) (line : Nat) : Bool := !needsSnoop s false (line * 128) && !needsSnoop s false (line * 128 + 64)

/-- A fill arrives and its merged requests are served in order; a page that has been retired meanwhile gives none. -/
def fillArrives (m : Miss) (s : State) : State :=
  let a := m.line * 128
  let s : State := { s with win := { s.win with misses := s.win.misses.filter fun x => x.line != m.line } }
  retryAll m.waiters (if (s.wline a).valid || pageRetired s a then s else fillHbm a false s)

/-- The outstanding fills arrive before accesses that are performed at once, which take their turn behind those that
wait. (DESIGN CHOICE, log 184.) -/
def settleFills (s : State) : State :=
  if cruHolds s then s
  else
    forEach (fun m s => if lineSettled s m.line && !stackHeld s (m.line * 128) then fillArrives m s else s) s.win.misses s

end Sys2Proof.Machine
end

