-- ==== Sys2Proof/Machine/Counters.lean ====
section
/-! DEFINITION. The counters of Table 11.4 and their coarsened forms (R338, R355 to R358, R387, R388). -/

namespace Sys2Proof.Machine

/-- A sum over the listed cores. -/
def sumCores (s : State) (f : Core → Nat) : Nat := (s.cores.map fun e => f e.2).sum

/-- The exact value of a counter. The per-core counters live in the cores; the device totals 0x000 to 0x003 add what
ended dispatches have left in `ctr`. -/
def counterExact (s : State) (sel : Nat) : W64 :=
  let base := Tab.get 0 s.ctr sel
  match sel with
  | 0x000 => BitVec.ofNat 64 (sumCores s fun k => k.retired.toNat)
  | 0x001 => BitVec.ofNat 64 (sumCores s fun k => k.mxeBusy.toNat)
  | 0x002 => base + BitVec.ofNat 64 (sumCores s fun k => k.nonfinite.toNat)
  | 0x003 => base + BitVec.ofNat 64 (sumCores s fun k => k.flushed.toNat)
  | _ =>
    if 0x200 ≤ sel ∧ sel < 0x200 + 6 * 256 then
      let j := (sel - 0x200) % 6
      coreCounter (s.core ((sel - 0x200) / 6)) j
    else base

/-- A selector that Table 11.4 assigns. -/
def counterAssigned (sel : Nat) : Bool :=
  sel ≤ 0x00A || (0x010 ≤ sel && sel ≤ 0x01A) || (0x020 ≤ sel && sel ≤ 0x034) || (0x040 ≤ sel && sel < 0x180)
    || (0x180 ≤ sel && sel ≤ 0x187) || (0x200 ≤ sel && sel < 0x800)

/-- Counters coarsened by C under seal (Table 12.9). -/
def coarseC (sel : Nat) : Bool :=
  sel == 0x002 || sel == 0x003 || (0x200 ≤ sel && (sel - 0x200) % 6 ≤ 1)
    || (0x0C0 ≤ sel && sel < 0x100 && sel % 8 == 6)

/-- Counters coarsened by T under seal (Table 12.9). -/
def coarseT (sel : Nat) : Bool := sel == 0x011 || sel == 0x012

/-- A counter's value as the device reports it (R387): under seal C of an event count, or T of a time count from its
value at the last Beat that is a multiple of 2³⁰. -/
def counterReported (s : State) (sel : Nat) : W64 :=
  if s.sealed ∧ coarseC sel then BitVec.ofNat 64 (coarseN (counterExact s sel).toNat)
  else if s.sealed ∧ coarseT sel then
    BitVec.ofNat 64 ((Tab.get 0 s.ctrT sel).toNat / 2 ^ 30 * 2 ^ 30)
  else counterExact s sel

/-- A per-dispatch counter (R355). -/
def perDispatch (sel : Nat) : Bool := 0x200 ≤ sel && (sel - 0x200) % 6 ≤ 1

end Sys2Proof.Machine
end

