-- ==== Sys2Proof/Machine/EscBase.lean ====
section
/-! DEFINITION. Rings and the completion arbiter: addresses, the Escapement's reads and writes of memory, completion
entries, the shadow ring, and the commit of a command (R257 to R263, R278 to R285). -/

namespace Sys2Proof.Machine

/-! ## Rings -/

/-- Entries of a ring (R257). -/
def ringN (s : State) (r : Nat) : Nat := 2 ^ s.fld (Reg.ringCtl r) 20 16
/-- The ring's base address. -/
def ringBase (s : State) (r : Nat) : Nat := s.fld (Reg.ringBaseHi r) 15 0 * 2 ^ 32 + s.fld (Reg.ringBaseLo r) 31 12 * 4096
/-- Slots of a completion queue (R278). -/
def cqN (s : State) (r : Nat) : Nat := 2 ^ s.fld (Reg.ringCqCtl r) 20 16
/-- The completion queue's base address. -/
def cqBase (s : State) (r : Nat) : Nat :=
  s.fld (Reg.ringCqBaseHi r) 15 0 * 2 ^ 32 + s.fld (Reg.ringCqBaseLo r) 31 11 * 2048

/-- A ring is a job ring of the sealed job (R378). -/
def isJobRing (s : State) (r : Nat) : Bool :=
  s.sealed && (match s.manifest with
    | some m => m.rings.getLsbD r
    | none => false)

/-- The commands of a ring act with class P (R267, Table 12.2). -/
def ringPriv (s : State) (r : Nat) : Bool := s.flag (Reg.ringCtl r) 2 || isJobRing s r

/-- Serial-number arithmetic (R353): the first number precedes the second. -/
def precedes (a b : W32) : Bool := 1 ≤ (b - a).toNat && (b - a).toNat < 2 ^ 31

/-- The oldest of some sequence numbers, by their distance from a reference. -/
def oldest (ref : W32) (l : List W32) : W32 := l.foldl (fun m x => if (x - ref).toInt < (m - ref).toInt then x else m) ref

/-- RING_HEAD (R258, R273): the oldest of the next command, the running commands and the open LOOPs of the ring. -/
def ringHead (s : State) (r : Nat) : W32 :=
  let k := s.ring r
  let loops := (k.frames.filter fun f => f.kind == .loopF && f.cmd.sub == 0).map fun f => f.cmd.seq
  oldest k.pos.seq (k.running.map (·.seq) ++ loops)

/-- The address of a ring's next command. -/
def posAddr (s : State) (r : Nat) (p : Pos) : Nat :=
  if p.inBuf then p.addr + 64 * p.idx else ringBase s r + 64 * (p.seq.toNat % ringN s r)

/-- The position after a command. -/
def Pos.next (p : Pos) : Pos := if p.inBuf then { p with idx := p.idx + 1 } else { p with seq := p.seq + 1 }

/-- Where a ring goes on from a position: past the stretches that an abort has discarded (R282). -/
def Ring.past (k : Ring) (p : Pos) : Pos :=
  if p.inBuf then p else { p with seq := k.cuts.foldl (fun q c => if c.1 = q then c.2 else q) p.seq }

/-- Moves a ring's position. -/
def Ring.goTo (k : Ring) (p : Pos) : Ring := { k with pos := k.past p }

/-- A command lies at a ring's position: the tail is ahead of it, or the buffer has an entry there. -/
def available (s : State) (r : Nat) (p : Pos) : Bool :=
  if p.inBuf then p.idx < p.entries else precedes p.seq (s.reg (Reg.ringTail r))

/-! ## Memory as the Escapement reaches it -/

/-- The status of a command that met a refused access (R265, R271). -/
def MemErr.status : MemErr → Nat
  | .poison | .retired => 0x17
  | _ => 0x16

/-- The fault byte of R284. -/
def MemErr.faultByte : MemErr → Nat
  | .translation => 1
  | .unmapped => 2
  | .poison | .retired => 4
  | _ => 3

/-- A ring is a host ring of a sealed job: its fetches, completion entries and tail-word reads, and the words its commands
name (Table 12.5), are exempt from the seal's rule of the companion window (R379). (DEDUCED, log 165.) -/
def hostRing (s : State) (r : Nat) : Bool := s.sealed && !isJobRing s r

/-- A device address lies in the companion window outside the sealed ranges. -/
def openWindow (s : State) (a : Nat) : Bool := 0x100000000000 ≤ a && a < 0x200000000000 && !s.inSealedRange a

/-- Where an exempt access reaches the companion window in clear under seal (R379). -/
def reachesOpen (s : State) (clear : Bool) (va : Nat) : Option Nat :=
  match translate s .read va with
  | some (pa, _) => if clear && s.sealed && openWindow s pa then some pa else none
  | none => none

/-- An exempt read asks the companion for each sector and gives it no place in the window. -/
def openRead (ext : Ext) (pa n : Nat) (s : State) : Except MemErr (List Byte) × State :=
  let one (u : Nat) (s : State) : Option MemErr × State :=
    let s := sprAsk ext 0x03 u s
    match extAnswer ext u with
    | .error e => (some e, s)
    | .ok _ => if ext.poisoned.contains (u / 64) then (some .poison, reportPoison u s) else (none, s)
  match untilErr one (unitsOf 64 pa n) s with
  | (some e, s) => (.error e, s)
  | (none, s) => (.ok ((upFrom pa n).map fun k => (Tab.find? ext.bytes k).getD 0), s)

/-- Reads a range as the Escapement does; `clear` marks what R379 exempts. -/
def escRead (clear : Bool) (ext : Ext) (va n : Nat) (s : State) : Except MemErr (List Byte) × State :=
  if translates s .read va n = false then (.error .unmapped, noteWalks va n s)
  else match reachesOpen s clear va with
    | some pa => openRead ext pa n s
    | none => readVirt ext {} va n (settleFills s)

/-- Reads a range that a command names by a 64-bit address (R242). -/
def escReadAt (clear : Bool) (ext : Ext) (a n : Nat) (s : State) : Except MemErr (List Byte) × State :=
  match fabric s (BitVec.ofNat 64 a) with
  | .loc va => escRead clear ext va n s
  | _ => (.error .unmapped, s)

/-- The companion's IOMMU does not map a sector. -/
def extUnmapped (ext : Ext) (a : Nat) : Bool :=
  match extAnswer ext a with
  | .error .translation => true
  | _ => false

/-- Companion sectors of a range that the companion's IOMMU does not map and the window does not hold. (DESIGN
CHOICE, log 11.) -/
def unmappedSectors (s : State) (ext : Ext) (va n : Nat) : Bool :=
  (unitsOf 64 va n).any fun u =>
    match translate s .write u with
    | some (pa, _) => 0x100000000000 ≤ pa && pa < 0x200000000000 && extUnmapped ext pa && !inWindow s pa
    | none => false

/-- Writes a range as the Escapement does; `clear` marks what R379 exempts. A page that is mapped without WRITE is a
translation fault (R244). -/
def escWrite (clear : Bool) (ext : Ext) (va : Nat) (data : List Byte) (s : State) : Except MemErr Unit × State :=
  if translates s .read va data.length = false then (.error .unmapped, noteWalks va data.length s)
  else if translates s .write va data.length = false ∨ unmappedSectors s ext va data.length = true then (.error .translation, s)
  else match reachesOpen s clear va with
    | some pa => (.ok (), forEach (sendPartial (fun _ => true) (fun _ => false) pa data.length data) (unitsOf 64 pa data.length) s)
    | none => writeVirt ext {} (fun _ => true) va data (settleFills s)

/-! ## Notices of Table 8.12 -/

/-- Posts an Escapement notice. -/
def escNotice (type prio payload : Nat) (s : State) : State :=
  postNotice (s.fld Reg.escCtl 13 8) 0x100 false type prio payload s

/-- A COMMAND trace record (Table 11.6). -/
def traceCommand (r opcode kind status : Nat) (seq : W32) (s : State) : State :=
  traceEmit 0x82 (ctrlDie s) 0x100 none
    (seq.toNat + r <<< 32 + opcode <<< 40 + kind <<< 48 + status <<< 56) s

/-! ## Completion entries -/

/-- Slots an entry takes (R278). -/
def Cqe.slots (e : Cqe) : Nat := if e.ext.isSome then 3 else 1

/-- The completion queue has room for an entry. -/
def cqRoom (s : State) (r : Nat) (e : Cqe) : Bool :=
  (s.reg (Reg.ringCqTail r) - s.reg (Reg.ringCqHead r)).toNat + e.slots ≤ cqN s r

/-- Address of a completion-queue slot by count. -/
def cqSlot (s : State) (r : Nat) (n : W32) : Nat := cqBase s r + 32 * (n.toNat % cqN s r)

/-- The values of an entry's slots in order: the entry, then the two halves of its extension. -/
def Cqe.values (e : Cqe) : List Nat :=
  match e.ext with
  | none => [e.entry.toNat]
  | some x => [e.entry.toNat, x.toNat % 2 ^ 256, x.toNat / 2 ^ 256]

/-- Writes the values of slots from a count on; a failure names its slot's address. (DEDUCED, log 60.) -/
def cqPut (ext : Ext) (r : Nat) : W32 → List Nat → State → Except (MemErr × Nat) Unit × State
  | _, [], s => (.ok (), s)
  | n, v :: l, s =>
    let a := cqSlot s r n
    match escWrite (hostRing s r) ext a (toBytes 32 v) s with
    | (.error x, s) => (.error (x, a), s)
    | (.ok _, s) => cqPut ext r (n + 1) l s

/-- Writes an entry and its extension into the queue. -/
def cqWrite (ext : Ext) (r : Nat) (e : Cqe) (s : State) : Except (MemErr × Nat) Unit × State :=
  cqPut ext r (s.reg (Reg.ringCqTail r)) e.values s

/-- Keeps an entry in the shadow ring (R284, R285). -/
def shadowPut (r fault : Nat) (e : Cqe) (s : State) : State :=
  let t := s.reg (Reg.ringShadowTail r)
  let base := s.fld Reg.escShadowBaseHi 15 0 * 2 ^ 32 + s.fld Reg.escShadowBaseLo 31 21 * 2 ^ 21
  let a := base + 32768 * r + 128 * (t.toNat % 256)
  let ext := match e.ext with
    | some x => x.toNat
    | none => 0
  let data := toBytes 32 e.entry.toNat ++ toBytes 64 ext ++ toBytes 4 (s.reg (Reg.ringCqTail r)).toNat
    ++ toBytes 1 fault ++ toBytes 27 0
  let s := (writePhys {} {} (fun _ => true) a data s).2
  let s := (s.setReg (Reg.ringShadowTail r) (t + 1)).count 0x032 1
  s.modRing r fun k => { k with lastKept := BitVec.ofNat 32 e.entry.toNat, kept := k.kept + 1 }

/-- Puts a ring into HALTED_CQ with its notice (R285). (DEDUCED, log 85.) -/
def haltCq (r fault : Nat) (e : Cqe) (addr : Nat) (s : State) : State :=
  if (s.ring r).state = .haltedCq then s
  else
    let s := s.modRing r fun k => { k with state := .haltedCq, fault := fault }
    escNotice 0x62 3 (r + fault <<< 8 + (e.entry.toNat % 2 ^ 32) <<< 32 + (addr % 2 ^ 64) <<< 64) s

/-- Delivers the due entries of a ring in order while there is room (R278, R279); a write that fails, and everything
after it, goes to the shadow ring. While the Crucible holds new accesses the entries wait (R52, R88). -/
def cqDeliver (ext : Ext) (r : Nat) : List Cqe → State → State
  | [], s => s.modRing r fun k => { k with waitCq := [] }
  | e :: t, s =>
    if cruHolds s then s.modRing r fun k => { k with waitCq := e :: t }
    else if (s.ring r).state = .haltedCq then cqDeliver ext r t (shadowPut r (s.ring r).fault e s)
    else if cqRoom s r e = false then s.modRing r fun k => { k with waitCq := e :: t }
    else
      match cqWrite ext r e s with
      | (.ok _, s) =>
        let s := s.setReg (Reg.ringCqTail r) (s.reg (Reg.ringCqTail r) + BitVec.ofNat 32 e.slots)
        let s := if e.irq then raiseInt (s.fld (Reg.ringCtl r) 31 24) s else s
        cqDeliver ext r t s
      | (.error x, s) => cqDeliver ext r t (shadowPut r x.1.faultByte e (haltCq r x.1.faultByte e x.2 s))

/-- Brings an entry to the completion queue behind those that wait. -/
def cqPush (ext : Ext) (r : Nat) (e : Cqe) (s : State) : State := cqDeliver ext r ((s.ring r).waitCq ++ [e]) s

/-- A completion entry (Table 8.8). -/
def mkCqe (seq : W32) (status opcode flags : Nat) (b : W64) (duration sub iter detail : Nat) : W256 :=
  BitVec.ofNat 256
    (seq.toNat + (status % 256) <<< 32 + (opcode % 256) <<< 40 + (flags % 2 ^ 16) <<< 48 + (beatOf b) <<< 64
      + (epochOf b) <<< 112 + (min duration (2 ^ 32 - 1)) <<< 128 + (sub % 2 ^ 16) <<< 160
      + (min iter 0xFFFF) <<< 176 + (detail % 2 ^ 64) <<< 192)

/-! ## The counter extension (R280, R358) -/

/-- The eight selectors of a ring. -/
def extSels (s : State) (r : Nat) : List Nat :=
  (upFrom 0 4).flatMap fun i => [s.fld (Reg.ringCntsel r i) 10 0, s.fld (Reg.ringCntsel r i) 26 16]

/-- The counters at admission. -/
def extSnap (s : State) (r : Nat) : List W64 :=
  (extSels s r).map fun x => if coarseT x then counterReported s x else counterExact s x

/-- The extension at commit, and whether it holds a coarsened value. -/
def extValue (s : State) (r : Nat) (c : Cmd) : W512 × Bool :=
  let sels := extSels s r
  let set := if Cb.opcode c.body = 0x01 then (s.disp c.uid).set else []
  let one (x : Nat) (old : W64) : W64 :=
    if perDispatch x then (if set.contains ((x - 0x200) / 6) then counterReported s x else 0)
    else if coarseT x then counterReported s x - old
    else
      let d := counterExact s x - old
      if s.sealed ∧ coarseC x then BitVec.ofNat 64 (coarseN d.toNat) else d
  let vs := (sels.zip (c.snap ++ List.replicate 8 0)).map fun p => one p.1 p.2
  (BitVec.ofNat 512 (ofBytes (vs.flatMap fun v => toBytes 8 v.toNat)),
    s.sealed && sels.any fun x => coarseC x || coarseT x)

/-! ## Mutual waits (R276) -/

/-- A slot is external (R270). -/
def slotExternal (s : State) (slot : Nat) : Bool := s.flag (Reg.escEvtExt (slot / 32)) (slot % 32)

/-- A running command that does not keep its ring from being blocked: a WAIT on an internal slot that has not been met, or
a local BARRIER. -/
def stuckCmd (s : State) (c : Cmd) : Bool :=
  match Cb.opcode c.body with
  | 0x05 => !slotExternal s (Cb.event c.body) && !c.met
  | 0x06 => Cb.at_ c.body 20 1 == 0
  | _ => false

/-- A ring has a command that is not yet completed. -/
def unfinished (s : State) (r : Nat) : Bool :=
  !(s.ring r).running.isEmpty || available s r (s.ring r).pos

/-- A ring is blocked (R276). -/
def blocked (s : State) (r : Nat) : Bool :=
  let k := s.ring r
  k.state == .active && unfinished s r && k.running.all (stuckCmd s)

/-- A running command of a kind that keeps a mutual wait from being declared. -/
def livelyCmd (c : Cmd) : Bool :=
  match Cb.opcode c.body with
  | 0x01 | 0x02 | 0x03 | 0x07 => true
  | 0x06 => Cb.at_ c.body 20 1 != 0
  | _ => false

/-- The rings in increasing order. -/
def allRings : List Nat := upFrom 0 64

/-- The conditions of R276 hold at this instant. -/
def mwHolds (s : State) : Bool :=
  let rs := allRings.filter fun r => (s.ring r).state != .disabled
  rs.any (blocked s)
    && rs.all fun r =>
      (match (s.ring r).state with
       | .active => !unfinished s r || blocked s r
       | _ => !unfinished s r)
      && !(s.ring r).running.any livelyCmd

/-- A change that leaves the conditions unmet at this instant breaks the 1 ms. -/
def mwNote (s : State) : State := if mwHolds s then s else mwBreak s

/-! ## Commit -/

/-- Puts a ring into HALTED_ERR with its notice (R263); a ring already halted stays as it is. (DEDUCED, log 85.) -/
def haltErr (r status : Nat) (seq : W32) (s : State) : State :=
  match (s.ring r).state with
  | .active | .paused =>
    let s := s.modRing r fun k => { k with state := .haltedErr }
    escNotice 0x61 2 (r + status <<< 8 + seq.toNat <<< 32) s
  | _ => s

/-- The counter of completions with a status (Table 11.4). -/
def statusCounter (status : Nat) : Nat := if status < 0x10 then 0x020 + status else 0x026 + (status - 0x10)

/-- The completion arbiter commits a command (R281): it is no longer running, its entry is due when it asked for one
or failed (R278), and a failure halts the ring unless CONTINUE is set (R263). -/
def commit (ext : Ext) (r : Nat) (c : Cmd) (status detail flags : Nat) (s : State) : State :=
  let op := Cb.opcode c.body
  let wantExt := Cb.ext c.body
  let x := extValue s r c
  let replayed := b2n (s.flag Reg.beatStatus 2)
  let flags := flags + replayed <<< 2 + (b2n wantExt) <<< 3 + (if wantExt && x.2 && !bit flags 4 then 16 else 0)
  let s := s.modRing r fun k =>
    { k with running := k.running.filter (fun d => d.uid != c.uid), done := (c.seq :: k.done).take 65536, last := s.beat,
             gate := if k.gate = some c.uid then none else k.gate }
  let s := mwNote ((s.count 0x008 1).count (statusCounter status) 1)
  let s := if op = 0x01 then s.count 0x009 1 else s
  let s := traceCommand r op 1 status c.seq s
  let s :=
    if Cb.cqe c.body ∨ 0x10 ≤ status then
      let e := mkCqe c.seq status op flags s.beat (s.beat - c.start).toNat c.sub c.iter detail
      cqPush ext r { entry := e, ext := if wantExt then some x.1 else none, irq := Cb.irq c.body } s
    else s
  if 0x10 ≤ status ∧ Cb.cont c.body = false then haltErr r status c.seq s else s

/-- A running command by its place in admission order. -/
def runningAt (s : State) (r n : Nat) : Option Cmd := (s.ring r).running[n]?

/-- Changes a running command. -/
def modCmd (r uid : Nat) (f : Cmd → Cmd) (s : State) : State :=
  s.modRing r fun k => { k with running := updateWhere (fun c => c.uid == uid) f k.running }

/-- The running command of an identity, with its ring. -/
def findCmd (s : State) (uid : Nat) : Option (Nat × Cmd) :=
  s.rings.findSome? fun e => (e.2.running.find? fun c => c.uid == uid).map fun c => (e.1, c)

/-- The running commands with a ring and sequence number. -/
def cmdsAt (s : State) (r : Nat) (seq : W32) : List Cmd := (s.ring r).running.filter fun c => c.seq == seq

end Sys2Proof.Machine
end

