-- ==== Sys2Proof/Machine/Reduction.lean ====
section
/-! DEFINITION. Reductions at the owner (R307 to R314, R497): contributions, units, commits and ends, and the close of
a record. -/

namespace Sys2Proof.Machine

namespace State
/-- The reduction record of a RED_ID. (DEDUCED, log 45.) -/
def recOf (s : State) (red : Nat) : Rec := Tab.get {} s.recs red
/-- Changes a reduction record. -/
def modRec (s : State) (red : Nat) (f : Rec → Rec) : State := { s with recs := Tab.modify {} s.recs red f }
end State

namespace RedX
/-! Fields of the extension of a reduction message (Table 9.7). -/
def layer (x : Nat) : Nat := bits x 15 0
def red (x : Nat) : Nat := bits x 31 16
def deadline (x : Nat) : Nat := bits x 63 32
def index (x : Nat) : Nat := bits x 95 64
def gen (x : Nat) : Nat := bits x 111 96
def counter (x : Nat) : Nat := bits x 121 112
def tileValid (x : Nat) : Bool := bit x 127
def fmt (x : Nat) : Nat := bits x 135 128
def comp (x : Nat) : Nat := bits x 143 136
def key (x : Nat) : Nat := bits x 159 144
def raised (x : Nat) : Nat := bits x 175 160
end RedX

end Sys2Proof.Machine
namespace Sys2Proof.RunMsg
open Sys2Proof.Machine

/-- The extension of a message as a number; a message without one reads as zero. -/
def x (m : RunMsg) : Nat :=
  match m.ext with
  | some e => e.toNat
  | none => 0

/-- Bytes `lo` to `hi` − 1 of a message's data meet poison (R293). -/
def poisoned (m : RunMsg) (lo hi : Nat) : Bool :=
  (unitsOf 64 lo (hi - lo)).any fun u => m.poison.getLsbD (u / 64)

end Sys2Proof.RunMsg
namespace Sys2Proof.Machine

/-! ## Data that carry poison (R85, R293) -/

/-- Bytes with the parts of them that are poison. -/
structure Blob where
  data : List Byte := []
  bad : List (Nat × Nat) := []
deriving DecidableEq, Repr

namespace Blob
/-- One after the other. -/
def append (a b : Blob) : Blob := { data := a.data ++ b.data, bad := a.bad ++ shiftParts a.data.length b.bad }
/-- `n` bytes from a place on. -/
def slice (b : Blob) (off n : Nat) : Blob :=
  { data := (b.data.drop off).take n,
    bad := (b.bad.filter fun p => p.1 < off + n && off < p.1 + p.2).map fun p =>
      (p.1 - off, min (p.1 + p.2) (off + n) - max p.1 off) }
/-- The POISON mask of a message that carries them (Table 9.2). -/
def mask (b : Blob) : W64 :=
  (upFrom 0 64).foldl (fun m i => if b.bad.any fun p => p.1 < 64 * i + 64 && 64 * i < p.1 + p.2 then m ||| (1#64 <<< i) else m) 0
/-- A byte of them is poison. -/
def any (b : Blob) : Bool := !b.bad.isEmpty
end Blob

/-- What a message carries. -/
def blobOf (m : RunMsg) : Blob :=
  { data := m.data, bad := ((upFrom 0 64).filter fun i => m.poison.getLsbD i && 64 * i < m.data.length).map fun i => (64 * i, 64) }

/-! ## Decoding contributions (R119, R313, R315, R316, R497) -/

/-- One decoded element of a contribution: its place from ADDR on, its value, and whether it depends on poison. -/
structure Elem where
  idx : Nat
  val : Val
  pois : Bool

/-- The number in `n` bytes of a list from a place on. -/
def bytesAt (l : List Byte) (off n : Nat) : Nat := ofBytes ((l.drop off).take n)

/-- The code of element `i` of `b` bits in a packed list (R97). -/
def packedCode (l : List Byte) (b i : Nat) : Nat :=
  (bytesAt l (i * b / 8) ((i * b + b + 7) / 8 - i * b / 8) >>> (i * b % 8)) % 2 ^ b

/-- Elements that `len` bytes of contribution hold: a block format carries its scale entries after the elements. -/
def elemCount (f : Fmt) (len : Nat) : Nat :=
  if f.isBlock then 32 * len / (4 * f.bits + f.scaleBytes) else len * 8 / f.bits

/-- The value of element `i` of packed elements followed by their scale entries. -/
def packedVal (f : Fmt) (data scales : List Byte) (i : Nat) : Val :=
  let code := packedCode data f.bits i
  if f.isBlock then f.entryVal (bytesAt scales (i / 32 * f.scaleBytes) f.scaleBytes) (i % 32) code else f.elemVal code

/-- The elements of an uncompressed message. -/
def plainElems (f : Fmt) (m : RunMsg) : List Elem :=
  let n := elemCount f m.data.length
  let so := n * f.bits / 8
  let sb := f.scaleBytes
  (upFrom 0 n).map fun i =>
    { idx := i, val := packedVal f m.data (m.data.drop so) i,
      pois := m.poisoned (i * f.bits / 8) ((i * f.bits + f.bits + 7) / 8)
        || (f.isBlock && m.poisoned (so + i / 32 * sb) (so + i / 32 * sb + sb)) }

/-- The elements of a TOPK block record (R315). -/
def topkElems (m : RunMsg) : List Elem :=
  (upFrom 0 (bytesAt m.data 0 2)).map fun e =>
    let o := 2 + 6 * e
    { idx := bytesAt m.data o 2, val := FFmt.fp32.decode (bytesAt m.data (o + 2) 4),
      pois := m.poisoned 0 2 || m.poisoned o (o + 6) }

/-- The elements of a SIGN block record (R316): −μ where the bit is set, +μ elsewhere. -/
def signElems (m : RunMsg) : List Elem :=
  let mu := FFmt.fp32.decode (bytesAt m.data 0 4)
  (upFrom 0 4096).map fun i =>
    { idx := i, val := if bit (bytesAt m.data (32 + i / 8) 1) (i % 8) then mu.neg else mu,
      pois := m.poisoned 0 4 || m.poisoned (32 + i / 8) (33 + i / 8) }

end Sys2Proof.Machine
namespace Sys2Proof.RunMsg
open Sys2Proof.Machine

/-- The elements of a contribution. -/
def elems (m : RunMsg) : List Elem :=
  match RedX.comp m.x with
  | 1 => topkElems m
  | 2 => signElems m
  | _ => plainElems ((Fmt.ofCode (RedX.fmt m.x)).getD .fp32) m

end Sys2Proof.RunMsg
namespace Sys2Proof.Machine

/-! ## Shards in HBM -/

/-- The base die whose stack holds a device address of HBM (R15). -/
def stackOf (pa : Nat) : Nat := pa / 2 ^ 36

/-- The HBM address of a shard element, if it lies in HBM. -/
def hbmAt (s : State) (va : Nat) : Option Nat :=
  match translate s .write va with
  | some (pa, _) => match place s pa with
    | .hbm a => some a
    | _ => none
  | none => none

/-- A reduction passes through the home slice of a line: the window gives its copy up (R59). -/
def raccLine (pa : Nat) (s : State) : State := if (s.wline pa).valid then evictLine pa s else s

/-- The FP32 code stored at an HBM address. -/
def word32 (s : State) (pa : Nat) : Nat := ofBytes ((upFrom pa 4).map s.byte)

/-- Adds one element to its shard word (R119, R313, R497). (DEDUCED, log 48.) -/
def addElem (red base : Nat) (e : Elem) (s : State) : State :=
  match hbmAt s (base + 4 * e.idx) with
  | none => s
  | some pa =>
    let s := checkHbmWord pa (raccLine pa s)
    let old := word32 s pa
    let new := (FFmt.fp32.rne ((FFmt.fp32.decode old).add e.val).1).1
    let pois := e.pois || s.isPoison pa
    let s := (storeBytes pa (toBytes 4 new) s).setPoison pa pois
    s.modRec red fun r =>
      { r with nonfinite := r.nonfinite + b2n (FFmt.fp32.decode new).nonfinite, poisoned := r.poisoned || pois }

/-- Adds a contribution to the shard at its address. -/
def addContribution (red : Nat) (m : RunMsg) (s : State) : State := forEach (addElem red m.addr) m.elems s

/-- Leaves `n` bytes from a virtual address with contents that the spec does not specify (R314): free values. -/
def scramble (va n : Nat) (s : State) : State :=
  forEach (fun a s =>
    match translate s .write a with
    | none => s
    | some (pa, _) =>
      let d := s.draw
      pokeByte pa (d.1.setWidth 8) (raccLine pa d.2)) (upFrom va n) s

/-! ## Units -/

end Sys2Proof.Machine
namespace Sys2Proof.RunMsg
open Sys2Proof.Machine

/-- The unit a contribution, commit or end belongs to (R308). -/
def unit (m : RunMsg) : UnitKey :=
  if RedX.tileValid m.x then .tile m.src (RedX.counter m.x) (RedX.index m.x) else .rank (RedX.key m.x) m.src

end Sys2Proof.RunMsg
namespace Sys2Proof.Machine

/-- The fixed order of units under DET (R309): RACC_END units by KEY and SRC, then tiles by SRC, COUNTER and INDEX. -/
def UnitKey.before : UnitKey → UnitKey → Bool
  | .rank k a, .rank l b => k < l || (k == l && a ≤ b)
  | .rank _ _, .tile _ _ _ => true
  | .tile _ _ _, .rank _ _ => false
  | .tile a c i, .tile b d j => a < b || (a == b && (c < d || (c == d && i ≤ j)))

/-- Puts a unit in its place in an ordered list. -/
def insertUnit (u : UnitKey) : List UnitKey → List UnitKey
  | [] => [u]
  | v :: t => if u.before v then u :: v :: t else v :: insertUnit u t

/-- Adds the held contributions of a unit in the order of their arrival, and gives them up. -/
def addUnit (red : Nat) (u : UnitKey) (s : State) : State :=
  let mine := (s.recOf red).held.filter fun m => m.unit == u
  let s := s.modRec red fun r => { r with held := r.held.filter fun m => m.unit != u }
  forEach (addContribution red) mine s

/-- A discard at the reduction's owner counted in RUN_DROP_COUNT (R310). -/
def dropCount (s : State) : State := s.addSat Reg.runDropCount 1

/-- A REDUCTION trace record (Table 11.6); the counts are coarsened under seal (Table 12.9). -/
def traceReduction (red kind : Nat) (s : State) : State :=
  let r := s.recOf red
  let c (n : Nat) : Nat := if s.sealed then coarseN n else n
  traceEmit 0x83 (48 + r.die) (0x400 + r.die) none
    (red + r.layer <<< 16 + kind <<< 32 + (min (c r.received) 0xFFFF) <<< 48 + (min (c r.excluded) 0xFFFF) <<< 64) s

/-- Different units among held contributions. (DEDUCED, log 47.) -/
def heldUnits (l : List RunMsg) : List UnitKey := (l.map RunMsg.unit).eraseDups

/-- A record closes (R310): the held contributions of incomplete units are discarded, their units excluded, and the
close work of MEAN and NORMS begins. (DEDUCED, log 47.) -/
def closeRec (red : Nat) (s : State) : State :=
  let r := s.recOf red
  let out := (heldUnits r.held).length
  let s := s.modRec red fun r => { r with state := .closing, excluded := out, held := [] }
  let s := (s.count (0x0C0 + 8 * r.die + 5) 1).count (0x0C0 + 8 * r.die + 6) out
  traceReduction red 1 s

/-- Adds the complete units that RANKED lets be added now (R309). -/
def advanceRanked (red : Nat) : Nat → State → State
  | 0, s => s
  | n + 1, s =>
    let r := s.recOf red
    match r.ready.find? fun u => (match u with
      | .rank k _ => k == r.nextKey
      | .tile _ _ _ => false) with
    | none => s
    | some u =>
      let s := addUnit red u s
      advanceRanked red n (s.modRec red fun r =>
        { r with nextKey := r.nextKey + 1, ready := r.ready.filter (· != u) })

/-- A unit is complete: it is counted and added as the record's mode says (R308, R309), and the record closes when all
its units have been received (R310). -/
def completeUnit (red : Nat) (u : UnitKey) (s : State) : State :=
  let s := s.modRec red fun r => { r with received := r.received + 1, keys := r.keys ++ [u] }
  let r := s.recOf red
  let s :=
    if r.staged = false then s
    else if r.det = false then addUnit red u s
    else
      let s := s.modRec red fun r => { r with ready := insertUnit u r.ready }
      if r.ranked then advanceRanked red (r.units + 1) s
      else if r.received < r.units then s
      else
        let l := (s.recOf red).ready
        (forEach (addUnit red) l s).modRec red fun r => { r with ready := [] }
  if (s.recOf red).units ≤ (s.recOf red).received then closeRec red s else s

/-- Counts discards of R308 and R309 in DUPLICATES. -/
def countDups (red n : Nat) (s : State) : State := s.modRec red fun r => { r with dups := r.dups + n }

/-- A contribution reaches an open record. -/
def openRacc (red : Nat) (m : RunMsg) (s : State) : State :=
  let r := s.recOf red
  if r.staged = false then addContribution red m s
  else if r.det = true ∧ r.ranked = true ∧ RedX.tileValid m.x = true then countDups red 1 s
  else if RedX.tileValid m.x = true ∧ r.keys.contains m.unit = true then countDups red 1 s
  else s.modRec red fun r => { r with held := r.held ++ [m] }

/-- A RACC_COMMIT reaches an open record. -/
def openCommit (red : Nat) (m : RunMsg) (s : State) : State :=
  let r := s.recOf red
  if r.det = true ∧ r.staged = true ∧ r.ranked = true then countDups red 1 s
  else if r.keys.contains m.unit then countDups red 1 s
  else
    let s := s.modRec red fun r =>
      { r with held := r.held.filter fun h => h.unit != m.unit || RedX.gen h.x == RedX.gen m.x }
    completeUnit red m.unit s

/-- A RANKED record refuses an end whose KEY is out of range or already received from another SRC (R309). -/
def rankedRefuses (r : Rec) (u : UnitKey) : Bool :=
  match u with
  | .rank k a => r.units ≤ k || r.keys.any fun v => (match v with
    | .rank l b => l == k && b != a
    | .tile _ _ _ => false)
  | .tile _ _ _ => true

/-- A RACC_END reaches an open record. -/
def openEnd (red : Nat) (m : RunMsg) (s : State) : State :=
  let r := s.recOf red
  let u : UnitKey := .rank (RedX.key m.x) m.src
  if r.det = true ∧ r.staged = true ∧ r.ranked = true ∧ rankedRefuses r u = true then
    let n := (r.held.filter fun h => h.unit == u).length
    (countDups red (n + 1) s).modRec red fun r => { r with held := r.held.filter fun h => h.unit != u }
  else completeUnit red u s

/-- A reduction message reaches an open record, by its opcode. -/
def openMessage (red : Nat) (m : RunMsg) (s : State) : State :=
  match m.opc with
  | 0x10 => openRacc red m s
  | 0x11 => openCommit red m s
  | 0x12 => openEnd red m s
  | _ => if (s.recOf red).staged then s else s.modRec red fun r => { r with tainted := true }

/-- The step has been vetoed and the collective engine acts on it (R326, R329). -/
def vetoActs (s : State) : Bool := s.flag Reg.trnCtl 0 && s.flag Reg.trnStatus 0

/-- The base die that serves a reduction message: that of its shard address, or of its record. -/
def msgDie (s : State) (m : RunMsg) : Nat :=
  match hbmAt s m.addr with
  | some pa => stackOf pa
  | none => (s.recOf (RedX.red m.x)).die

/-- Records in a state at a base die. -/
def recCount (s : State) (p : Rec → Bool) : Nat := (s.recs.filter fun e => p e.2).length

/-- Bytes that a base die's staging pool holds. -/
def poolUse (s : State) (die : Nat) : Nat :=
  ((s.recs.filter fun e => e.2.die == die).map fun e => (e.2.held.map fun m => 32 * msgUnits m).sum).sum

/-- Bytes of a base die's staging pool (RUN_STAGE_SIZE). -/
def poolSize (s : State) (die : Nat) : Nat := s.fld (Reg.runStageSize die) 15 0 * 2 ^ 21

/-- A reduction message must be held and there is no room for it (R307): it waits in the link's buffer. -/
def stalls (s : State) (m : RunMsg) : Bool :=
  let r := s.recOf (RedX.red m.x)
  let die := msgDie s m
  let full := poolSize s die < poolUse s die + 32 * msgUnits m
  match r.state with
  | .absent =>
    m.opc != 0x13 && !vetoActs s && (full || 64 ≤ recCount s fun r => r.state == .pending && r.die == die)
  | .pending => m.opc != 0x13 && full
  | .opened => m.opc == 0x10 && r.staged && full
  | _ => false

/-- A reduction message reaches its owner (R307 to R310). -/
def redMessage (m : RunMsg) (s : State) : State :=
  let red := RedX.red m.x
  let s := if m.opc = 0x10 then s.count (0x0C0 + 8 * msgDie s m + 2) ((m.data.length + 63) / 64) else s
  match (s.recOf red).state with
  | .opened => openMessage red m s
  | .closing | .closed => if m.opc = 0x13 then s else dropCount s
  | _ =>
    if m.opc = 0x13 then s
    else if vetoActs s then dropCount (s.modRec red fun r => { r with state := .closed })
    else
      let die := msgDie s m
      s.modRec red fun r => { r with state := .pending, die := die, held := r.held ++ [m] }

/-! ## DETAIL (Table 9.8) -/

/-- DETAIL of a COLLECTIVE and whether it is coarsened. -/
def collDetail (s : State) (received excluded raised dups nonfinite : Nat) : Nat × Nat :=
  let c (n : Nat) : Nat := if s.sealed then coarseN n else n
  (c (min received 0xFFFF) + c (min excluded 0xFFFF) <<< 16 + c (min raised 0xFFFF) <<< 32 + c (min dups 0xFF) <<< 48
    + c (min nonfinite 0xFF) <<< 56, if s.sealed then 16 else 0)

/-- DETAIL of a REDUCE_OPEN from its record. -/
def recDetail (s : State) (red : Nat) : Nat × Nat :=
  let r := s.recOf red
  collDetail s r.received r.excluded 0 r.dups r.nonfinite

/-- Commits a REDUCE_OPEN with its record's counts. -/
def commitRec (ext : Ext) (red status : Nat) (s : State) : State :=
  let r := s.recOf red
  match findCmd s r.uid with
  | some (q, c) =>
    let d := recDetail s red
    commit ext q c status d.1 (d.2 + (if r.det then 2 else 0)) s
  | none => s

/-- A record ends without close work and its shard keeps unspecified contents (R314, R329). -/
def dropRec (red : Nat) (s : State) : State :=
  let r := s.recOf red
  let s := s.modRec red fun r => { r with state := .closed, held := [], ready := [] }
  if r.state = .opened ∨ r.state = .closing then scramble r.base (4 * r.elems) s else s

end Sys2Proof.Machine
end

