-- ==== Sys2Proof/Machine/Collective.lean ====
section
/-! DEFINITION. The collective engine: descriptors and the eight operations (R303 to R305, R307, R310, R312, R314 to
R318), with what the training machinery asks of them (R329, R331, R332). -/

namespace Sys2Proof.Machine

namespace State
/-- A running COLLECTIVE. -/
def coll (s : State) (uid : Nat) : Option Coll := Tab.find? s.colls uid
/-- Enters or changes a running COLLECTIVE. -/
def setColl (s : State) (uid : Nat) (c : Coll) : State := { s with colls := Tab.insert s.colls uid c }
/-- Removes a COLLECTIVE from the engine. -/
def dropColl (s : State) (uid : Nat) : State := { s with colls := Tab.erase s.colls uid }
end State

/-! ## Descriptors -/

namespace CollDesc
/-- Reads a descriptor (Table 9.5). -/
def parse (l : List Byte) : CollDesc :=
  { op := bytesAt l 0 1, flags := bytesAt l 1 1, axis := bytesAt l 2 1 % 4, wfmt := bytesAt l 3 1,
    layer := bytesAt l 4 2, red := bytesAt l 6 2, deadline := bytesAt l 8 4, count := bytesAt l 12 4,
    src := bytesAt l 16 8, dst := bytesAt l 24 8, resid := bytesAt l 32 8, normAddr := bytesAt l 40 8,
    units := bytesAt l 48 2, rank := bytesAt l 50 2, comp := bytesAt l 52 1, kshift := bytesAt l 53 1,
    headroom := bytesAt l 54 1, ssrc := bytesAt l 56 8, sdst := bytesAt l 64 8 }

def det (d : CollDesc) : Bool := bit d.flags 0
def staged (d : CollDesc) : Bool := bit d.flags 1
def mean (d : CollDesc) : Bool := bit d.flags 2
def initZero (d : CollDesc) : Bool := bit d.flags 3
def norms (d : CollDesc) : Bool := bit d.flags 4
def buddy (d : CollDesc) : Bool := bit d.flags 5
def ranked (d : CollDesc) : Bool := bit d.flags 6

/-- The wire format. -/
def fmt (d : CollDesc) : Fmt := (Fmt.ofCode d.wfmt).getD .fp32

/-- Operations that cut COUNT into shards (R304). -/
def sharded (d : CollDesc) : Bool := d.op == 2 || d.op == 3 || d.op == 4 || d.op == 5

/-- What COUNT must be a multiple of, on a group of `n` devices (R303, R304). -/
def multiple (d : CollDesc) (n : Nat) : Nat :=
  let unit := if d.op = 2 ∧ d.comp ≠ 0 then 4096 else if d.fmt.isBlock ∧ d.op ≠ 8 then 32 else 1
  if d.sharded then unit * n * (if d.op = 3 ∨ d.op = 4 then 2 else 1) else unit

/-- The byte offset of the first offending field (R303, R304), if there is one. (DEDUCED, log 157.) -/
def offence (l : List Byte) (n : Nat) : Option Nat :=
  let d := parse l
  if d.op = 0 ∨ 8 < d.op then some 0
  else if 128 ≤ d.flags then some 1
  else if 4 ≤ bytesAt l 2 1 then some 2
  else if !([0x00, 0x02, 0x10, 0x11, 0x15].contains d.wfmt) then some 3
  else if 4096 ≤ d.layer then some 4
  else if d.count % d.multiple n ≠ 0 then some 12
  else if d.op = 1 ∧ d.units = 0 then some 48
  else if 2 < d.comp then some 52
  else if d.comp = 1 ∧ (d.kshift < 3 ∨ 8 < d.kshift) then some 53
  else if 3 < d.headroom then some 54
  else if bytesAt l 55 1 ≠ 0 then some 55
  else (upFrom 72 56).find? fun o => bytesAt l o 1 != 0
end CollDesc

/-- The size of a descriptor's group, this device's position in it, and a member's device id (R304). -/
def groupSize (s : State) (d : CollDesc) : Nat := axisSize s d.axis
/-- This device's coordinate on the axis of a descriptor. -/
def groupPos (s : State) (d : CollDesc) : Nat := coordOf (ownId s) d.axis
/-- The device id of a position of the group. -/
def groupId (s : State) (d : CollDesc) (j : Nat) : Nat := withCoord (ownId s) d.axis j

/-- Elements of one shard. -/
def shardElems (s : State) (d : CollDesc) : Nat := if d.sharded then d.count / groupSize s d else d.count

/-- Bytes that `n` elements of the wire format take. -/
def CollDesc.bytes (d : CollDesc) (n : Nat) : Nat := n * d.fmt.bits / 8
/-- Bytes of the scale entries of `n` elements. -/
def CollDesc.scales (d : CollDesc) (n : Nat) : Nat := if d.fmt.isBlock then n / 32 * d.fmt.scaleBytes else 0

/-- A collective's stream number (R298): 0xC0 + ring, modulo 256. (DEDUCED, log 61.) -/
def collStream (r : Nat) : Nat := (0xC0 + r) % 256

/-- Pieces of at most 1,024 elements: first element and count. -/
def elemPieces (first n : Nat) : List (Nat × Nat) :=
  (upFrom 0 ((n + 1023) / 1024)).map fun i => (first + i * 1024, min 1024 (n - i * 1024))

/-- Reads bytes at a local address to move them, with what of them is poison (R85). -/
def collFetch (ext : Ext) (a n : Nat) (s : State) : Except Nat Blob × State :=
  match fabric s (BitVec.ofNat 64 a) with
  | .loc va => match fetchVirt ext {} va n (settleFills s) with
    | (.ok b, s) => (.ok { data := b.1, bad := b.2 }, s)
    | (.error e, s) => (.error e.status, s)
  | _ => (.error 0x16, s)

/-- Reads bytes at a local address to compute with them: poison is an error (R85). -/
def collRead (ext : Ext) (a n : Nat) (s : State) : Except Nat (List Byte) × State :=
  match fabric s (BitVec.ofNat 64 a) with
  | .loc va => match readVirt ext {} va n (settleFills s) with
    | (.ok b, s) => (.ok b, s)
    | (.error e, s) => (.error e.status, s)
  | _ => (.error 0x16, s)

/-- Writes bytes at a local address, as poison where they are. -/
def collStore (ext : Ext) (a : Nat) (b : Blob) (s : State) : Except Nat Unit × State :=
  match fabric s (BitVec.ofNat 64 a) with
  | .loc va => match storeVirt ext {} (fun _ => true) (inParts b.bad) va b.data (settleFills s) with
    | (.ok _, s) => (.ok (), s)
    | (.error e, s) => (.error e.status, s)
  | _ => (.error 0x16, s)

/-- Writes good bytes at a local address. -/
def collWrite (ext : Ext) (a : Nat) (data : List Byte) (s : State) : Except Nat Unit × State :=
  collStore ext a { data := data } s

/-- Reads SRC to move it: `n` elements from element `first`, and their scale entries. (DEDUCED, log 42.) -/
def readSrc (ext : Ext) (d : CollDesc) (first n : Nat) (s : State) : Except Nat (Blob × Blob) × State :=
  match collFetch ext (d.src + d.bytes first) (d.bytes n) s with
  | (.error e, s) => (.error e, s)
  | (.ok a, s) =>
    if d.fmt.isBlock then
      match collFetch ext (d.ssrc + d.scales first) (d.scales n) s with
      | (.error e, s) => (.error e, s)
      | (.ok b, s) => (.ok (a, b), s)
    else (.ok (a, {}), s)

/-- Reads SRC to compute with it. -/
def readVals (ext : Ext) (d : CollDesc) (first n : Nat) (s : State) : Except Nat (List Byte × List Byte) × State :=
  match collRead ext (d.src + d.bytes first) (d.bytes n) s with
  | (.error e, s) => (.error e, s)
  | (.ok a, s) =>
    if d.fmt.isBlock then
      match collRead ext (d.ssrc + d.scales first) (d.scales n) s with
      | (.error e, s) => (.error e, s)
      | (.ok b, s) => (.ok (a, b), s)
    else (.ok (a, []), s)

/-! ## The end of a COLLECTIVE -/

/-- Commits a COLLECTIVE other than REDUCE_OPEN with a status and its counts, and leaves the engine. -/
def collCommit (ext : Ext) (uid status : Nat) (s : State) : State :=
  match s.coll uid, findCmd s uid with
  | some k, some (r, c) =>
    let d := collDetail s 0 k.unsent (k.raised.map (·.2)).sum 0 k.nonfinite
    (commit ext r c status d.1 (d.2 + (if k.desc.det then 2 else 0)) s).dropColl uid
  | _, _ => s

/-- The status of an operation that has run to its end (R314). -/
def Coll.status (k : Coll) : Nat :=
  if k.poisoned then 0x17
  else if k.nonfinite ≠ 0 then 0x04
  else if k.late then 0x02
  else if (k.raised.map (·.2)).sum ≠ 0 then 0x03
  else 0x00

/-- An operation has done its work. -/
def collDone (ext : Ext) (uid : Nat) (s : State) : State :=
  match s.coll uid with
  | some k => collCommit ext uid k.status s
  | none => s

/-- A COLLECTIVE ends before it has acted. -/
def collRefuse (ext : Ext) (r : Nat) (c : Cmd) (d : CollDesc) (status detail : Nat) (s : State) : State :=
  commit ext r c status detail (if d.det then 2 else 0) s

/-- The messages of a command that still wait for credits are withdrawn: it stops at a message boundary (R282, R329). -/
def stopSends (r : Nat) (seq : W32) (s : State) : State :=
  let mine (m : RunMsg) : Bool := m.src == ownId s && m.ring == r && m.seq == seq.toNat && m.opc != 0x3E && m.opc != 0x06
  forEach (fun l s => s.modLink l fun k => { k with waiting := k.waiting.filter fun m => !mine m }) (upFrom 0 16) s

/-- A message of this device's command waits to be sent. -/
def sendsWait (s : State) (r : Nat) (seq : W32) : Bool :=
  s.links.any fun e => e.2.waiting.any fun m => m.src == ownId s && m.ring == r && m.seq == seq.toNat && m.opc != 0x3E && m.opc != 0x06

/-- The record that a REDUCE_OPEN opened. -/
def recOfCmd (s : State) (uid : Nat) : Option Nat :=
  (List.find? (fun (e : Nat × Rec) => (e.2.state == .opened || e.2.state == .closing) && e.2.uid == uid) s.recs).map (·.1)

/-! ## REDUCE_OPEN (R307) -/

/-- A deadline has passed (R310). -/
def deadlinePassed (s : State) (d : Nat) : Bool :=
  let k := (bits s.beat.toNat 41 10 + 2 ^ 32 - d % 2 ^ 32) % 2 ^ 32
  1 ≤ k && k < 2 ^ 31

/-- Sets the elements of a shard to +0 (R307); a word that lies in it whole is then good. -/
def zeroShard (base n : Nat) (s : State) : State :=
  forEach (fun i s =>
    match hbmAt s (base + 4 * i) with
    | some pa =>
      let s := storeBytes pa (toBytes 4 0) (raccLine pa s)
      if pa % 16 = 0 ∧ i + 4 ≤ n then s.setPoison pa false else s
    | none => s) (upFrom 0 n) s

/-- Part of a shard lies in the shared aperture (R307). -/
def shardInAperture (s : State) (base n : Nat) : Bool :=
  (pieces base (4 * max 1 n)).any fun p =>
    match translate s .write p.1 with
    | some (pa, _) => inAperture s pa
    | none => false

/-- A REDUCE_OPEN creates its record and adopts what a pending record holds. (DEDUCED, log 44.) -/
def startOpen (ext : Ext) (r : Nat) (c : Cmd) (d : CollDesc) (s : State) : State :=
  let old := s.recOf d.red
  let bad : Bool :=
    shardInAperture s d.dst d.count || old.state == .opened || old.state == .closing || ((d.det || d.deadline != 0) && !d.staged)
    || (s.flag Reg.trnCtl 0 && s.gateSent)
  match hbmAt s d.dst with
  | none => collRefuse ext r c d (if bad then 0x15 else 0x16) 0 s
  | some pa =>
    let die := stackOf pa
    if bad || 256 ≤ recCount s (fun r => (r.state == .opened || r.state == .closing) && r.die == die) then
      collRefuse ext r c d 0x15 0 s
    else
      let new : Rec :=
        { state := .opened, uid := c.uid, die := die, base := d.dst, elems := d.count, units := d.units,
          deadline := d.deadline, layer := d.layer, norm := d.normAddr, det := d.det, staged := d.staged,
          mean := d.mean, norms := d.norms, ranked := d.ranked }
      let s := s.modRec d.red fun _ => new
      let s := traceReduction d.red 0 s
      if vetoActs s then
        let s := traceReduction d.red 2 (dropRec d.red s)
        commitRec ext d.red 0x1A s
      else
        let s := if d.initZero then zeroShard d.dst d.count s else s
        forEach redMessage old.held s

/-! ## Sends -/

/-- A message of a COLLECTIVE. -/
def collMsg (s : State) (r : Nat) (c : Cmd) (opc vc dest addr : Nat) (x : Option W256) (b : Blob) : RunMsg :=
  { opc := opc, vc := vc, dest := dest, src := ownId s, stream := collStream r, addr := addr, ring := r,
    seq := c.seq.toNat, ext := x, data := b.data, poison := b.mask }

/-- A message of a REDUCE_SEND, whose sender checks the deadline before it (R310); under DET it has none. -/
def timed (d : CollDesc) (m : RunMsg) : RunMsg := { m with late := if d.det then 0 else d.deadline }

/-- The extension of a COLLECTIVE's reduction message. -/
def collExt (d : CollDesc) (comp key raised : Nat) : Option W256 :=
  some (redExt d.layer d.red d.deadline 0 0 (if comp = 0 then d.wfmt else 0) comp key raised)

/-- Uncompressed contributions of shard `j` (R304). -/
def plainSends (ext : Ext) (s : State) (r : Nat) (c : Cmd) (d : CollDesc) (j : Nat) :
    List (Nat × Nat) → State → Except Nat (List RunMsg) × State
  | [], t => (.ok [], t)
  | p :: rest, t =>
    match readSrc ext d (j * shardElems s d + p.1) p.2 t with
    | (.error e, t) => (.error e, t)
    | (.ok (a, b), t) =>
      let id := groupId s d j
      let m := timed d (collMsg s r c 0x10 (dataVc (ownId s) id) id (d.dst + 4 * (j * shardElems s d + p.1))
        (collExt d 0 d.rank 0) (a.append b))
      match plainSends ext s r c d j rest t with
      | (.error e, t) => (.error e, t)
      | (.ok l, t) => (.ok (m :: l), t)

/-! ### Compression (R315, R316) -/

/-- A block record and the new residuals of a 4,096-element block of FP32 codes. -/
structure Packed where
  record : List Byte
  resid : List Nat

/-- The magnitude by which TOPK ranks an FP32 code; a NaN ranks above every number. -/
def topkRank (x : Nat) : Nat := if FFmt.fp32.decode x = .nan then 2 ^ 31 else x % 2 ^ 31

/-- An element of index `i` belongs to the `k` of largest magnitude, ties to the lower index. -/
def topkSelected (l : List Nat) (k i x : Nat) : Bool :=
  let ahead := (l.zip (upFrom 0 l.length)).filter fun p =>
    topkRank x < topkRank p.1 || (topkRank x == topkRank p.1 && p.2 < i)
  ahead.length < k

/-- TOPK of a block (R315). -/
def packTopk (kshift : Nat) (l : List Nat) : Packed :=
  let k := 4096 >>> kshift
  let marked := (l.zip (upFrom 0 l.length)).map fun p => (p.1, p.2, topkSelected l k p.2 p.1)
  let body := toBytes 2 k ++ (marked.filter fun p => p.2.2).flatMap fun p => toBytes 2 p.2.1 ++ toBytes 4 p.1
  { record := body ++ toBytes ((32 - body.length % 32) % 32) 0,
    resid := marked.map fun p => if p.2.2 then 0 else p.1 }

/-- SIGN of a block (R316). -/
def packSign (l : List Nat) : Packed :=
  let sum := (treeSum 12 (l.map fun x => x % 2 ^ 31)).1
  let mu := (fdiv FFmt.fp32 sum (FFmt.fp32.rne (Val.ofInt 4096)).1).1
  let neg (x : Nat) : Bool := bit x 31
  let signs := ofBytes ((upFrom 0 512).map fun b =>
    BitVec.ofNat 8 ((upFrom 0 8).foldl (fun a i => a + b2n (neg (l.getD (8 * b + i) 0)) * 2 ^ i) 0))
  let dec (x : Nat) : Nat := if neg x then Nat.xor mu (2 ^ 31) else mu
  { record := toBytes 4 mu ++ toBytes 28 0 ++ toBytes 512 signs,
    resid := l.map fun x => (fsub FFmt.fp32 x (dec x)).1 }

/-- Compressed contributions of shard `j` from block `b` on, and the residuals they leave. -/
def packedSends (ext : Ext) (s : State) (r : Nat) (c : Cmd) (d : CollDesc) (j : Nat) :
    List Nat → State → Except Nat (List RunMsg × List Byte) × State
  | [], t => (.ok ([], []), t)
  | b :: rest, t =>
    let first := j * shardElems s d + 4096 * b
    match collRead ext (d.src + 4 * first) 16384 t with
    | (.error e, t) => (.error e, t)
    | (.ok g, t) =>
      match collRead ext (d.resid + 4 * first) 16384 t with
      | (.error e, t) => (.error e, t)
      | (.ok q, t) =>
        let g2 := (upFrom 0 4096).map fun i => (fadd FFmt.fp32 (bytesAt g (4 * i) 4) (bytesAt q (4 * i) 4)).1
        let k := if d.comp = 1 then packTopk d.kshift g2 else packSign g2
        let id := groupId s d j
        let m := timed d (collMsg s r c 0x10 (dataVc (ownId s) id) id (d.dst + 4 * first) (collExt d d.comp d.rank 0)
          { data := k.record })
        match packedSends ext s r c d j rest t with
        | (.error e, t) => (.error e, t)
        | (.ok (l, w), t) => (.ok (m :: l, k.resid.flatMap (toBytes 4) ++ w), t)

/-- Every message of a REDUCE_SEND in order, shard by shard, each shard closed by its RACC_END; and the residuals. -/
def sendShards (ext : Ext) (s : State) (r : Nat) (c : Cmd) (d : CollDesc) :
    List Nat → State → Except Nat (List RunMsg × List Byte) × State
  | [], t => (.ok ([], []), t)
  | j :: rest, t =>
    let one : Except Nat (List RunMsg × List Byte) × State :=
      if d.comp = 0 then
        match plainSends ext s r c d j (elemPieces 0 (shardElems s d)) t with
        | (.error e, t) => (.error e, t)
        | (.ok l, t) => (.ok (l, []), t)
      else packedSends ext s r c d j (upFrom 0 (shardElems s d / 4096)) t
    match one with
    | (.error e, t) => (.error e, t)
    | (.ok (l, w), t) =>
      let id := groupId s d j
      let fin := timed d (collMsg s r c 0x12 (dataVc (ownId s) id) id (d.dst + 4 * (j * shardElems s d)) (collExt d 0 d.rank 0) {})
      match sendShards ext s r c d rest t with
      | (.error e, t) => (.error e, t)
      | (.ok (l', w'), t) => (.ok (l ++ fin :: l', w ++ w'), t)

/-- REDUCE_SEND (R304, R310). (DEDUCED, log 41.) -/
def startSend (ext : Ext) (r : Nat) (c : Cmd) (d : CollDesc) (s : State) : State :=
  if vetoActs s then collRefuse ext r c d 0x1A 0 s
  else
    match sendShards ext s r c d (upFrom 0 (groupSize s d)) s with
    | (.error e, s) => collRefuse ext r c d e 0 s
    | (.ok (l, w), s) =>
      if d.deadline ≠ 0 ∧ d.det = false ∧ deadlinePassed s d.deadline = true then
        collDone ext c.uid (s.setColl c.uid { desc := d, late := true, unsent := l.length })
      else
        forEach raccSend l (s.setColl c.uid { desc := d, resid := w, poisoned := l.any fun m => m.poison != 0 })

/-- The messages of REDUCE_SENDs whose deadline has passed are not sent (R310), and neither are the RACC_ENDs behind
them. -/
def dropLate (s : State) : State :=
  forEach (fun l s =>
    let gone := (s.link l).waiting.filter fun m => m.src == ownId s && sendsLate s m
    if gone.isEmpty then s
    else
      let s := s.modLink l fun k => { k with waiting := k.waiting.filter fun m => !gone.contains m }
      forEach (fun m s =>
        forEach (fun c s =>
          match s.coll c.uid with
          | some k => s.setColl c.uid { k with late := true, unsent := k.unsent + 1 }
          | none => s) (cmdsAt s m.ring (BitVec.ofNat 32 m.seq)) s) gone s) (s.links.map (·.1)) s

/-! ## Multicasts (R305) -/

/-- Sends one block both ways along an axis; each direction covers its part of the group. -/
def castOne (r : Nat) (c : Cmd) (d : CollDesc) (x : Option W256) (addr : Nat) (b : Blob) (s : State) : State :=
  let n := groupSize s d
  let pos := groupPos s d
  let go (minus : Bool) (k : Nat) (s : State) : State :=
    if k = 0 then s
    else
      let id := groupId s d (if minus then (pos + n - 1) % n else (pos + 1) % n)
      neighbourSend d.axis minus { collMsg s r c 0x18 (d.axis + 1) id addr x b with hi := k - 1 } s
  go true ((n - 1) / 2) (go false (n / 2) s)

/-- Multicasts bytes in messages of at most 4,096. -/
def castBytes (r : Nat) (c : Cmd) (d : CollDesc) (x : Option W256) (addr : Nat) (b : Blob) (s : State) : State :=
  forEach (fun i s => castOne r c d x (addr + 4096 * i) (b.slice (4096 * i) 4096) s)
    (upFrom 0 ((b.data.length + 4095) / 4096)) s

/-- Multicasts elements and their scale entries to an element place of DST. (DESIGN CHOICE, log 51.) -/
def castElems (r : Nat) (c : Cmd) (d : CollDesc) (x : Option W256) (first : Nat) (a b : Blob) (s : State) : State :=
  castBytes r c d x (d.sdst + d.scales first) b (castBytes r c d x (d.dst + d.bytes first) a s)

/-- MULTICAST. -/
def startMulticast (ext : Ext) (r : Nat) (c : Cmd) (d : CollDesc) (s : State) : State :=
  match readSrc ext d 0 d.count s with
  | (.error e, s) => collRefuse ext r c d e 0 s
  | (.ok (a, b), s) => castElems r c d none 0 a b (s.setColl c.uid { desc := d, poisoned := a.any || b.any })

/-- Bytes that a gathering operation must see written: elements and scale entries of its destination. -/
def gatherBytes (s : State) (d : CollDesc) : Nat :=
  let n := if d.op = 3 then shardElems s d else d.count
  d.bytes n + d.scales n

/-- A write of `n` bytes at an address falls in the destination of a gather. -/
def inDest (d : CollDesc) (addr : Nat) : Bool :=
  (d.dst ≤ addr && addr < d.dst + d.bytes d.count) || (d.sdst ≤ addr && addr < d.sdst + d.scales d.count)

/-- Counts bytes written at a gather's destination; the last ones end it. -/
def collWrote (ext : Ext) (uid n : Nat) (s : State) : State :=
  match s.coll uid with
  | none => s
  | some k =>
    let s := s.setColl uid { k with wrote := k.wrote + n }
    if gatherBytes s k.desc ≤ k.wrote + n then collDone ext uid s else s

/-- Writes elements and scale entries at an element place of DST. -/
def writeDst (ext : Ext) (d : CollDesc) (first : Nat) (a b : Blob) (s : State) : Except Nat Unit × State :=
  match collStore ext (d.dst + d.bytes first) a s with
  | (.error e, s) => (.error e, s)
  | (.ok _, s) => if b.data.isEmpty then (.ok (), s) else collStore ext (d.sdst + d.scales first) b s

/-- ALL_GATHER: the local shard goes to its place here and to every member; shards already received count.
(DEDUCED, log 52.) -/
def startGather (ext : Ext) (r : Nat) (c : Cmd) (d : CollDesc) (s : State) : State :=
  let n := shardElems s d
  let first := groupPos s d * n
  match readSrc ext d 0 n s with
  | (.error e, s) => collRefuse ext r c d e 0 s
  | (.ok (a, b), s) =>
    match writeDst ext d first a b s with
    | (.error e, s) => collRefuse ext r c d e 0 s
    | (.ok _, s) =>
      let s := castElems r c d none first a b (s.setColl c.uid { desc := d, poisoned := a.any || b.any })
      let mine (e : EarlyCast) : Bool := inDest d e.addr
      let got := ((s.early.filter mine).map (·.bytes)).sum
      let s : State := { s with early := s.early.filter fun e => !mine e }
      collWrote ext c.uid (a.data.length + b.data.length + got) s

/-! ## Norm records (R312) -/

/-- The sum of squares of a line's 32 FP32 values by the fixed tree. -/
def lineSquares (l : List Nat) : Nat := (treeSum 5 (l.map fun x => (fmul FFmt.fp32 x x).1)).1

/-- Cuts a list into lines of 32. -/
def lines32 : Nat → List Nat → List (List Nat)
  | 0, _ => []
  | k + 1, l => if l.isEmpty then [] else (l.take 32 ++ List.replicate (32 - (l.take 32).length) 0) :: lines32 k (l.drop 32)

/-- The running total of the line sums in increasing address order. -/
def scanSquares (l : List Nat) : Nat :=
  (lines32 (l.length / 32 + 1) l).foldl (fun t line => (fadd FFmt.fp32 t (lineSquares line)).1) 0

/-- Changes one field of a norm record and counts the write. -/
def normWrite (ext : Ext) (addr : Nat) (f : List Byte → List (Nat × Nat)) (s : State) : State :=
  match collRead ext addr 16 s with
  | (.error _, s) => s
  | (.ok old, s) =>
    let s := forEach (fun (p : Nat × Nat) s => (collWrite ext (addr + p.1) (toBytes 4 p.2) s).2) (f old) s
    (collWrite ext (addr + 12) (toBytes 4 (bytesAt old 12 4 + 1)) s).2

/-- The FP32 codes of elements of the wire format. -/
def fp32Codes (d : CollDesc) (n : Nat) (a b : List Byte) : List Nat :=
  (upFrom 0 n).map fun i => (FFmt.fp32.rne (packedVal d.fmt a b i)).1

/-! ## CHECKPOINT and PARAM_COMMIT -/

/-- CKPT messages to the + neighbour on axis D (R304, R339), the last of which asks for a WACK (R301). -/
def sendCkpt (r : Nat) (c : Cmd) (addr : Nat) (b : Blob) (s : State) : State :=
  let n := max 1 ((b.data.length + 4095) / 4096)
  forEach (fun i s =>
    let id := withCoord (ownId s) 3 ((coordOf (ownId s) 3 + 1) % axisSize s 3)
    neighbourSend 3 false
      { collMsg s r c 0x30 5 id (addr + 4096 * i) none (b.slice (4096 * i) 4096) with ackReq := i + 1 == n } s) (upFrom 0 n) s

/-- CHECKPOINT. -/
def startCheckpoint (ext : Ext) (r : Nat) (c : Cmd) (d : CollDesc) (s : State) : State :=
  match collFetch ext d.src d.count s with
  | (.error e, s) => collRefuse ext r c d e 0 s
  | (.ok a, s) => sendCkpt r c d.dst a (s.setColl c.uid { desc := d, acks := 1, poisoned := a.any })

/-- PARAM_COMMIT (R312, R324, R332): the new values are written over the old, the norms are added, and the new values
are multicast, and checkpointed with BUDDY. -/
def startParam (ext : Ext) (r : Nat) (c : Cmd) (d : CollDesc) (s : State) : State :=
  if s.flag Reg.trnCtl 0 = true ∧ s.flag Reg.trnStatus 1 = false then collRefuse ext r c d 0x15 0 s
  else if vetoActs s then collRefuse ext r c d 0x1A 0 s
  else match readVals ext d 0 d.count s with
    | (.error e, s) => collRefuse ext r c d e 0 s
    | (.ok (a, b), s) =>
      match readVals ext { d with src := d.dst, ssrc := d.sdst } 0 d.count s with
      | (.error e, s) => collRefuse ext r c d e 0 s
      | (.ok (oa, ob), s) =>
        let new := fp32Codes d d.count a b
        let old := fp32Codes d d.count oa ob
        let diff := (new.zip old).map fun p => (fsub FFmt.fp32 p.1 p.2).1
        match writeDst ext d 0 { data := a } { data := b } s with
        | (.error e, s) => collRefuse ext r c d e 0 s
        | (.ok _, s) =>
          let s := normWrite ext d.normAddr (fun rec =>
            [(4, (fadd FFmt.fp32 (bytesAt rec 4 4) (scanSquares new)).1),
             (8, (fadd FFmt.fp32 (bytesAt rec 8 4) (scanSquares diff)).1)]) s
          let s := castElems r c d none 0 { data := a } { data := b } (s.setColl c.uid { desc := d })
          if d.buddy then
            let s := sendCkpt r c d.dst { data := a } s
            if b.isEmpty then s else sendCkpt r c d.sdst { data := b } s
          else s

/-! ## Ring reductions (R317, R318) -/

/-- The bytes of a list of element codes. -/
def codeBytes (f : Fmt) (l : List Nat) : List Byte := l.flatMap (toBytes (f.bits / 8))

/-- Quantises a block as the first device of a ring does (R318). -/
def quantHead (f : Fmt) (headroom : Nat) (vs : List Val) : Nat × List Nat :=
  if vs.any Val.nonfinite then (0xFF, vs.map fun _ => 0)
  else match maxExp vs with
    | none => (0, vs.map (zeroCode f))
    | some amax =>
      let x := min (max (amax - f.emax + headroom) (-127)) 127
      ((x + 127).toNat, (quantList f .rne (fun _ => 0) x 0 vs).1)

/-- A value rounds beyond the largest element of a format: it reaches half a step above the largest (R318).
(DEDUCED, log 50.) -/
def exceeds (f : Fmt) (v : Val) : Bool :=
  let top := match f.elem with
    | some e => e.decode e.maxCode
    | none => Val.fin false 127 (-6)
  match v.abs, top with
  | .fin _ m e, .fin _ mt et => Val.cmp (.fin false m e) (.fin false (2 * mt + 1) (et - 1)) != .lt
  | _, _ => true

/-- Raises a scale until no element exceeds the format (R318): the new exponent and the steps. (DEDUCED, log 50.) -/
def raiseScale (f : Fmt) (vs : List Val) : Nat → Int → Nat → Int × Nat
  | 0, x, r => (x, r)
  | k + 1, x, r =>
    if x < 127 ∧ vs.any (fun v => exceeds f (v.scale (-x))) = true then raiseScale f vs k (x + 1) (r + 1) else (x, r)

/-- One block of a hop (R318): scale byte, element codes, and whether the scale was raised. -/
def hopBlock (f : Fmt) (scale : Nat) (ys : List Val) : Nat × List Nat × Bool :=
  if ys.any Val.nonfinite then (0xFF, ys.map fun _ => 0, false)
  else
    let x := raiseScale f ys 256 ((scale : Int) - 127) 0
    ((x.1 + 127).toNat, (quantList f .rne (fun _ => 0) x.1 0 ys).1, x.2 != 0)

/-- The sums of one piece of a hop: the arriving values plus the local ones, by RNE in FP32. -/
def hopSums (f : Fmt) (n : Nat) (ina inb loca locb : List Byte) : List Val :=
  (upFrom 0 n).map fun i =>
    FFmt.fp32.decode (FFmt.fp32.rne ((packedVal f ina inb i).add (packedVal f loca locb i)).1).1

/-- Encodes the sums of a piece in the wire format: element bytes, scale bytes, blocks raised. -/
def hopEncode (f : Fmt) (inb : List Byte) (ys : List Val) : List Byte × List Byte × Nat :=
  if f.isBlock then
    let blocks := (upFrom 0 (ys.length / 32)).map fun b => hopBlock f (bytesAt inb b 1) ((ys.drop (32 * b)).take 32)
    (codeBytes f (blocks.flatMap fun b => b.2.1), blocks.flatMap fun b => toBytes 1 b.1,
      (blocks.filter fun b => b.2.2).length)
  else (codeBytes f (ys.map fun y => (convertTo f .rne 0 false y).1), [], 0)

/-- Sends a piece of a chunk to the next position of its ring as RING_PART. (DESIGN CHOICE, log 49.) -/
def sendPart (r : Nat) (c : Cmd) (d : CollDesc) (minus : Bool) (step raised first : Nat) (a b : Blob) (s : State) :
    State :=
  let n := groupSize s d
  let pos := groupPos s d
  let id := groupId s d (if minus then (pos + n - 1) % n else (pos + 1) % n)
  neighbourSend d.axis minus
    (collMsg s r c 0x14 (d.axis + 1) id (d.dst + d.bytes first) (collExt d 0 step raised) (a.append b)) s

/-- Element `i` of elements and scale entries is poison. -/
def elemBad (f : Fmt) (a b : Blob) (i : Nat) : Bool :=
  let meets (l : List (Nat × Nat)) (lo hi : Nat) : Bool := l.any fun p => p.1 < hi && lo < p.1 + p.2
  meets a.bad (i * f.bits / 8) ((i * f.bits + f.bits + 7) / 8)
    || (f.isBlock && meets b.bad (i / 32 * f.scaleBytes) (i / 32 * f.scaleBytes + f.scaleBytes))

/-- Encoded elements and scale entries whose elements `bad` are poison: in a block format the whole block is, whose scale
depends on every element (R293, R497). -/
def encoded (f : Fmt) (n : Nat) (bad : Nat → Bool) (a b : List Byte) : Blob × Blob :=
  let at_ (i : Nat) : Bool := if f.isBlock then (upFrom (i / 32 * 32) 32).any bad else bad i
  ({ data := a, bad := ((upFrom 0 n).filter at_).map fun i => (i * f.bits / 8, f.bits / 8) },
   { data := b, bad := ((upFrom 0 (n / 32)).filter fun k => f.isBlock && at_ (32 * k)).map fun k => (k * f.scaleBytes, f.scaleBytes) })

/-- A running COLLECTIVE has met poison (R314). -/
def collPoisoned (uid : Nat) (s : State) : State :=
  match s.coll uid with
  | some k => s.setColl uid { k with poisoned := true }
  | none => s

/-- Starts the chunk of one direction at this position (step 0): its SRC, quantised in a block format (R318). -/
def startChunk (ext : Ext) (r : Nat) (c : Cmd) (d : CollDesc) (minus : Bool) :
    List (Nat × Nat) → State → Except Nat Unit × State
  | [], s => (.ok (), s)
  | p :: rest, s =>
    match readSrc ext d p.1 p.2 s with
    | (.error e, s) => (.error e, s)
    | (.ok (a, b), s) =>
      let out : Blob × Blob :=
        if d.fmt.isBlock then
          let vals := (upFrom 0 p.2).map (packedVal d.fmt a.data b.data)
          let blocks := (upFrom 0 (p.2 / 32)).map fun k => quantHead d.fmt d.headroom ((vals.drop (32 * k)).take 32)
          encoded d.fmt p.2 (elemBad d.fmt a b) (codeBytes d.fmt (blocks.flatMap (·.2))) (blocks.flatMap fun k => toBytes 1 k.1)
        else (a, {})
      let s := if a.any || b.any then collPoisoned c.uid s else s
      startChunk ext r c d minus rest (sendPart r c d minus 0 0 p.1 out.1 out.2 s)

/-- First element of a chunk: shard `j`, first half on the + ring, second half on the − ring. -/
def chunkFirst (s : State) (d : CollDesc) (j : Nat) (minus : Bool) : Nat :=
  j * shardElems s d + (if minus then shardElems s d / 2 else 0)

/-- RING_REDUCE_SCATTER and RING_ALL_REDUCE begin (R317). -/
def startRing (ext : Ext) (r : Nat) (c : Cmd) (d : CollDesc) (s : State) : State :=
  let n := groupSize s d
  let pos := groupPos s d
  if vetoActs s then collRefuse ext r c d 0x1A 0 s
  else if n ≤ 1 then
    match readSrc ext d 0 d.count s with
    | (.error e, s) => collRefuse ext r c d e 0 s
    | (.ok (a, b), s) =>
      match writeDst ext d 0 a b s with
      | (.error e, s) => collRefuse ext r c d e 0 s
      | (.ok _, s) => collDone ext c.uid (s.setColl c.uid { desc := d, poisoned := a.any || b.any })
  else
    let half := shardElems s d / 2
    let s := s.setColl c.uid { desc := d }
    match startChunk ext r c d false (elemPieces (chunkFirst s d ((pos + n - 1) % n) false) half) s with
    | (.error e, s) => collRefuse ext r c d e 0 (s.dropColl c.uid)
    | (.ok _, s) =>
      match startChunk ext r c d true (elemPieces (chunkFirst s d ((pos + 1) % n) true) half) s with
      | (.error e, s) => collRefuse ext r c d e 0 (s.dropColl c.uid)
      | (.ok _, s) => s

/-- The running ring operation an arriving RING_PART belongs to, by its RED_ID. -/
def ringOpOf (s : State) (red : Nat) : Option (Nat × Coll) :=
  List.find? (fun (e : Nat × Coll) => (e.2.desc.op == 3 || e.2.desc.op == 4) && e.2.desc.red == red) s.colls

/-- Blocks raised in a chunk so far, with those of this hop. -/
def noteRaised (key hop : Nat) (inc : Nat) (k : Coll) : Coll × Nat :=
  let mine := Tab.get 0 k.hopRaised key + hop
  ({ k with hopRaised := Tab.set 0 k.hopRaised key mine }, min 0xFFFF (inc + mine))

/-- A RING_PART arrives at its operation (R317, R318): the local chunk is added and the result goes on, or is written
and, in an all-reduce, multicast. (DESIGN CHOICE, log 49; DESIGN CHOICE, log 51.) -/
def ringPart (ext : Ext) (uid : Nat) (k : Coll) (m : RunMsg) (s : State) : State :=
  match findCmd s uid with
  | none => s
  | some (r, c) =>
    let d := k.desc
    let n := groupSize s d
    let size := elemCount d.fmt m.data.length
    let first := (m.addr - d.dst) * 8 / d.fmt.bits
    let shard := first / shardElems s d
    let minus := decide (shardElems s d / 2 ≤ first % shardElems s d)
    let step := RedX.key m.x
    let ina := (blobOf m).slice 0 (d.bytes size)
    let inb := (blobOf m).slice (d.bytes size) m.data.length
    match readSrc ext d first size s with
    | (.error e, s) => collCommit ext uid e s
    | (.ok (la, lb), s) =>
      let ys := hopSums d.fmt size ina.data inb.data la.data lb.data
      let sums := hopEncode d.fmt inb.data ys
      let out := encoded d.fmt size (fun i => elemBad d.fmt ina inb i || elemBad d.fmt la lb i) sums.1 sums.2.1
      let nr := noteRaised (2 * shard + b2n minus) sums.2.2 (RedX.raised m.x)
        { k with poisoned := k.poisoned || m.poison != 0 || la.any || lb.any }
      if step + 2 < n then sendPart r c d minus (step + 1) nr.2 first out.1 out.2 (s.setColl uid nr.1)
      else
        let bad := (ys.filter Val.nonfinite).length
        let k' : Coll := { nr.1 with
          raised := Tab.set 0 nr.1.raised (2 * shard + b2n minus) nr.2, nonfinite := nr.1.nonfinite + bad }
        match writeDst ext d first out.1 out.2 (s.setColl uid k') with
        | (.error e, s) => collCommit ext uid e s
        | (.ok _, s) =>
          let s := if d.op = 4 then castElems r c d (collExt d 0 0 nr.2) first out.1 out.2 s else s
          collWrote ext uid (out.1.data.length + out.2.data.length) s

/-- A multicast block has been written here: a gather whose destination it falls in counts it, with the blocks its
sender raised; otherwise an ALL_GATHER may count it later (R304). (DEDUCED, log 52.) -/
def castWritten (ext : Ext) (m : RunMsg) (s : State) : State :=
  match List.find? (fun (e : Nat × Coll) => (e.2.desc.op == 4 || e.2.desc.op == 5) && inDest e.2.desc m.addr) s.colls with
  | some (uid, k) =>
    let d := k.desc
    let first := (m.addr - d.dst) * 8 / d.fmt.bits
    let key := 2 * (first / shardElems s d) + b2n (decide (shardElems s d / 2 ≤ first % shardElems s d))
    let note := m.ext.isSome && d.dst ≤ m.addr && m.addr < d.dst + d.bytes d.count
    let raised := if note then Tab.set 0 k.raised key (max (Tab.get 0 k.raised key) (RedX.raised m.x)) else k.raised
    let k := { k with raised := raised, poisoned := k.poisoned || m.poison != 0 }
    collWrote ext uid m.data.length (s.setColl uid k)
  | none =>
    { s with early := s.early.filter (fun e => !(e.src == m.src && e.addr == m.addr))
        ++ [{ src := m.src, addr := m.addr, bytes := m.data.length }] }

/-! ## Start of a COLLECTIVE -/

/-- The bytes of a COLLECTIVE's descriptor as an observer sees them, and its OP. -/
def descOp (s : State) (ext : Ext) (body : W512) : Option Nat :=
  match (escReadAt false ext (Cb.addr body) 128 s).1 with
  | .ok l => some (bytesAt l 0 1)
  | .error _ => none

/-- A COLLECTIVE is handed to the engine (R267, R303). (DEDUCED, log 41; DEDUCED, log 43.) -/
def startCollective (ext : Ext) (r : Nat) (c : Cmd) (s : State) : State :=
  let a := Cb.addr c.body
  if a % 128 ≠ 0 then commit ext r c 0x15 16 0 s
  else match escReadAt false ext a 128 s with
    | (.error e, s) => commit ext r c e.status 0 0 s
    | (.ok l, s) =>
      let d := CollDesc.parse l
      match CollDesc.offence l (axisSize s d.axis) with
      | some off => collRefuse ext r c d 0x15 off s
      | none =>
        match d.op with
        | 1 => startOpen ext r c d s
        | 2 => startSend ext r c d s
        | 3 => startRing ext r c d s
        | 4 => startRing ext r c d s
        | 5 => startGather ext r c d s
        | 6 => startMulticast ext r c d s
        | 7 => startParam ext r c d s
        | _ => startCheckpoint ext r c d s

end Sys2Proof.Machine
end

