-- ==== Sys2Proof/Machine/Training.lean ====
section
/-! DEFINITION. The training machinery: the step word, a veto and what it does to the collective engine, and the end of
a step (R325 to R335). -/

namespace Sys2Proof.Machine

/-- The step word (Table 10.5). -/
def stepWordBytes (s : State) : List Byte :=
  let flags := b2n (s.flag Reg.trnStatus 0) + 2 * b2n (s.flag Reg.trnStatus 1) + 4 * b2n (s.flag Reg.trnStatus 2)
  toBytes 4 (s.reg Reg.trnStep).toNat ++ toBytes 4 (s.reg Reg.trnScale).toNat ++ toBytes 4 (s.reg Reg.trnClean).toNat
    ++ toBytes 4 flags ++ toBytes 4 (s.reg Reg.trnUpdates).toNat ++ toBytes 4 (s.reg Reg.trnVetoes).toNat
    ++ toBytes 6 (beatOf s.beat) ++ toBytes 2 (epochOf s.beat) ++ toBytes 32 0

/-- Writes the step word at TRN_MIRROR, which lies in scratch (R335). (DEDUCED, log 60.) -/
def writeStepWord (s : State) : State :=
  let a := s.fld Reg.trnMirrorHi 15 0 * 2 ^ 32 + s.fld Reg.trnMirrorLo 31 6 * 64
  match place s a with
  | .scratch _ => if cruHolds s then hold .stepWord s else (writePhys {} {} (fun _ => true) a (stepWordBytes s) s).2
  | _ => s

/-- The link of a port that carries a message sent on every port: it is up, and under seal it is sealed (R327, R328). -/
def vetoLink (s : State) (p : Nat) : Option Nat :=
  (linkOfPort s p).filter fun l => linkUp s l && (!s.sealed || s.flag (Reg.runLinkStatus l) 28)

/-- Sends a control message to the neighbour of every such port. -/
def sendAllPorts (m : RunMsg) (s : State) : State :=
  forEach (fun p s =>
    match vetoLink s p with
    | some l =>
      let x := p / 4
      let wrap := wraps (axisSize s x) (coordOf (ownId s) x) (bit p 1)
      linkSend l { m with dest := s.fld (Reg.runLinkStatus l) 12 0, dateline := b2n wrap } s
    | none => s) (upFrom 0 16) s

/-- The data of a veto that this device originates (Table 10.4). -/
def vetoData (s : State) (layer red cause : Nat) : List Byte :=
  toBytes 4 (s.reg Reg.trnStep).toNat ++ toBytes 2 (s.fld Reg.runJob 15 0) ++ toBytes 2 (ownId s) ++ toBytes 2 layer
    ++ toBytes 2 red ++ toBytes 1 cause ++ toBytes 19 0

/-- Under a sealed job LAYER_TAG, RED_ID and CAUSE are zero (R327). -/
def vetoShown (s : State) (data : List Byte) : List Byte :=
  if s.sealed then data.take 8 ++ toBytes 5 0 ++ data.drop 13 else data

/-- The VETO message this device sends (Table 10.4). -/
def vetoMsg (s : State) (data : List Byte) : RunMsg :=
  { opc := 0x23, vc := 0, src := ownId s, seq := ofBytes (data.take 4), data := vetoShown s data }

/-- Enters a pair in a list of the last 16 seen. -/
def seen16 (p : Nat × Nat) (l : List (Nat × Nat)) : List (Nat × Nat) := if l.contains p then l else (p :: l).take 16

/-- A COLLECTIVE that sends or reduces stops at a message boundary with a status (R329). -/
def vetoColl (ext : Ext) (uid : Nat) (s : State) : State :=
  match findCmd s uid with
  | some (r, c) => collCommit ext uid 0x1A (stopSends r c.seq s)
  | none => s

/-- While VETOED is 1 open and pending records close at once and running sends and ring operations stop (R329). -/
def applyVeto (ext : Ext) (s : State) : State :=
  let reds := (s.recs.filter fun e => e.2.state == .opened).map (·.1)
  let s := forEach (fun red s => commitRec ext red 0x1A (traceReduction red 2 (dropRec red s))) reds s
  let pend := (s.recs.filter fun e => e.2.state == .pending).map (·.1)
  let s := forEach dropRec pend s
  let ops := (s.colls.filter fun e => e.2.desc.op == 2 || e.2.desc.op == 3 || e.2.desc.op == 4).map (·.1)
  forEach (vetoColl ext) ops s

/-- Posts STEP_VETO with the first 16 bytes of Table 10.4 (R327). (DEDUCED, log 55.) -/
def postVeto (data : List Byte) (s : State) : State :=
  escNotice 0x66 3 (ofBytes ((vetoShown s data).take 16)) s

/-- What the first veto of a step does (R327, R329): its cause is recorded, a message goes out on every port unless it came
through the gate (cause 5), it is posted and interrupts, and the engine acts on it. (DEDUCED, log 56.) -/
def vetoEffects (ext : Ext) (cause : Nat) (data : List Byte) (s : State) : State :=
  let s := s.setFld Reg.trnStatus 11 8 cause
  let s := if cause = 5 then s
    else sendAllPorts (vetoMsg s data)
      { s with vetoesSeen := seen16 (s.fld Reg.runJob 15 0, ofBytes (data.take 4)) s.vetoesSeen }
  let s := postVeto data s
  let s := if s.flag Reg.trnCtl 3 then raiseInt (s.fld Reg.trnCtl 31 24) s else s
  applyVeto ext s

/-- The device vetoes the current step (R326, R327). While ENABLE is 0 it raises none, and a step is vetoed once. -/
def vetoStep (ext : Ext) (cause : Nat) (data : List Byte) (s : State) : State :=
  if s.flag Reg.trnCtl 0 = false ∨ s.flag Reg.trnStatus 0 = true then s
  else vetoEffects ext cause data (writeStepWord (s.setFlag Reg.trnStatus 0))

/-! ## The end of a step (R333) -/

/-- A power of two from its exponent as an FP32 code. -/
def pow2 (k : Nat) : Nat := (127 + k) * 2 ^ 23

/-- The FP32 scale halved, not below the smallest, or doubled, not above the largest. -/
def halveScale (s : State) : Nat := max ((s.reg Reg.trnScale).toNat - 2 ^ 23) (pow2 (s.fld Reg.trnLimits 4 0))
/-- The doubled scale. -/
def doubleScale (s : State) : Nat := min ((s.reg Reg.trnScale).toNat + 2 ^ 23) (pow2 (s.fld Reg.trnLimits 12 8))

/-- The change of STEP_END. (DEDUCED, log 56.) -/
def stepEnd (ext : Ext) (s : State) : State :=
  let s :=
    if s.flag Reg.trnStatus 0 then
      ((s.setReg Reg.trnScale (BitVec.ofNat 32 (halveScale s))).setReg Reg.trnClean 0).addSat Reg.trnVetoes 1
    else
      let s := s.setReg Reg.trnUpdates (s.reg Reg.trnUpdates + 1)
      let s := s.setReg Reg.trnClean (s.reg Reg.trnClean + 1)
      if s.reg Reg.trnGrowth ≠ 0 ∧ s.reg Reg.trnClean = s.reg Reg.trnGrowth then
        (s.setReg Reg.trnScale (BitVec.ofNat 32 (doubleScale s))).setReg Reg.trnClean 0
      else s
  let next := s.flag Reg.trnStatus 2
  let s := s.setReg Reg.trnStep (s.reg Reg.trnStep + 1)
  let s : State := { s.setReg Reg.trnStatus (BitVec.ofNat 32 (b2n next)) with gateSent := false }
  let s := writeStepWord s
  if next = true ∧ s.flag Reg.trnCtl 0 = true then vetoEffects ext 4 s.nextVeto s else s

/-! ## The close of a record (R311, R312, R314, R326) -/

/-- Reads a shard element's word: its place in HBM, its FP32 code, and whether it is poison. -/
def shardWord (s : State) (base i : Nat) : Option (Nat × Nat × Bool) :=
  match hbmAt s (base + 4 * i) with
  | some pa =>
    if (s.wline pa).valid then
      some (pa, ofBytes ((upFrom pa 4).map fun a => (s.wline pa).byteAt (a % 128)), peekPoison s {} pa)
    else some (pa, word32 s pa, s.isPoison pa)
  | none => none

/-- The close work reads the shard: a bad word is met (R84), and a poisoned one makes the record poisoned (R497). -/
def readShard (red : Nat) (s : State) : State :=
  let r := s.recOf red
  if r.mean = false ∧ r.norms = false then s
  else forEach (fun i s =>
    match hbmAt s (r.base + 16 * i) with
    | some pa =>
      let s := checkWord pa s
      if peekPoison s {} pa then s.modRec red fun r => { r with poisoned := true } else s
    | none => s) (upFrom 0 ((4 * r.elems + 15) / 16)) s

/-- MEAN divides each clean element by the units received (R311). -/
def meanShard (r : Rec) (s : State) : State :=
  if r.mean = true ∧ r.received ≠ 0 then
    let n := (FFmt.fp32.rne (Val.ofInt r.received)).1
    forEach (fun i s =>
      match shardWord s r.base i with
      | some (pa, w, false) => storeBytes pa (toBytes 4 (fdiv FFmt.fp32 w n).1) (raccLine pa s)
      | _ => s) (upFrom 0 r.elems) s
  else s

/-- The NORMS scan takes a poisoned word as NaN (R312, R497). -/
def gradSquares (s : State) (r : Rec) : Nat :=
  scanSquares ((upFrom 0 r.elems).map fun i =>
    match shardWord s r.base i with
    | some (_, w, false) => w
    | _ => 0x7FC00000)

/-- The status of a record at its close (R314). (DEDUCED, log 46.) -/
def Rec.status (r : Rec) : Nat :=
  if r.poisoned then 0x17
  else if r.tainted then 0x18
  else if r.nonfinite ≠ 0 then 0x04
  else if r.received < r.units then 0x02
  else 0x00

/-- The close work of a record ends and its REDUCE_OPEN completes; a record with NORMS and a non-finite result vetoes
the step. -/
def finishClose (ext : Ext) (red : Nat) (s : State) : State :=
  let r := s.recOf red
  if r.state ≠ .closing then s
  else
    let s := readShard red s
    let r := s.recOf red
    let s := meanShard r s
    let sq := gradSquares s r
    let bad := (FFmt.fp32.decode sq).nonfinite
    let vetoes := s.flag Reg.trnCtl 0 && r.norms && (r.nonfinite != 0 || bad)
    let s := if r.norms = true ∧ vetoes = false then normWrite ext r.norm (fun _ => [(0, sq)]) s else s
    let s := s.modRec red fun r => { r with state := .closed }
    if vetoes then
      let s := 
        let cause := if r.nonfinite ≠ 0 then 1 else 2
        vetoStep ext cause (vetoData s r.layer red cause) s
      commitRec ext red 0x1A (traceReduction red 2 s)
    else commitRec ext red r.status s

end Sys2Proof.Machine
end

