-- ==== Sys2Proof/Machine/Barrier.lean ====
section
/-! DEFINITION. Fabric barriers and the step gate (R306, R331, R496). -/

namespace Sys2Proof.Machine

namespace State
/-- An open fabric barrier. -/
def bar (s : State) (id : Nat) : Barrier := Tab.get {} s.bars id
/-- Changes an open fabric barrier. -/
def modBar (s : State) (id : Nat) (f : Barrier → Barrier) : State := { s with bars := Tab.modify {} s.bars id f }
end State

/-- The axes an AXES field names. -/
def axesOf (m : Nat) : List Nat := (upFrom 0 4).filter fun x => bit m x

/-- This device's coordinate on an axis. -/
def ownCoord (s : State) (x : Nat) : Nat := coordOf (ownId s) x

/-- The job set covers an axis whole. -/
def wholeAxis (s : State) (x : Nat) : Bool := (jobRange s x).1 == 0 && (jobRange s x).2 + 1 == axisSize s x

/-- The direction in which a coordinate forwards towards the root of its axis. -/
def towardRoot (s : State) (x c : Nat) : Bool :=
  if wholeAxis s x then goesMinus (axisSize s x) c (jobRange s x).1 else true

/-- The next coordinate towards the root of an axis. -/
def nextCoord (s : State) (x c : Nat) : Nat :=
  let n := axisSize s x
  if towardRoot s x c then (c + n - 1) % n else (c + 1) % n

/-- The hop to this device's parent in the tree: the first spanned axis on which it is not at the root. -/
def barParent (s : State) (axes : Nat) : Option (Nat × Bool) :=
  ((axesOf axes).find? fun x => ownCoord s x != (jobRange s x).1).map fun x => (x, towardRoot s x (ownCoord s x))

/-- The axes along which this device gathers arrivals: those before its parent's axis, and that axis. -/
def barStages (s : State) (axes : Nat) : List Nat :=
  match barParent s axes with
  | none => axesOf axes
  | some (p, _) => (axesOf axes).filter fun x => x ≤ p

/-- The neighbours whose arrivals this device waits for. -/
def barChildren (s : State) (axes : Nat) : List Nat :=
  (barStages s axes).flatMap fun x =>
    let c := ownCoord s x
    let n := axisSize s x
    let near := [(c + 1) % n, (c + n - 1) % n].eraseDups
    (near.filter fun k => k != c && k != (jobRange s x).1 && (jobRange s x).1 ≤ k && k ≤ (jobRange s x).2
      && nextCoord s x k == c).map fun k => withCoord (ownId s) x k

/-- A barrier message to a neighbour: ADDR[0] ERROR, ADDR[1] VETOED, ADDR[7:4] AXES. (DESIGN CHOICE, log 53.) -/
def barMsg (s : State) (opc dest id ring : Nat) (clash veto : Bool) (axes : Nat) : RunMsg :=
  { opc := opc, vc := 0, dest := dest, src := ownId s, ring := ring, seq := id,
    addr := b2n clash + 2 * b2n veto + 16 * (axes % 16) }

/-- Sends a barrier message one hop. -/
def barSend (m : RunMsg) (s : State) : State :=
  match firstHop s (ownId s) m.dest with
  | some (x, d) => neighbourSend x d m s
  | none => s

/-- The device id one hop along an axis. -/
def neighbourId (s : State) (x : Nat) (minus : Bool) : Nat :=
  let n := axisSize s x
  withCoord (ownId s) x (if minus then (ownCoord s x + n - 1) % n else (ownCoord s x + 1) % n)

/-- The barrier is the step gate (R331): its ID is TRN_GATE, and its AXES name every axis of the job. (DEDUCED,
log 54.) -/
def isGate (s : State) (id axes : Nat) : Bool :=
  (s.reg Reg.trnGate).toNat == id
    && (upFrom 0 4).all fun x => (jobRange s x).1 == (jobRange s x).2 || bit axes x

/-- A reduction record is OPEN or CLOSING (R331). -/
def recordsOpen (s : State) : Bool := s.recs.any fun e => e.2.state == .opened || e.2.state == .closing

/-- Completes every participant of this device. -/
def commitBarrier (ext : Ext) (status : Nat) (l : List Nat) (s : State) : State :=
  forEach (fun uid s =>
    match findCmd s uid with
    | some (r, c) => commit ext r c status 0 0 s
    | none => s) l s

/-- A release passes through this device: it goes on to the neighbours that arrived here, opens the step gate, and
completes the participants (R306, R331). -/
def releaseBar (ext : Ext) (id : Nat) (clash veto : Bool) (s : State) : State :=
  let b := s.bar id
  let s := forEach (fun k s => barSend (barMsg s 0x21 k id 0 clash veto b.axes) s) b.arrived s
  let gate := isGate s id b.axes
  let s : State := { s with bars := Tab.erase s.bars id }
  let s :=
    if gate = true ∧ clash = false ∧ b.own ≠ [] then
      let s := writeStepWord (s.setFlag Reg.trnStatus 1)
      if veto then vetoStep ext 5 (vetoData s 0 0 0) s else s
    else s
  commitBarrier ext (if clash then 0x15 else 0) b.own s

/-- Sends this subtree's arrival on, or releases the barrier at the root, once everything expected is in; the step gate's
arrival is held while a record is OPEN or CLOSING (R306, R331). -/
def advanceBar (ext : Ext) (id : Nat) (s : State) : State :=
  let b := s.bar id
  let gate := isGate s id b.axes
  if b.own = [] ∨ b.sent = true ∨ (barChildren s b.axes).any (fun k => !b.arrived.contains k) = true then s
  else if gate = true ∧ recordsOpen s = true then s.modBar id fun b => { b with held := true }
  else
    let veto := b.veto || (gate && s.flag Reg.trnStatus 0)
    let s : State := if gate then { s with gateSent := true } else s
    match barParent s b.axes with
    | none => releaseBar ext id b.clash veto s
    | some (x, d) =>
      let ring := match b.own.head?.bind (findCmd s) with
        | some (r, _) => r
        | none => 0
      let s := s.modBar id fun b => { b with sent := true }
      neighbourSend x d (barMsg s 0x20 (neighbourId s x d) id ring b.clash veto b.axes) s

/-- Open fabric barriers of the device. -/
def openBars (s : State) : Nat := s.bars.length

/-- A fabric BARRIER arrives (R306). A 17th open barrier completes with BAD_COMMAND. -/
def joinBar (ext : Ext) (r : Nat) (c : Cmd) (id axes : Nat) (s : State) : State :=
  let b := s.bar id
  if b = {} ∧ 16 ≤ openBars s then commit ext r c 0x15 0 0 s
  else
    let clash := b.clash || (b.axes != 0 && b.axes != axes)
    let s := s.modBar id fun b => { b with own := b.own ++ [c.uid], axes := axes, clash := clash }
    advanceBar ext id s

/-- STEP_GATE_ARRIVE: the last record has closed and a held arrival goes on. -/
def gateArrive (ext : Ext) (s : State) : State :=
  if recordsOpen s then s
  else
    let held := (s.bars.filter fun e => e.2.held).map (·.1)
    forEach (fun id s => advanceBar ext id (s.modBar id fun b => { b with held := false })) held s

/-- A BAR_ARRIVE comes in from a neighbour. -/
def barArrived (ext : Ext) (m : RunMsg) (s : State) : State :=
  let id := m.seq
  let axes := bits m.addr 7 4
  let s := s.modBar id fun b =>
    { b with arrived := if b.arrived.contains m.src then b.arrived else b.arrived ++ [m.src],
             axes := if b.axes = 0 then axes else b.axes, clash := b.clash || bit m.addr 0 || (b.axes != 0 && b.axes != axes),
             veto := b.veto || bit m.addr 1 }
  advanceBar ext id s

/-- A BAR_ARRIVE that would open a 17th barrier waits. -/
def barStalls (s : State) (m : RunMsg) : Bool := decide (s.bar m.seq = {}) && 16 ≤ openBars s

/-- An arrival is taken back: from this device's subtree, and from the parent where it had been sent on (R306). -/
def unsendBar (id : Nat) (s : State) : State :=
  let b := s.bar id
  let s : State := if isGate s id b.axes then { s with gateSent := false } else s
  if b.sent then
    match barParent s b.axes with
    | some (x, d) =>
      neighbourSend x d (barMsg s 0x22 (neighbourId s x d) id 0 false false b.axes) (s.modBar id fun b => { b with sent := false })
    | none => s
  else s

/-- A participant withdraws (R306). -/
def withdrawBar (uid : Nat) (s : State) : State :=
  match List.find? (fun (e : Nat × Barrier) => e.2.own.contains uid) s.bars with
  | none => s
  | some (id, _) =>
    let s := unsendBar id s
    s.modBar id fun b =>
      let own := b.own.filter (· != uid)
      if own = [] ∧ b.arrived = [] then {} else { b with own := own }

/-- A BAR_WITHDRAW comes in. -/
def barWithdrawn (m : RunMsg) (s : State) : State :=
  let id := m.seq
  if (s.bar id).arrived.contains m.src then
    let s := unsendBar id s
    s.modBar id fun b =>
      let l := b.arrived.filter (· != m.src)
      if b.own = [] ∧ l = [] then {} else { b with arrived := l }
  else s

/-- A NAK of a barrier's BAR_ARRIVE comes in (R306): the participants here complete with its status, and the arrival
counts as not sent. -/
def barRefused (ext : Ext) (id status : Nat) (s : State) : State :=
  let b := s.bar id
  let s : State := if isGate s id b.axes then { s with gateSent := false } else s
  let s := s.modBar id fun b => if b.arrived = [] then {} else { b with own := [], sent := false }
  commitBarrier ext status b.own s

/-- A BAR_RELEASE comes in; one that meets no arrival sent on is ignored. -/
def barReleased (ext : Ext) (m : RunMsg) (s : State) : State :=
  if (s.bar m.seq).sent then releaseBar ext m.seq (bit m.addr 0) (bit m.addr 1) s else s

end Sys2Proof.Machine
end

