-- ==== Sys2Proof/Machine/Digest.lean ====
section
/-! DEFINITION. SHA-256 (FIPS 180-4) and CRC-32C (R293), which the spec names by their standards. -/

namespace Sys2Proof.Machine

namespace Sha256
/-- The eight 32-bit words of a 256-bit number, the most significant first. -/
def words8 (n : Nat) : List W32 := (upFrom 0 8).map fun i => BitVec.ofNat 32 (n / 2 ^ (32 * (7 - i)))

/-- The round constants, eight to a number. -/
def constants : List W32 :=
  [0x428a2f9871374491b5c0fbcfe9b5dba53956c25b59f111f1923f82a4ab1c5ed5,
   0xd807aa9812835b01243185be550c7dc372be5d7480deb1fe9bdc06a7c19bf174,
   0xe49b69c1efbe47860fc19dc6240ca1cc2de92c6f4a7484aa5cb0a9dc76f988da,
   0x983e5152a831c66db00327c8bf597fc7c6e00bf3d5a7914706ca635114292967,
   0x27b70a852e1b21384d2c6dfc53380d13650a7354766a0abb81c2c92e92722c85,
   0xa2bfe8a1a81a664bc24b8b70c76c51a3d192e819d6990624f40e3585106aa070,
   0x19a4c1161e376c082748774c34b0bcb5391c0cb34ed8aa4a5b9cca4f682e6ff3,
   0x748f82ee78a5636f84c878148cc7020890befffaa4506cebbef9a3f7c67178f2].flatMap words8

/-- The initial hash value. -/
def init : List W32 := words8 0x6a09e667bb67ae853c6ef372a54ff53a510e527f9b05688c1f83d9ab5be0cd19

/-- A big-endian 32-bit word of four bytes. -/
def beWord (l : List Byte) : W32 := BitVec.ofNat 32 (ofBytes (l.take 4).reverse)

/-- Three rotations of a word, exclusive-ored: Σ. -/
def turns (i j k : Nat) (x : W32) : W32 := x.rotateRight i ^^^ (x.rotateRight j ^^^ x.rotateRight k)

/-- Two rotations and a shift, exclusive-ored: σ. -/
def turnShift (i j k : Nat) (x : W32) : W32 := x.rotateRight i ^^^ (x.rotateRight j ^^^ BitVec.ofNat 32 (x.toNat / 2 ^ k))

/-- The message schedule extended by `n` words; the list holds the words so far, newest first. -/
def schedule : Nat → List W32 → List W32
  | 0, w => w
  | n + 1, w =>
    let back (i : Nat) : W32 := w.getD (i - 1) 0
    schedule n ((back 16 + turnShift 7 18 3 (back 15) + back 7 + turnShift 17 19 10 (back 2)) :: w)

/-- One round on the eight working variables, which step down by one place. -/
def round : List W32 → W32 → List W32
  | [a, b, c, d, e, f, g, h], kw =>
    let choose := g ^^^ (e &&& (f ^^^ g))
    let most := (a &&& (b ||| c)) ||| (b &&& c)
    let up := h + kw + choose + turns 6 11 25 e
    (up + (most + turns 2 13 22 a)) :: a :: b :: c :: (d + up) :: e :: f :: [g]
  | l, _ => l

/-- One 64-byte block. -/
def block (h : List W32) (l : List Byte) : List W32 :=
  let w := (schedule 48 (((upFrom 0 16).map fun i => beWord (l.drop (4 * i))).reverse)).reverse
  let kw := (constants.zip w).map fun p => p.1 + p.2
  (h.zip (kw.foldl round h)).map fun p => p.1 + p.2

/-- Blocks of a padded message. -/
def blocks : Nat → List W32 → List Byte → List W32
  | 0, h, _ => h
  | n + 1, h, l => blocks n (block h (l.take 64)) (l.drop 64)
end Sha256

/-- The 32 bytes of a SHA-256 digest. (DESIGN CHOICE, log 20.) -/
def sha256 (l : List Byte) : List Byte :=
  let z := (119 - l.length % 64) % 64
  let m := l ++ [0x80#8] ++ toBytes z 0 ++ (toBytes 8 (8 * l.length)).reverse
  (Sha256.blocks (m.length / 64) Sha256.init m).flatMap fun w => (toBytes 4 w.toNat).reverse

/-- One bit of CRC-32C, reflected. -/
def crcStep : Nat → Nat → Nat
  | 0, c => c
  | n + 1, c => crcStep n (if c % 2 = 1 then Nat.xor (c / 2) 0x82F63B78 else c / 2)

/-- CRC-32C (polynomial 0x1EDC_6F41) of a byte list. (DESIGN CHOICE, log 20.) -/
def crc32c (l : List Byte) : Nat :=
  Nat.xor (l.foldl (fun c b => crcStep 8 (Nat.xor c b.toNat)) 0xFFFFFFFF) 0xFFFFFFFF

end Sys2Proof.Machine
end

