-- ==== Sys2Proof/Machine/RecordLog.lean ====
section
/-! DEFINITION. The record log: log records, marks and packet groups (R363 to R365), and the wire form of a runner
message (Table 9.2). -/

namespace Sys2Proof.Machine

/-- The header of a message with an E2E field (Table 9.2). Its reserved bits DEST[15:13] and SRC[14:13] hold how many
bytes of the last unit of data count, 0 for all. (DESIGN CHOICE, log 181.) -/
def wireHeader (m : RunMsg) (e2e : Nat) : List Byte :=
  let k := m.data.length % 32
  let ctl := m.vc % 8 + (m.dateline % 2) * 8 + b2n m.ext.isSome * 16 + b2n m.ackReq * 32
  toBytes 1 m.opc ++ toBytes 1 ctl ++ toBytes 2 (m.dest % 2 ^ 13 + (k % 8) <<< 13)
    ++ toBytes 2 (m.src % 2 ^ 13 + (k / 8) <<< 13)
    ++ toBytes 2 ((m.data.length + 31) / 32 % 256 + (m.stream % 256) * 256)
    ++ toBytes 8 (m.addr % 2 ^ 48 + (m.ring % 64) <<< 48 + (m.hi % 1024) <<< 54) ++ toBytes 8 m.poison.toNat
    ++ toBytes 4 e2e ++ toBytes 4 m.seq

/-- The extension and the data, in 32-byte units. -/
def wireBody (m : RunMsg) : List Byte :=
  (match m.ext with
    | some e => toBytes 32 e.toNat
    | none => []) ++ m.data ++ toBytes ((32 - m.data.length % 32) % 32) 0

/-- A message as it is received, with its end-to-end CRC (R293). -/
def wireBytes (m : RunMsg) : List Byte :=
  wireHeader m (crc32c (wireHeader m 0 ++ wireBody m)) ++ wireBody m

/-- A device error log of a kind that Table 14.6 does not list: TYPE is some value of 0x40 to 0x5F. (DESIGN
CHOICE, log 58; DEDUCED, log 179.) -/
def errLogOther (source : Nat) (s : State) : State :=
  let d := s.draw
  errLog (0x40 + d.1.toNat % 32) source 0 d.2

/-- The device is recording. -/
def recording (s : State) : Bool := s.fld Reg.rrCtl 1 0 == 1 && s.fld Reg.rrStatus 3 0 == 1

/-- Units of 32 bytes that a record takes, with its header. -/
def LogRec.units (r : LogRec) : Nat := (16 + r.body.length + 31) / 32

/-- The writer puts one record into the log region (Table 11.8): one that does not fit stops recording, or goes to the
region's start. (DESIGN CHOICE, log 59.) -/
def writeRecord (r : LogRec) (s : State) : State :=
  if recording s = false then s
  else
    let size := s.fld Reg.rrSize 15 0 * 65536
    let pos := (s.reg Reg.rrPos).toNat
    let fits := pos + r.units ≤ size
    if fits = false ∧ (s.flag Reg.rrCtl 4 = false ∨ size < r.units) then errLogOther 0x900 (s.setFld Reg.rrStatus 3 0 3)
    else
      let pos := if fits then pos else 0
      let base := s.fld Reg.rrBaseHi 15 0 * 2 ^ 32 + s.fld Reg.rrBaseLo 31 21 * 2 ^ 21
      let bytes := toBytes 1 r.kind ++ toBytes 1 r.flags ++ toBytes 2 r.units ++ toBytes 4 s.rrSeq.toNat
        ++ toBytes 6 (beatOf r.beat) ++ toBytes 2 (epochOf r.beat) ++ r.body
      let bytes := bytes ++ toBytes (32 * r.units - bytes.length) 0
      let s := storeBytes (base + 32 * pos) bytes s
      { s.setReg Reg.rrPos (BitVec.ofNat 32 (pos + r.units)) with rrSeq := s.rrSeq + 1 }

/-- The writer takes every record of the port buffers, in order of arrival. (DESIGN CHOICE, log 59.) -/
def drainLog (s : State) : State := forEach writeRecord s.rrQueue { s with rrQueue := [] }

/-- Bytes that a port's records take of its buffer. -/
def portBytes (s : State) (p : Nat) : Nat := ((s.rrQueue.filter fun r => r.port == p).map fun r => 32 * r.units).sum

/-- A record enters its port's buffer of 64 KiB, `more` units ahead of it counted, or is lost (R365). What comes from no
port goes to the writer itself. -/
def portPut (more : Nat) (r : LogRec) (s : State) : State :=
  if r.port < 17 ∧ 65536 < portBytes s r.port + 32 * (more + r.units) then
    { s with rrLost := Tab.modify 0 s.rrLost r.port (· + 1) }
  else { s with rrQueue := s.rrQueue ++ [r] }

/-- A MARK record (Table 11.7). -/
def markRec (s : State) (port reason lost : Nat) : LogRec :=
  { port := port, kind := 7, flags := 0, beat := s.copyOf (ctrlDie s), body := toBytes 1 reason ++ toBytes 3 0 ++ toBytes 4 lost }

/-- The GROUP record of an open packet group (R364). -/
def groupRec (key : Nat) (g : Group) : LogRec :=
  { port := key / 8, kind := 3, flags := 0, beat := g.last,
    body := toBytes 1 (key / 8) ++ toBytes 1 (key % 8) ++ toBytes 2 g.count ++ toBytes 4 g.bytes ++ toBytes 6 (beatOf g.first)
      ++ toBytes 2 0 ++ sha256 g.content }

/-- Every open group closes at a MARK (R364). -/
def closeGroups (s : State) : State :=
  forEach (fun e s => portPut 0 (groupRec e.1 e.2) s) s.rrGroups { s with rrGroups := [] }

/-- An input is recorded: after a loss at its port, the record follows a MARK with REASON RESUMED and the number of
records lost (R365). -/
def logPut (r : LogRec) (s : State) : State :=
  if recording s = false then s
  else
    let lost := Tab.get 0 s.rrLost r.port
    if lost = 0 then portPut 0 r s
    else
      let t := portPut 1 r s
      if Tab.get 0 t.rrLost r.port = lost then
        let s := closeGroups s
        let s := portPut 0 (markRec s r.port 3 lost) s
        portPut 0 r { s with rrLost := Tab.erase s.rrLost r.port }
      else t

/-- Records an input of a port with its arrival. -/
def logRecord (port kind flags : Nat) (b : W64) (body : List Byte) (s : State) : State :=
  logPut { port := port, kind := kind, flags := flags, beat := b, body := body } s

/-- A packet group closes into a GROUP record (R364). -/
def closeGroup (key : Nat) (s : State) : State :=
  let g := Tab.get {} s.rrGroups key
  if g.count = 0 then s else logPut (groupRec key g) { s with rrGroups := Tab.erase s.rrGroups key }

/-- Writes a MARK, which closes every open group (R364, R365). -/
def logMark (reason lost : Nat) (s : State) : State :=
  if recording s = false then s
  else
    let s := closeGroups s
    logPut (markRec s 17 reason lost) s

/-- A runner message arrives while the device records (Table 11.7): its arrival is its runner die's stamp. -/
def logRunner (l : Nat) (m : RunMsg) (s : State) : State :=
  if recording s = false then s
  else
    let w := wireBytes m
    let b := s.copyOf (56 + l / 4)
    if s.flag Reg.rrVcMask (m.vc % 8) then
      logRecord l 2 (b2n (m.poison != 0)) b (toBytes 1 l ++ toBytes 15 0 ++ w) s
    else
      let key := 8 * l + m.vc % 8
      let g := Tab.get {} s.rrGroups key
      let g : Group :=
        { first := if g.count = 0 then b else g.first, last := b, count := g.count + 1,
          bytes := g.bytes + m.data.length, content := g.content ++ w }
      let s : State := { s with rrGroups := Tab.set {} s.rrGroups key g }
      if 256 ≤ g.count ∨ 2 ^ 20 ≤ g.bytes then closeGroup key s else s

end Sys2Proof.Machine
end

