-- ==== Sys2Proof/Machine/EscArbiter.lean ====
section
/-! DEFINITION. The completion arbiter (R281 to R283): the DETAIL of each command, what ends its engine's work, aborts,
and the abort flood (R299, R452, R453). -/

namespace Sys2Proof.Machine

/-! ## DISPATCH (R190) -/

/-- The status of a trap cause (Table 5.5). -/
def trapStatus (cause : Nat) : Nat :=
  if cause < 0x10 then 0x15 else if cause < 0x18 then 0x16 else if cause = 0x18 then 0x17 else 0x18

/-- The NONFINITE or FLUSHED sum over the cores of a dispatch. -/
def dispSum (s : State) (d : Disp) (f : Core → W32) : Nat := (d.started.map fun c => (f (s.core c)).toNat).sum

/-- The sticky flags of a dispatch as CQE FLAGS[11:8]. -/
def dispFlags (s : State) (d : Disp) : Nat :=
  let any (f : Core → Bool) : Nat := b2n (d.started.any fun c => f (s.core c))
  256 * any (·.nv) + 512 * any (·.ov) + 1024 * any (·.sat) + 2048 * any (·.nanIn)

/-- The status a dispatch has earned (R190). -/
def dispStatus (s : State) (d : Disp) : Nat :=
  match d.trap, d.fault with
  | some t, _ => trapStatus t.1
  | none, some _ => 0x18
  | none, none => if dispSum s d (·.nonfinite) ≠ 0 then 0x04 else 0x00

/-- DETAIL and FLAGS of a DISPATCH that completes with a status (Table 8.9). -/
def dispDetail (s : State) (d : Disp) (status : Nat) : Nat × Nat :=
  let c (n : Nat) : Nat := if s.sealed then coarseN n else n
  let sat (n : Nat) : Nat := min (c n) 0xFFFFFF
  let why : Nat × Nat := match d.trap, d.fault with
    | some t, _ => if status = trapStatus t.1 then t else (0, 0)
    | none, some k => if status = 0x18 then (0x20, k) else (0, 0)
    | none, none => (0, 0)
  (sat (dispSum s d (·.nonfinite)) + sat (dispSum s d (·.flushed)) <<< 24 + why.1 <<< 48 + why.2 <<< 56,
    dispFlags s d + 2 * b2n d.det + (if s.sealed then 16 else 0))

/-- The cores of a dispatch belong to none. -/
def releaseCores (uid : Nat) (s : State) : State :=
  let s := forEach (fun c s => s.modCore c fun k => if k.disp = some uid then { k with disp := none } else k)
    (s.disp uid).started s
  { s with disps := Tab.erase s.disps uid }

/-! ## What a command's completion carries, and the end of its work -/

/-- DETAIL and FLAGS of a command that ends with a status before its own work has (Table 8.9). -/
def endDetail (s : State) (c : Cmd) (status : Nat) : Nat × Nat :=
  match Cb.opcode c.body with
  | 0x01 => dispDetail s (s.disp c.uid) status
  | 0x02 => (c.written % 2 ^ 48, 0)
  | 0x03 =>
    match s.coll c.uid, recOfCmd s c.uid with
    | some k, _ =>
      let d := collDetail s 0 k.unsent (k.raised.map (·.2)).sum 0 k.nonfinite
      (d.1, d.2 + 2 * b2n k.desc.det)
    | none, some red =>
      let d := recDetail s red
      (d.1, d.2 + 2 * b2n (s.recOf red).det)
    | none, none => (0, 0)
  | 0x05 => ((s.event (Cb.event c.body)).toNat, 0)
  | _ => (0, 0)

/-- The engine of a command stops (R189, R266, R282, R306, R314). -/
def stopWork (r : Nat) (c : Cmd) (s : State) : State :=
  match Cb.opcode c.body with
  | 0x01 => forEach stopCore (s.disp c.uid).started s
  | 0x03 =>
    match recOfCmd s c.uid with
    | some red => dropRec red s
    | none => (stopSends r c.seq s).dropColl c.uid
  | 0x06 => withdrawBar c.uid s
  | 0x08 | 0x09 | 0x0B => s.modRing r fun k => { k with skip := none }
  | _ => s

/-- The arbiter ends a running command with a status: it is stopped, then committed, and a DISPATCH frees its cores. -/
def endCommand (ext : Ext) (r : Nat) (c : Cmd) (status : Nat) (s : State) : State :=
  let d := endDetail s c status
  let s := commit ext r c status d.1 d.2 (stopWork r c s)
  if Cb.opcode c.body = 0x01 then releaseCores c.uid s else s

/-- Ends every running command of a ring that a test accepts, in order of admission. -/
def endCommands (ext : Ext) (r status : Nat) (p : Cmd → Bool) (s : State) : State :=
  forEach (fun c s => endCommand ext r c status s) ((s.ring r).running.filter p) s

/-! ## Aborts (R281, R282) -/

/-- The first number of a ring itself that has not been admitted. -/
def nextOnRing (s : State) (r : Nat) : W32 :=
  if (s.ring r).pos.inBuf then (s.ring r).pos.seq + 1 else (s.ring r).pos.seq

/-- Numbers from one up to another that no earlier abort has discarded. -/
def stillThere (k : Ring) (a b : W32) : Nat :=
  let n := (b - a).toInt
  let rel (x : W32) : Int := max 0 (min n (x - a).toInt)
  (n - (k.cuts.map fun c => rel c.2 - rel c.1).sum).toNat

/-- A command of a ring that an abort by number covers: the named one and every later one; none names every command. -/
def covered (seq : Option W32) (x : W32) : Bool :=
  match seq with
  | none => true
  | some q => x == q || precedes q x

/-- Discards the covered commands of a ring not yet admitted, and closes covered frames; where there are any, one completion
entry with free SEQ and OPCODE records the number (R282). RING_NEXT moves to RING_TAIL: at once, or behind the commands ahead of the named
one, which stay. (DEDUCED, log 57.) -/
def discardRest (ext : Ext) (r status : Nat) (from_ : Option W32) (s : State) : State :=
  let k := s.ring r
  let tail := s.reg (Reg.ringTail r)
  let next := nextOnRing s r
  let start := match from_ with
    | some q => if precedes next q then q else next
    | none => next
  let inBuf := k.pos.inBuf && covered from_ k.pos.seq
  let ahead := precedes start tail
  let left := (if ahead then stillThere k start tail else 0) + (if inBuf then k.pos.entries - k.pos.idx else 0)
  let s := s.modRing r fun k =>
    let k := { k with frames := k.frames.filter fun f => !covered from_ f.cmd.seq, doomed := k.doomed.filter fun q => !covered from_ q }
    if inBuf = true ∨ (k.pos.inBuf = false ∧ start = next) then { k with pos := { seq := tail }, cuts := [] }
    else { k with cuts := k.cuts ++ (if ahead then [(start, tail)] else []) }
  if left = 0 then s
  else
    let d := s.draw
    let seq : W32 := d.1.setWidth 32
    let op := bits d.1.toNat 39 32
    let replayed := b2n (s.flag Reg.beatStatus 2)
    let e := mkCqe seq status op (replayed <<< 2) s.beat 0 0 0 left
    haltErr r status seq (cqPush ext r { entry := e, ext := none, irq := false } (mwNote d.2))

/-- A command with this number is waiting to be admitted. -/
def isWaiting (s : State) (r : Nat) (seq : W32) : Bool :=
  let next := nextOnRing s r
  (next == seq || precedes next seq) && precedes seq (s.reg (Reg.ringTail r)) && stillThere (s.ring r) seq (seq + 1) != 0

/-- Writes RING_ABORT_STATUS: 0 stands for NO_MATCH. -/
def abortStatus (r result : Nat) (s : State) : State :=
  s.setReg (Reg.ringAbortStatus r) (BitVec.ofNat 32 (2 ^ 31 + (if result = 0 then 256 else result)))

/-- What RING_ABORT_STATUS reports of the named command (R281). -/
def abortAnswer (s : State) (r : Nat) (seq : W32) : Nat :=
  if cmdsAt s r seq ≠ [] ∨ isWaiting s r seq = true then 0x10
  else if (s.ring r).done.contains seq then 0x05
  else 0

/-- An abort by mode: 0 the named command, 1 it and every later one, 2 every command. -/
def abortRing (ext : Ext) (r mode : Nat) (seq : W32) (status : Nat) (s : State) : State :=
  match mode with
  | 0 =>
    let waiting := isWaiting s r seq
    let s := endCommands ext r status (fun c => c.seq == seq) s
    if waiting = true ∧ (s.ring r).doomed.contains seq = false then s.modRing r fun k => { k with doomed := k.doomed ++ [seq] } else s
  | 1 => discardRest ext r status (some seq) (endCommands ext r status (fun c => covered (some seq) c.seq) s)
  | _ => discardRest ext r status none (endCommands ext r status (fun _ => true) s)

/-- A host abort (R281, R282): RING_ABORT names the command. (DEDUCED, log 86.) -/
def hostAbort (ext : Ext) (r mode : Nat) (s : State) : State :=
  if mode = 3 ∨ 64 ≤ r then s
  else
    let seq := s.reg (Reg.ringAbort r)
    let a := abortAnswer s r seq
    let s := if a = 0x05 then s.count 0x033 1 else s
    let s := abortStatus r a s
    let enabled := (s.ring r).state != .disabled
    if enabled then abortRing ext r mode seq 0x10 s else s

/-- Every ring is aborted with MODE 2 and a status (R283, R374). -/
def abortEvery (ext : Ext) (status : Nat) (s : State) : State :=
  forEach (fun r s => if (s.ring r).state = .disabled then s else abortRing ext r 2 0 status s) allRings s

/-! ## The abort flood (R299, R452, R453) -/

/-- The FLOOD value goes into every frame header for the next 2 µs. -/
def relayFlood (job serial : Nat) (s : State) : State :=
  { s with floodOut := some (job, serial, s.beat), floodsSeen := seen16 (job, serial) s.floodsSeen }

/-- A flood of the device's job is applied (R283, R453). -/
def applyFlood (ext : Ext) (origin : Bool) (job serial port : Nat) (s : State) : State :=
  let s := s.setReg Reg.runFloodStatus
    (BitVec.ofNat 32 (job + serial <<< 16 + port <<< 24 + b2n origin <<< 30 + 2 ^ 31))
  let s : State := { (s.setFlag Reg.rsrStatus 5).setFlag Reg.rsrStatus 6 with quietSince := s.beat }
  abortEvery ext 0x11 s

/-- The device begins a flood for its job, by the item of R452. (DEDUCED, log 115.) -/
def beginFlood (ext : Ext) (cause : Nat) (s : State) : State :=
  let job := s.fld Reg.runJob 15 0
  if job = 0 then s
  else
    let s : State := { s with floodSerial := s.floodSerial + 1 }
    let serial := s.floodSerial.toNat
    let s := relayFlood job serial s
    let s := logRecord 17 4 0 s.beat (toBytes 2 job ++ toBytes 1 serial ++ toBytes 13 0) s
    let s := errLog 0x47 0x900 (cause <<< 8 + job <<< 16 + serial <<< 32) s
    applyFlood ext true job serial 0 s

/-- A flood value arrives in a frame header: an unseen one is relayed, and applied when it names this job. -/
def floodArrives (ext : Ext) (port job serial : Nat) (s : State) : State :=
  if s.floodsSeen.contains (job, serial) then s
  else
    let s := relayFlood job serial s
    let l := (linkOfPort s port).getD 17
    let s := logRecord l 4 0 (s.copyOf (56 + l % 16 / 4)) (toBytes 2 job ++ toBytes 1 serial ++ toBytes 1 port ++ toBytes 12 0) s
    if job = s.fld Reg.runJob 15 0 ∧ job ≠ 0 then
      let s := errLog 0x47 0x900 (1 + job <<< 16 + serial <<< 32) s
      applyFlood ext false job serial port s
    else s

/-- An uncontained fault (R433): FAULTED is set, FAULT_N is driven low, a log is posted, and a flood begins. -/
def uncontained (ext : Ext) (item die : Nat) (s : State) : State :=
  let s : State := { s.setFlag Reg.rsrStatus 1 with boot := { s.boot with faultN := true } }
  beginFlood ext 2 (errLog 0x49 0x900 (item + die <<< 8) s)

/-- A command's limit has passed (R275): it ends with TIMEOUT, and a flood may begin (R452). -/
def timeoutCommand (ext : Ext) (r : Nat) (c : Cmd) (s : State) : State :=
  let s := endCommand ext r c 0x12 s
  let marked := if r < 32 then s.flag Reg.rsrToRingsLo r else s.flag Reg.rsrToRingsHi (r - 32)
  if s.flag Reg.rsrCtl 1 = true ∧ marked = true then beginFlood ext 1 s else s

/-! ## Resets of the Escapement and the engines (R261, R449, Table 14.4) -/

/-- A compute reset's effect on rings: disabled, counts at 0, no completion entries. -/
def resetRing (r : Nat) (s : State) : State :=
  let s := s.clearFlag (Reg.ringCtl r) 0
  let s := forEach (fun o s => s.setReg o 0)
    [Reg.ringTail r, Reg.ringCqHead r, Reg.ringCqTail r, Reg.ringShadowHead r, Reg.ringShadowTail r] s
  s.modRing r fun _ => {}

/-- Every record owned here is closed without close work; pending ones are given up (Table 14.4). -/
def closeAllRecs (s : State) : State :=
  forEach (fun red s => s.modRec red fun r =>
    { r with state := if r.state = .absent then .absent else .closed, held := [], ready := [] }) (s.recs.map (·.1)) s

end Sys2Proof.Machine
end

