-- ==== Sys2Proof/Machine/RegGate.lean ====
section
/-! DEFINITION. What every register access passes before it reaches its register: presence, access class, the limits of
a seal and of a wipe, and the posted-write rule (R10, R11, R247 to R252, R380, R393, R397, R426). -/

namespace Sys2Proof.Machine

/-- A core id is in service (GLB_CORE_MAP). -/
def coreInService (s : State) (c : Nat) : Bool := c < 256 && s.flag (Reg.glbCoreMap (c / 32)) (c % 32)

/-- The requester's class as DENY_ADDR.CLASS gives it (Table 12.2): 0 O, 1 P, 2 S. -/
def classOf (s : State) : Requester → Nat
  | .sprue k => if k then 1 else 0
  | .mgmt => 1
  | .secure => 2
  | .ring r => if ringPriv s r then 1 else 0
  | .chain => 1
  | .debug => 1

/-- A register class as a number. -/
def Cls.rank : Cls → Nat
  | .o => 0
  | .p => 1
  | .s => 2

/-- The life-cycle states (Table 13.1): 0 Blank, 1 Test, 2 Provisioned, 3 Owned, 4 Retired. -/
def lifecycle (s : State) : Nat := s.fld Reg.glbState 10 8

/-- The debug port has a scope: every one in Blank, Test and Retired, otherwise the unlocked ones (Table 12.11). -/
def debugScope (s : State) (bitNo : Nat) : Bool :=
  if lifecycle s = 2 ∨ lifecycle s = 3 then s.dbg.unlocked && s.dbg.scope.getLsbD bitNo else true

/-- A requester reaches registers of a class (R10); the debug port only with the MEMORY scope (Table 12.12). -/
def admits (s : State) (rq : Requester) (c : Cls) : Bool :=
  c.rank ≤ classOf s rq && (rq != .debug || debugScope s 1)

/-- A register lies at an offset, as the device shows it now (R248): the CORE block of a core out of service reads as
unmapped (R426), and so do the offsets of Assay's part of class S that no table names. (DESIGN CHOICE, log 187.) -/
def regPresent (s : State) (off : Nat) : Option RegDesc :=
  match regAt off with
  | none => none
  | some d =>
    if 0x1000000 ≤ off ∧ off < 0x2000000 ∧ coreInService s ((off - 0x1000000) / 0x10000) = false then none else some d

/-- A full or seal wipe runs (R393); a wipe of the Crucible alone holds accesses instead (R88). -/
def wipeRuns (s : State) : Bool :=
  match s.wiping with
  | none => false
  | some .cru => false
  | some _ => true

/-- The start of a register block of Table 7.14. -/
def blockOf (off : Nat) : Nat :=
  if off < 0x100000 then 0
  else if off < 0x200000 then 0x100000
  else if off < 0x300000 then 0x200000
  else if off < 0x400000 then 0x300000
  else if off < 0x600000 then 0x400000
  else if off < 0x800000 then 0x600000 + (off - 0x600000) / 0x40000 * 0x40000
  else if off < 0xA00000 then 0x800000
  else if off < 0xC00000 then 0xA00000
  else if off < 0xD00000 then 0xC00000
  else if off < 0xE00000 then 0xD00000
  else if off < 0x1000000 then 0xE00000
  else 0x1000000

/-- During a full or seal wipe only reads of GLOBAL and of BEAT and MBX are served (R393). (DEDUCED, log 62.) -/
def wipeDenies (s : State) (off : Nat) (write : Bool) : Bool := wipeRuns s && (write || 0x200000 ≤ off)

/-- The Sprue carries messages: its training has reached UP and it has not been lost (SPR_STATUS.WIDTH). -/
def sprUp (s : State) : Bool := s.sprCarries

/-- The requester's access came over the Sprue. -/
def isSprue : Requester → Bool
  | .sprue _ => true
  | _ => false

/-- Before FW_START ends the Sprue reads only GLOBAL and BEAT and MBX, and writes no register (R460). (DEDUCED,
log 94.) -/
def bootDenies (s : State) (rq : Requester) (off : Nat) (write : Bool) : Bool :=
  isSprue rq && !s.boot.fwStarted && (write || 0x200000 ≤ off)

/-- The ring whose register or doorbell lies at an offset. (DEDUCED, log 72.) -/
def ringAt (off : Nat) : Option Nat :=
  if 0x210000 ≤ off ∧ off < 0x214000 then some ((off - 0x210000) / 0x100)
  else if 0x280000 ≤ off ∧ off < 0x2C0000 then some ((off - 0x280000) / 0x1000)
  else none

/-- The registers of Table 12.6, and RR_CTL with a MODE other than OFF. GLB_XLAT_CMD is not among them: its request
completes with ERR 5. (DEDUCED, log 72.) -/
def sealedReg (s : State) (off : Nat) (v : W32) : Bool :=
  (match ringAt off with
   | some r => isJobRing s r && off != Reg.ringAbort r && off != Reg.ringAbortCtl r && off != Reg.ringCmd r
   | none => false)
  || (off == Reg.escEvtHi && !slotExternal s (s.fld Reg.escEvtSel 11 0))
  || (0x200200 ≤ off && off < 0x200400) || off == Reg.escChainLo || off == Reg.escChainHi
  || off == Reg.escShadowBaseLo || off == Reg.escShadowBaseHi
  || (0x300000 ≤ off && off < 0x400000)
  || (0x400000 ≤ off && off < 0x600000 && off != Reg.cruWipe)
  || off == Reg.sprApCtl || off == Reg.sprApBase
  || off == Reg.runJob || off == Reg.runJobSet || (0x900400 ≤ off && off < 0x900480) || (0x900800 ≤ off && off < 0x900840)
  || (0x2000100 ≤ off && off < 0x2000300 && off % 0x40 ≤ 0x14 && off % 0x40 != 8)
  || (off == Reg.rrCtl && v.toNat % 4 != 0)

/-- A requester is the Sprue or a ring that is not a job ring. -/
def isHostSide (s : State) : Requester → Bool
  | .sprue _ => true
  | .ring r => !isJobRing s r
  | _ => false

/-- The seal denies a write (R380); RR_CTL with another MODE is denied to job rings too (R390). -/
def sealDenies (s : State) (rq : Requester) (off : Nat) (v : W32) : Bool :=
  s.sealed && sealedReg s off v &&
    (isHostSide s rq || (off == Reg.rrCtl && (match rq with | .ring _ => true | _ => false)))

/-- A posted write to the block of an offset has not taken effect (R252). -/
def blockBusy (s : State) (off : Nat) : Bool :=
  s.posted.any (fun p => blockOf p.1 == blockOf off) ||
    (match blockOf off with
     | 0 => s.flag Reg.glbXlatStatus 0
     | 0x200000 => s.chain.isSome
     | 0x400000 => s.fld Reg.cruStatus 3 1 != 0
     | 0xA00000 => s.flag Reg.sprStatus 0
     | 0xC00000 => s.flag Reg.rglStatus 8
     | 0xD00000 => s.flag Reg.rsrStatus 8
     | 0xE00000 => s.flag Reg.asyStatus 0
     | _ => false)

/-! ## Accesses as they arrive -/

/-- A message of the companion as it is received (Table 7.2), with its class and privilege. (DESIGN CHOICE, log
151.) -/
def sprueWire (cls : Nat) (kernel : Bool) (q : SprIn) (status : Nat) (st : Coherence) (hasMask hasData : Bool) : List Byte :=
  let stn := match st with
    | .i => 0
    | .s => 1
    | .e => 2
    | .m => 3
  toBytes 1 q.opc ++ toBytes 1 (cls + 4 * b2n kernel + 8 * b2n hasData + 16 * b2n hasMask) ++ toBytes 2 q.tag
    ++ toBytes 1 status ++ toBytes 1 stn ++ toBytes 2 0 ++ toBytes 8 q.addr
    ++ (if hasMask then toBytes 16 q.mask.toNat else []) ++ (if hasData then toBytes 64 q.data.toNat else [])

/-- The record log and the counters take a message of the companion (Tables 11.4 and 11.7). (DESIGN CHOICE, log
73.) -/
def sprueSeen (kernel : Bool) (q : SprIn) (status : Nat) (st : Coherence) (hasMask hasData : Bool) (s : State) : State :=
  let w := sprueWire (State.sprClass q.opc) kernel q status st hasMask hasData
  let s := s.count 0x181 ((w.length + 63) / 64)
  let s := if q.opc = 0x21 ∨ q.opc = 0x22 then s.count 0x185 1 else s
  logRecord 16 1 (b2n (status == 3)) (s.copyOf 62) w s

/-- The device is replaying (R366). -/
def replaying (s : State) : Bool := s.flag Reg.beatStatus 2

/-- In replay the companion reaches only GLOBAL, BEAT and MBX, and COUNTERS and TRACE, with kernel privilege (R366).
(DEDUCED, log 152.) -/
def replayDenies (s : State) (rq : Requester) (off : Nat) : Bool :=
  isSprue rq && replaying s && !(classOf s rq == 1 && (off < 0x200000 || 0x2000000 ≤ off))

/-- A register access of the companion arrives as a REG_RD or REG_WR message (Table 7.2): bytes 8 to 11 hold the
offset, and bytes 12 to 15 a written value. (DEDUCED, log 145.) -/
def regSeen (rq : Requester) (opc tag off v : Nat) (s : State) : State :=
  match rq with
  | .sprue k => sprueSeen k { opc := opc, tag := tag, addr := off % 2 ^ 32 + v <<< 32 } 0 .i false false s
  | _ => s

/-- The registers' pop ports take no 32-bit access, and an access at another alignment is none of a register (R73,
R247). (DEDUCED, log 146.) -/
def badSize (off : Nat) : Bool := off % 4 != 0 || (0x310000 ≤ off && off < 0x310800)

/-- A register write at its port (R11, R247, R248, R252): unless it is dropped or denied, `go` performs it.
(DEDUCED, log 147.) -/
def writeAccess (rq : Requester) (off : Nat) (v : W32) (go : State → State) (s : State) : State :=
  if badSize off then s.setFlag Reg.glbAccessStatus 2
  else match regPresent s off with
  | none => s.setFlag Reg.glbAccessStatus 3
  | some d =>
    if wipeDenies s off true || bootDenies s rq off true || !admits s rq d.cls || sealDenies s rq off v then
      deny (classOf s rq) (isSprue rq) true true off s
    else if d.rwp != 0 && blockBusy s off then s.setFlag Reg.glbAccessStatus 4
    else go s

/-- A register write of a requester. Nothing arrives over a Sprue that is down, and a replaying device drops what it
does not serve. -/
def writeGate (rq : Requester) (off : Nat) (v : W32) (go : State → State) (s : State) : State :=
  if isSprue rq && !sprUp s then s
  else
    let s := regSeen rq 0x15 0 off v.toNat s
    if replayDenies s rq off then s else writeAccess rq off v go s

/-- A register read at its port (R11, R247, R248): unless it is denied, `go` performs it; otherwise it returns
zero. -/
def readAccess (rq : Requester) (off : Nat) (go : State → W32 × State) (s : State) : W32 × State :=
  if badSize off then (0, s.setFlag Reg.glbAccessStatus 2)
  else match regPresent s off with
  | none => (0, s.setFlag Reg.glbAccessStatus 3)
  | some d =>
    if wipeDenies s off false || bootDenies s rq off false || !admits s rq d.cls then
      (0, deny (classOf s rq) (isSprue rq) false true off s)
    else go s

/-- A register read is performed, and answered to the companion. -/
def readAnswer (rq : Requester) (tag off : Nat) (go : State → W32 × State) (s : State) : State :=
  let no := replayDenies s rq off
  let r := if no then (0, s) else readAccess rq off go s
  let s : State := { r.2 with rdata := r.1.setWidth 256 }
  if isSprue rq then s.sprSend { opc := 0x32, tag := tag, status := if no then 2 else 0, addr := r.1.toNat } else s

/-- A register read of a requester: the value goes to `rdata`, and the companion gets it in bytes 8 to 11 of an answer
under its tag (Table 7.2), with STATUS ACCESS where replay refuses the request. (DESIGN CHOICE, log 13; DEDUCED,
log 145.) -/
def readGate (rq : Requester) (tag off : Nat) (go : State → W32 × State) (s : State) : State :=
  if isSprue rq && !sprUp s then s
  else readAnswer rq tag off go (regSeen rq 0x14 tag off 0 s)

/-- A command that names the `n`-th of `lim` things; there is no other. (DESIGN CHOICE, log 2.) -/
def within (n lim : Nat) (go : State → State) (s : State) : State := if n < lim then go s else s


end Sys2Proof.Machine
end

