-- ==== Sys2Proof/Machine/EscRegs.lean ====
section
/-! DEFINITION. What the Escapement's registers do (R257 to R261, R263, R268, R276, R281, R282, R285, R286, R378,
Tables 8.13 to 8.16). -/

namespace Sys2Proof.Machine

/-- The code of a ring state (Table 8.1). -/
def RingState.code : RingState → Nat
  | .disabled => 0
  | .active => 1
  | .paused => 2
  | .haltedErr => 3
  | .haltedCq => 4

/-! ## Computed registers -/

/-- RING_STATUS (Table 8.15). -/
def ringStatus (s : State) (r : Nat) : W32 :=
  let k := s.ring r
  BitVec.ofNat 32
    (k.state.code + k.frames.length <<< 4 + (b2n (blocked s r)) <<< 8 + (b2n (!k.waitCq.isEmpty)) <<< 9
      + k.running.length <<< 16)

/-- ESC_STATUS (Table 8.14). -/
def escStatus (s : State) : W32 :=
  let busy := s.chain.isSome || s.posted.any fun p => blockOf p.1 == 0x200000
  (s.reg Reg.escStatus &&& ~~~3#32) ||| BitVec.ofNat 32 (b2n busy + 2 * b2n s.mwSince.isSome)

/-! ## Ring registers -/

/-- Sets a bit of RING_ERR. -/
def ringErr (r b : Nat) (s : State) : State := s.setFlag (Reg.ringErr r) b

/-- An address lies in device memory (HBM or Crucible scratch). -/
def inDevice (s : State) (va : Nat) : Bool :=
  match translate s .read va with
  | some (pa, _) => pa < 0x020000000000
  | none => false

/-- An address lies in a sealed range of the companion window. -/
def inSealed (s : State) (va : Nat) : Bool :=
  match translate s .read va with
  | some (pa, _) => s.inSealedRange pa
  | none => false

/-- An address lies in the companion window outside the sealed ranges. -/
def inOpenWindow (s : State) (va : Nat) : Bool :=
  match translate s .read va with
  | some (pa, _) => 0x100000000000 ≤ pa && pa < 0x200000000000 && !s.inSealedRange pa
  | none => false

/-- The tail word's address. (DEDUCED, log 82.) -/
def tailWord (s : State) (r : Nat) : Nat := s.fld (Reg.ringTailptrHi r) 15 0 * 2 ^ 32 + s.fld (Reg.ringTailptrLo r) 31 3 * 8

/-- The addresses of a ring keep the rule of R378. -/
def ringPlaceOk (s : State) (r : Nat) (tailSrc : Bool) : Bool :=
  !s.sealed ||
    (if isJobRing s r then
       ([ringBase s r, cqBase s r] ++ (if tailSrc then [tailWord s r] else [])).all
         (fun a => inDevice s a || inSealed s a)
     else inOpenWindow s (ringBase s r))

/-- The device is READY (GLB_STATE.BOOT_STATE, Table 15.2). -/
def isReady (s : State) : Bool := s.fld Reg.glbState 3 0 == 0xD

/-- Ring `r` becomes ACTIVE: its counts take RING_TAIL and its completion queue starts empty (R261); entries that have
waited for room are written. -/
def enableRing (ext : Ext) (r : Nat) (s : State) : State :=
  let s := (s.setReg (Reg.ringCqHead r) 0).setReg (Reg.ringCqTail r) 0
  let s := s.modRing r fun k =>
    { state := .active, pos := { seq := s.reg (Reg.ringTail r) }, waitCq := k.waitCq, done := k.done, last := s.beat }
  mwNote (cqDeliver ext r (s.ring r).waitCq s)

/-- The bits of RING_CTL that a write may change. -/
def ringCtlBits : W32 := 0xFF1F0007

/-- A write of RING_CTL (R12, R251, R261, R378, R460). (DEDUCED, log 83.) -/
def ringCtlWrite (ext : Ext) (r : Nat) (v : W32) (s : State) : State :=
  let off := Reg.ringCtl r
  let log2 := bits v.toNat 20 16
  let on := s.flag off 0
  if log2 < 6 ∨ 16 < log2 then rangeDrop s
  else if on then
    if (s.reg off ^^^ v) &&& ringCtlBits &&& ~~~1#32 ≠ 0 ∨ (v.getLsbD 0 = false ∧ (s.ring r).running ≠ []) then ringErr r 5 s
    else if v.getLsbD 0 then s
    else mwNote ((storeReg off v s).modRing r fun k => { k with state := .disabled })
  else if v.getLsbD 0 = false then storeReg off v s
  else if ringBase s r % (2 ^ log2 * 64) ≠ 0 ∨ cqBase s r % (cqN s r * 32) ≠ 0 then rangeDrop s
  else if isReady s = false ∨ s.replay.stale = true ∨ ringPlaceOk s r (v.getLsbD 1) = false then ringErr r 5 s
  else enableRing ext r (storeReg off v s)

/-- A write of RING_BASE, RING_CQ_BASE, RING_CQ_CTL or RING_TAILPTR: only while the ring is DISABLED. (DEDUCED,
log 88.) -/
def ringFixedWrite (r off : Nat) (v : W32) (s : State) : State :=
  let log2 := bits v.toNat 20 16
  if off = Reg.ringCqCtl r ∧ (log2 < 6 ∨ 16 < log2) then rangeDrop s
  else if (s.ring r).state ≠ .disabled then ringErr r 5 s
  else storeReg off v s

/-- A new tail under the range rule of R259. Stretches that an abort discarded and RING_HEAD has passed are forgotten. -/
def takeTail (r : Nat) (v : W32) (s : State) : State :=
  let head := ringHead s r
  if ringN s r < (v - head).toNat then ringErr r 0 s
  else
    let s := s.modRing r fun k => { k with cuts := k.cuts.filter fun c => precedes head c.2 }
    let t := (freshParity (Reg.ringTail r) s).setReg (Reg.ringTail r) v
    if v = s.reg (Reg.ringTail r) then t else mwBreak t

/-- A write of RING_TAIL or DB_TAIL (R259). -/
def ringTailWrite (r : Nat) (v : W32) (s : State) : State :=
  if s.flag (Reg.ringCtl r) 1 then ringErr r 2 s else takeTail r v s

/-- The Escapement takes the tail word that has been written (R259); the Crucible may hold the read (R52, R88). -/
def tailWordTake (ext : Ext) (r : Nat) (s : State) : State :=
  if s.flag (Reg.ringCtl r) 1 = false ∨ (s.ring r).state = .disabled then s
  else if cruHolds s then hold (.tail r) s
  else
    match escRead (hostRing s r) ext (tailWord s r) 8 s with
    | (.ok l, s) => takeTail r (BitVec.ofNat 32 (ofBytes l)) s
    | (.error _, s) => s

/-- The COMPLETION_UNDELIVERABLE entry (Table 8.9); its sequence number and opcode are free values. (DEDUCED, log
84.) -/
def markerCqe (r : Nat) (s : State) : Cqe × State :=
  let d := s.draw
  let k := s.ring r
  let replayed := b2n (s.flag Reg.beatStatus 2)
  let e := mkCqe (d.1.setWidth 32) 0x19 (bits d.1.toNat 39 32) (replayed <<< 2) s.beat 0 0 0
    (k.kept % 2 ^ 16 + k.lastKept.toNat <<< 16)
  ({ entry := e, ext := none, irq := false }, d.2)

/-- An accepted RESUME from HALTED_CQ writes the COMPLETION_UNDELIVERABLE entry once there is room; the ring then
returns to ACTIVE, or stays in HALTED_CQ when the write fails (R285). -/
def resumeCq (ext : Ext) (r : Nat) (s : State) : State :=
  let m := markerCqe r s
  if (s.ring r).marker = false ∨ cqRoom s r m.1 = false ∨ cruHolds s = true then s
  else
    match cqWrite ext r m.1 m.2 with
    | (.ok _, s) =>
      let s := s.setReg (Reg.ringCqTail r) (s.reg (Reg.ringCqTail r) + 1)
      mwNote (s.modRing r fun k => { k with state := .active, marker := false, kept := 0, lastKept := 0, fault := 0 })
    | (.error _, s) => s.modRing r fun k => { k with marker := false }

/-- Writes the entries that waited, as far as there is room now. -/
def cqResume (ext : Ext) (r : Nat) (s : State) : State :=
  let s := resumeCq ext r s
  cqDeliver ext r (s.ring r).waitCq s

/-- A write of RING_CQ_HEAD or DB_CQ_HEAD: entries that waited for room are written (R278). -/
def cqHeadWrite (ext : Ext) (r : Nat) (v : W32) (s : State) : State :=
  cqResume ext r ((freshParity (Reg.ringCqHead r) s).setReg (Reg.ringCqHead r) v)

/-- A write of RING_CMD (R261, R263, R285, Table 8.15). (DEDUCED, log 86.) -/
def ringCmdWrite (ext : Ext) (r : Nat) (v : W32) (s : State) : State :=
  let k := s.ring r
  match v.toNat % 16, k.state with
  | 2, .active => mwNote (s.modRing r fun k => { k with state := .paused })
  | 1, .paused | 1, .haltedErr => mwNote (s.modRing r fun k => { k with state := .active })
  | 1, .haltedCq =>
    if s.reg (Reg.ringShadowHead r) ≠ s.reg (Reg.ringShadowTail r) then ringErr r 4 s
    else resumeCq ext r (s.modRing r fun k => { k with marker := true })
  | _, _ => ringErr r 1 s

/-- A write of RING_ABORT_CTL performs the abort (R281). -/
def ringAbortWrite (ext : Ext) (r : Nat) (v : W32) (s : State) : State := hostAbort ext r (v.toNat % 4) s

/-! ## Global registers -/

/-- A write of ESC_EVT_HI sets the selected slot (R268). -/
def evtHiWrite (v : W32) (s : State) : State :=
  let s := storeReg Reg.escEvtHi v s
  eventSet (s.fld Reg.escEvtSel 11 0) (BitVec.ofNat 64 ((s.reg Reg.escEvtLo).toNat + v.toNat * 2 ^ 32)) s

/-- A write of ESC_CHAIN_HI starts a chain (R286); its value can be read once the chain has ended (R252).
(DEDUCED, log 89.) -/
def chainStart (v : W32) (s : State) : State :=
  { s with posted := s.posted ++ [(Reg.escChainHi, v)],
           chain := some { addr := bits v.toNat 15 0 * 2 ^ 32 + s.fld Reg.escChainLo 31 6 * 64, desc := 0, start := s.beat,
                           work := .fetch } }

/-- A ring register of Table 8.15 other than those that read only is written (`off` is the register's own offset). -/
def ringRegWrite (ext : Ext) (r off : Nat) (v : W32) (s : State) : State :=
  match off - Reg.ringCtl r with
  | 0x00 => ringCtlWrite ext r v s
  | 0x0C => ringTailWrite r v s
  | 0x24 => ringCmdWrite ext r v s
  | 0x2C => ringAbortWrite ext r v s
  | 0x4C => cqHeadWrite ext r v s
  | 0x04 | 0x08 | 0x34 | 0x38 | 0x40 | 0x44 | 0x48 => ringFixedWrite r off v s
  | _ => storeReg off v s

end Sys2Proof.Machine
end

