-- ==== Sys2Proof/Machine/SprueMem.lean ====
section
/-! DEFINITION. Memory requests, aperture requests and snoops of the companion, and its answers (R52, R58, R88, R228,
R230 to R239, R379, R384). -/

namespace Sys2Proof.Machine

/-- Under seal a memory request's response is a sealed message, and so is a snoop's answer for a sealed range (R384). -/
def sealsAnswer (s : State) (q : SprIn) : Bool :=
  s.sealed && ((0x11 ≤ q.opc && q.opc ≤ 0x13)
    || ((q.opc == 0x21 || q.opc == 0x22) && s.inSealedRange (0x100000000000 + q.addr % 2 ^ 44)))

/-- Under seal a message that fails its authentication is discarded, as is a message in clear that must be a sealed one
(R384). -/
def sealBars (s : State) (mark : SealMark) (must : Bool) : Bool :=
  s.sealed && (mark == .failed || (must && mark == .clear))

/-- An authenticated sealed message advances the count of its class (R384). -/
def sealCount (mark : SealMark) (opc : Nat) (s : State) : State :=
  if s.sealed = true ∧ mark = .authentic then
    { s with spr := { s.spr with sealIn := Tab.modify 0 s.spr.sealIn (State.sprClass opc) (· + 1) } }
  else s

/-! ## Answers to requests -/

/-- A response without data. -/
def answer (q : SprIn) (status : Nat) (s : State) : State :=
  s.sprSend { opc := 0x32, tag := q.tag, status := status, trailer := sealsAnswer s q }

/-- A response with data and a granted state. -/
def answerData (q : SprIn) (status : Nat) (st : Coherence) (d : W512) (s : State) : State :=
  s.sprSend { opc := 0x31, tag := q.tag, status := status, st := st, data := some d, trailer := sealsAnswer s q }

/-- The request reads. -/
def SprIn.reads (q : SprIn) : Bool := q.opc == 0x11 || q.opc == 0x16 || q.opc == 0x17

/-- A refused request: zero data for a read. -/
def refuseReq (q : SprIn) (status : Nat) (s : State) : State :=
  if q.reads then answerData q status .i 0 s else answer q status s

/-- A refusal without a trailer: of a request that failed its authentication or was not sealed (R384). -/
def refuseClear (q : SprIn) (s : State) : State :=
  if q.reads then s.sprSend { opc := 0x31, tag := q.tag, status := 2, data := some 0 }
  else s.sprSend { opc := 0x32, tag := q.tag, status := 2 }

/-- The status of a device address for a companion memory request (R239). -/
def memStatus (s : State) (a : Nat) : Nat :=
  match place s a with
  | .scratch _ => 0
  | .hbm _ => if pageRetired s a then 4 else 0
  | .window | .regs _ | .companion _ => 2
  | .hole => 4

/-- What the Crucible and the base die report of a refused address (R51, R82). (DEDUCED, log 179.) -/
def reportRefused (a : Nat) (s : State) : State :=
  if a < 2 ^ 39 then reportRetired a s
  else if a < 0x020000000000 ∧ place s a = .window then errLogOther (0x700 + homeSlice s a) (s.setFlag Reg.cruErrStatus 3)
  else s

/-- Performs a memory request of the companion (R239). -/
def doMem (q : SprIn) (s : State) : State :=
  let st := memStatus s q.addr
  if st ≠ 0 then refuseReq q st (reportRefused q.addr s)
  else if q.opc = 0x11 then
    match readPhys {} {} q.addr 64 (settleFills s) with
    | (.ok d, s) => answerData q 0 .i (BitVec.ofNat 512 (ofBytes d)) s
    | (.error _, s) => answerData q 3 .i 0 s
  else
    let mask (i : Nat) : Bool := q.opc == 0x12 || q.mask.getLsbD i
    match storePhys {} {} mask (fun _ => q.poison) q.addr (toBytes 64 q.data.toNat) (settleFills s) with
    | (.ok _, s) => answer q 0 s
    | (.error _, s) => answer q 4 s

/-- The base die performs an aperture request (R235, R236). One outside the aperture is refused, and so is a read while a
disable drains it. (DESIGN CHOICE, log 68.) -/
def doAperture (q : SprIn) (s : State) : State :=
  let draining := s.posted.any fun p => p.1 == Reg.sprApCtl
  if inAperture s q.addr = false ∨ (draining = true ∧ q.reads = true) then refuseReq q 2 s
  else
    let base := q.addr / 64 * 64
    if pageRetired s base then refuseReq q 4 (reportRetired base s)
    else
      let grant (c : Coherence) (s : State) : State :=
        let s := setDir base c (forEach checkHbmWord (unitsOf 16 base 64) (countHbm 0 base 1 s))
        if (unitsOf 16 base 64).any s.isPoison then answerData q 3 c 0 (reportPoison base s)
        else answerData q 0 c (BitVec.ofNat 512 (ofBytes ((upFrom base 64).map s.byte))) s
      match q.opc with
      | 0x16 => grant .s s
      | 0x17 => grant .e (if (s.wline base).valid then evictLine base s else s)
      | 0x18 =>
        let s := storeBytes base (toBytes 64 q.data.toNat) (countHbm 1 base 1 s)
        let s := forEach (fun u s => s.setPoison u q.poison) (unitsOf 16 base 64) s
        answer q 0 (setDir base .i s)
      | _ => answer q 0 (setDir base .i s)

/-- A snoop of a device-held companion sector (R232, Table 7.5). -/
def doSnoop (q : SprIn) (s : State) : State :=
  let a := 0x100000000000 + q.addr % 2 ^ 44 / 64 * 64
  match sectorReq s (a / 64) with
  | some tag =>
    let mark (r : SprReq) : SprReq := { r with snooped := true }
    let s := s.modLine a fun l => if l.valid then l.setSector a .i else l
    let s : State := { s with spr := { s.spr with reqs := Tab.modify none s.spr.reqs tag (Option.map mark) } }
    s.sprSend { opc := 0x33, tag := q.tag, addr := q.addr, trailer := sealsAnswer s q }
  | none =>
    let l := s.wline a
    let st := if l.valid then l.sector a else .i
    let bad := l.sectorPoison a
    let data := if st = .m then some (if bad then 0 else l.sectorData a) else none
    let new : Coherence := if q.opc = 0x21 ∨ st = .i then .i else .s
    let s := if l.valid then s.modLine a fun l => l.setSector a new else s
    s.sprSend { opc := 0x33, tag := q.tag, status := if st = .m ∧ bad = true then 3 else 0, addr := q.addr, st := new,
                data := data, trailer := sealsAnswer s q }

/-- An aperture line has a snoop outstanding (R236). -/
def lineSnooped (s : State) (a : Nat) : Bool := s.spr.snoops.any fun m => m.line == a / 64

/-- Performs a request that is not refused, or keeps it while the Crucible, a window of its stack or a snoop of its line
holds it. -/
def performReq (q : SprIn) (s : State) : State :=
  if cruHolds s then hold (.sprue q) s
  else if 0x11 ≤ q.opc && q.opc < 0x20 && waitsStack s (q.addr / 64 * 64) 64 then hold (.sprue q) s
  else if q.opc = 0x21 ∨ q.opc = 0x22 then doSnoop q s
  else if q.opc < 0x16 then doMem q s
  else if lineSnooped s q.addr = true ∧ q.opc ≠ 0x18 then hold (.sprue q) s
  else doAperture q s

/-- An aperture request that is held. -/
def heldAperture : Held → Option SprIn
  | .sprue q => if 0x16 ≤ q.opc ∧ q.opc < 0x20 then some q else none
  | _ => none

/-- Performs the aperture requests that were held, in order; those still held stay. (DESIGN CHOICE, log 67.) -/
def releaseAperture (s : State) : State :=
  let l := s.held.filterMap heldAperture
  forEach performReq l { s with held := s.held.filter fun h => (heldAperture h).isNone }

/-- An address of the boot area (R467). -/
def inBootArea (a : Nat) : Bool := 0x010000000000 ≤ a && a < 0x010004000000

/-- What bring-up refuses: before FW_START ends, everything but kernel reads and writes of the boot area in FW_WAIT
(R460); afterwards, writes of the 4 MiB of it that firmware keeps (R467, R468). -/
def bootRefuses (s : State) (kernel : Bool) (q : SprIn) : Bool :=
  if s.boot.fwStarted then (q.opc == 0x12 || q.opc == 0x13) && 0x010000000000 ≤ q.addr && q.addr < 0x010000400000
  else !(s.fld Reg.glbState 3 0 == 5 && kernel && (q.opc == 0x11 || q.opc == 0x12) && inBootArea q.addr)

/-- A memory or aperture request arrives (R238, R239, R366, R379, R393, R460); `live` tells it from one of a replayed
log. (DEDUCED, log 94.) -/
def memRequest (live kernel : Bool) (mark : SealMark) (hasMask hasData : Bool) (q : SprIn) (s : State) : State :=
  let s := sprueSeen kernel q (3 * b2n q.poison) .i hasMask hasData s
  let aperture := 0x16 ≤ q.opc
  if (live && replaying s) || wipeRuns s || bootRefuses s kernel q then refuseReq q 2 s
  else if kernel = false then refuseReq q 2 (deny 0 true (!q.reads) false q.addr s)
  else if s.sealed = true ∧ (aperture = true ∨ mark ≠ .authentic) then
    refuseClear q (if mark = .failed then errLogOther 0x600 s else s)
  else performReq q (sealCount mark q.opc s)

/-- A snoop arrives; one that fails its authentication is discarded (R384). -/
def snoopRequest (mark : SealMark) (q : SprIn) (s : State) : State :=
  let s := sprueSeen true q 0 .i false false s
  if sealBars s mark (sealsAnswer s q) then errLogOther 0x600 s else performReq q (sealCount mark q.opc s)

/-! ## Answers of the companion -/

/-- A sector that a fill has brought serves its waiters. One that was read without a state, or for reading and snooped
meanwhile, takes no place in the window; one to be owned that was snooped is given up after them (R232). -/
def fillSector (r : SprReq) (st : Coherence) (d : W512) (poison : Bool) (s : State) : State :=
  let a := 0x100000000000 + r.addr % 2 ^ 44
  if r.opc = 0x03 ∨ (r.opc = 0x01 ∧ r.snooped = true) then
    let p : Pass := { sector := a / 64, data := d, poison := poison, cores := r.waiters }
    retryAll r.waiters { s with win := { s.win with pass := s.win.pass ++ (if r.waiters.isEmpty then [] else [p]) } }
  else
    let grant : Coherence := if st = .i then (if r.opc = 0x02 then .e else .s) else st
    let s := retryAll r.waiters (installSector a false d poison grant s)
    if r.snooped then (dropSector a s).modLine a fun l => l.setSector a .i else s

/-- A response with data (R232, R233). -/
def dataAnswer (tag status : Nat) (st : Coherence) (d : W512) (s : State) : State :=
  match Tab.get none s.spr.reqs tag with
  | none => s
  | some r =>
    let s := dropReq tag s
    if r.dead then s
    else if status = 0 then fillSector r st d false s
    else if status = 3 then fillSector r st 0 true s
    else trapWaiters r.waiters Cause.translation s

/-- A response without data: it ends a write, or grants an upgrade. A write-back that the companion's translation
refuses is lost (R233). -/
def ackAnswer (tag status : Nat) (st : Coherence) (s : State) : State :=
  match Tab.get none s.spr.reqs tag with
  | none => s
  | some r =>
    let s := dropReq tag s
    if r.dead then s
    else if r.opc ≤ 0x03 then
      if status = 0 then
        let a := 0x100000000000 + r.addr % 2 ^ 44
        let s := if (s.wline a).valid then s.modLine a fun l => l.setSector a (if st = .i then .e else st) else s
        let s := retryAll r.waiters s
        if r.snooped then (dropSector a s).modLine a fun l => l.setSector a .i else s
      else trapWaiters r.waiters Cause.translation s
    else if r.opc = 0x06 ∧ status = 1 then memLog 3 0x600 (0x100000000000 + r.addr % 2 ^ 44) (raiseFault 7 s)
    else s

/-- A request that the companion has not answered ends (R233). -/
def endRequest (tag : Nat) (r : SprReq) (s : State) : State :=
  trapWaiters r.waiters Cause.poison (loseReq tag r s)

/-- The disable of the aperture takes effect when the last answer has arrived (R234). -/
def finishDrain (s : State) : State :=
  if s.spr.snoops = [] then
    match s.posted.find? (fun p => p.1 == Reg.sprApCtl) with
    | some p =>
      if s.flag Reg.sprApCtl 0 then
        storeReg Reg.sprApCtl p.2 { s with posted := s.posted.filter fun p => p.1 != Reg.sprApCtl }
      else s
    | none => s
  else s

/-- A snoop of the companion ends: it is the oldest of its line. -/
def dropSnoop (line : Nat) (s : State) : State :=
  { s with spr := { s.spr with snoops := eraseFirst (fun x => x.line == line) s.spr.snoops } }

/-- After the end of a snoop the held requests of the aperture go on, and a drain may be done. -/
def afterSnoop (s : State) : State := finishDrain (releaseAperture s)

/-- A snoop answer arrives; a late one is discarded (R236, R237). -/
def snoopAnswer (addr : Nat) (st : Coherence) (data : Option W512) (poison : Bool) (s : State) : State :=
  match s.spr.snoops.find? fun m => m.line == addr / 64 with
  | none => s
  | some m =>
    let base := m.line * 64
    let s := match data with
      | some d => takeSnoopData base d poison s
      | none => s
    let s := setDir base (if m.inv then .i else if st = .s then .s else .i) (dropSnoop m.line s)
    afterSnoop (retryAll m.waiters s)

/-- A snoop is not answered in time (R237): the line is poisoned and its state is I, and what waits receives poison. -/
def snoopTimeout (m : ApSnoop) (s : State) : State :=
  afterSnoop (trapWaiters m.waiters Cause.poison (loseSnoop (m.line * 64) (dropSnoop m.line s)))

end Sys2Proof.Machine
end

