-- ==== Sys2Proof/Machine/CrucibleOps.lean ====
section
/-! DEFINITION. What the Crucible's registers do: partition changes, flushes, wipes, work counters, notice queues and
stage queues (R49 to R56, R64 to R79, R87, R88, R354, R491, R492). -/

namespace Sys2Proof.Machine

/-! ## The partition and the cache window -/

/-- A write of CRU_PARTITION (R52, Table 2.8): the change is posted and new accesses are held. -/
def partitionWrite (v : W32) (s : State) : State :=
  if v.toNat % 32 < 4 then rangeDrop (s.setFlag Reg.cruErrStatus 5)
  else
    (postWrite Reg.cruPartition v s).setFlag Reg.cruStatus 2

/-- The window's lines by address. -/
def windowLines (s : State) : List Nat := (s.win.lines.filter fun e => e.2.valid).map fun e => e.1 * 128

/-- Writes back and invalidates every line of the window. -/
def emptyWindow (s : State) : State := forEach evictLine (windowLines s) s

/-- Scratch keys below the boundary in their slice. -/
def belowBoundary (b key : Nat) : Bool := key < 0x018000000000 || (key - 0x018000000000) % 2 ^ 29 < b / 16

/-- What a queue has written into slots that are scratch no more is gone. -/
def NQueue.below (b : Nat) (k : NQueue) : NQueue :=
  { k with ring := k.ring.filter fun e => belowBoundary b (k.base + 32 * e.1) }

/-- The boundary moves (R52): what is scratch before and after keeps its bytes, everything else reads zero with valid
check bits. -/
def movePartition (v : W32) (s : State) : State :=
  let s := emptyWindow s
  let s := storeReg Reg.cruPartition v s
  let b := boundary s
  { s with mem := s.mem.filter (fun e => belowBoundary b e.1),
           poison := s.poison.filter (fun e => belowBoundary b (e.1 * 16)),
           errs := s.errs.filter (fun e => belowBoundary b (e.1 * 16)),
           nqs := s.nqs.map (fun e => (e.1, e.2.below b)), win := { s.win with plru := [] } }

/-- A write of CRU_CACHE_CTL (R491): FLUSH and INVAL take the lines present now. -/
def cacheCtlWrite (v : W32) (s : State) : State :=
  let s := freshParity Reg.cruCacheCtl s
  if v.toNat % 4 = 0 then s
  else
    let s : State := { s with win := { s.win with flushing := windowLines s, inval := v.getLsbD 1 } }
    s.setFlag Reg.cruStatus 3

/-- Writes back one line and leaves it valid; a companion sector in M is given back and becomes I (Table 7.3).
(DEDUCED, log 65.) -/
def flushLine (a : Nat) (s : State) : State :=
  let l := s.wline a
  if l.valid = false then s
  else if a < 2 ^ 39 then
    if l.dirty then (writeBackHbm a s).modLine a fun l => { l with dirty := false } else s
  else
    forEach (fun u s =>
      if (s.wline u).sector u = .m then (dropSector u s).modLine u fun l => l.setSector u .i else s) [a, a + 64] s

/-- The flush or invalidate ends: every line present at its start has been handled. -/
def finishFlush (s : State) : State :=
  let one := if s.win.inval then evictLine else flushLine
  let s := forEach (fun a s => if (s.wline a).valid then one a s else s) s.win.flushing s
  let s : State := { s with win := { s.win with flushing := [], inval := false } }
  s.clearFlag Reg.cruStatus 3

/-! ## Notice queues -/

/-- Offset of a queue's pop port in register space (R73). -/
def nqPort (q : Nat) : Nat := 0x310000 + 0x20 * q

/-- Empties a queue and disarms its GAP notice. -/
def nqEmpty (q : Nat) (s : State) : State :=
  s.modNq q fun k => { k with entries := [], slots := [], gap := none, timer := s.beat, staleFired := false }

/-- What a queue has written into its ring stays in the store when the queue goes out of service. (DESIGN CHOICE,
log 17.) -/
def ringToStore (q : Nat) (s : State) : State :=
  let k := s.nq q
  let put (e : Nat × W256) (s : State) : State :=
    let a := k.base + 32 * e.1
    match place s a with
    | .scratch key => if key = a then storeBytes a (toBytes 32 e.2.toNat) s else s
    | _ => s
  forEach put k.ring s

/-- A read of a pop port at the queue (R73): the entry, the status of the companion's answer, and the state. Class O
pops only while OPEN is 1. -/
def nqPortAccess (rq : Requester) (q : Nat) (s : State) : W256 × Nat × State :=
  match rq with
  | .ring _ => (0, 0, s.setFlag Reg.glbAccessStatus 2)
  | _ =>
    if wipeRuns s || bootDenies s rq (nqPort q) false || !admits s rq (if s.flag (Reg.nqCtl q) 4 then .o else .p) then
      (0, 0, deny (classOf s rq) (isSprue rq) false true (nqPort q) s)
    else if nqRefuses s q then (0, 2, errLogOther (0x700 + q % 16) (s.setFlag Reg.cruErrStatus 3))
    else
      let r := nqPop q s
      (r.1, 0, r.2)

/-- A requester's pop is performed: the entry goes to `rdata`, and the companion gets it in an RSP_DATA under its
tag. -/
def nqPortPop (rq : Requester) (tag q : Nat) (s : State) : State :=
  let no := replayDenies s rq (nqPort q)
  let r := if no then (0, 2, s) else nqPortAccess rq q s
  let s : State := { r.2.2 with rdata := r.1 }
  if isSprue rq then s.sprSend { opc := 0x31, tag := tag, status := r.2.1, data := some (r.1.setWidth 512) } else s

/-- A pop, which the Crucible may hold (R52, R88). -/
def nqPortTake (rq : Requester) (tag q : Nat) (s : State) : State :=
  if cruHolds s then hold (.port rq tag q) s else nqPortPop rq tag q s

/-- A requester reads a queue's pop port. -/
def nqPortRead (rq : Requester) (tag q : Nat) (s : State) : State :=
  if isSprue rq && !sprUp s then s else nqPortTake rq tag q (regSeen rq 0x14 tag (nqPort q) 0 s)

/-- The pop in progress at a flush is performed. -/
def popAtFlush (q : Nat) (p : Popper) (s : State) : State :=
  match p with
  | .none => s
  | .core c w =>
    if bits ((s.core c).xr (Iw.ra w.toNat)).toNat 5 0 = q then issue .npop bodyNpop c w 0 s else s
  | .port rq tag => nqPortRead rq tag q s

/-- A flush (R72). A pop in progress at that instant returns the FLUSHED entry, which counts what was discarded. -/
def nqFlush (q : Nat) (p : Popper) (s : State) : State :=
  let n := (s.nq q).entries.length
  let e := mkNotice 0x02 0 (0x700 + q % 16) (s.reg (Reg.nqPosted q)).toNat (s.copyOf (nqDie q)) n
  let s := popAtFlush q p ((nqEmpty q s).modNq q fun k => { k with flushed := some e })
  s.modNq q fun k => { k with flushed := none }

/-- A write of NQ_CTL (R66, R72, R251, R492). The rule places the ring in scratch of slice q mod 16 and gives no outcome
for another address, with which the queue serves without slots in the store. (DESIGN CHOICE, log 194.) -/
def nqCtlWrite (q : Nat) (p : Popper) (v : W32) (s : State) : State :=
  let on := nqEnabled s q
  let depth := bits v.toNat 20 16
  if depth < 4 ∨ 16 < depth ∨ (on = true ∧ v.getLsbD 0 = true ∧ depth ≠ s.fld (Reg.nqCtl q) 20 16) then rangeDrop s
  else
    let s := storeReg (Reg.nqCtl q) v s
    let s :=
      if on = false ∧ v.getLsbD 0 = true then
        let base := s.fld (Reg.nqBaseHi q) 15 0 * 2 ^ 32 + s.fld (Reg.nqBaseLo q) 31 5 * 32
        (nqEmpty q (s.setReg (Reg.nqDrops q) 0)).modNq q fun k => { k with depth := depth, base := base, ring := [] }
      else if on = true ∧ v.getLsbD 0 = false then nqEmpty q (ringToStore q s)
      else s
    if v.getLsbD 1 then nqFlush q p s else s

/-- A write of NQ_BASE_LO or NQ_BASE_HI (R492). -/
def nqBaseWrite (q : Nat) (hi : Bool) (v : W32) (s : State) : State :=
  if nqEnabled s q then rangeDrop s else storeReg (if hi then Reg.nqBaseHi q else Reg.nqBaseLo q) v s

/-- Staleness (R71): the queue has not been popped for NQ_STALE Beats. -/
def nqStale (q : Nat) (s : State) : State :=
  let k := s.nq q
  let lim := (s.reg (Reg.nqStale q)).toNat
  if nqEnabled s q = true ∧ (k.entries ≠ [] ∨ k.gap ≠ none) ∧ lim ≠ 0 ∧ k.staleFired = false ∧ lim ≤ (s.beat - k.timer).toNat then
    let s := (s.setFlag (Reg.nqIntStatus q) 1).modNq q fun k => { k with staleFired := true }
    if s.flag (Reg.nqCtl q) 3 then raiseInt (s.fld (Reg.nqCtl q) 31 24) s else s
  else s

/-! ## Work counters and stage queues -/

/-- A write of WC_INDEX, WC_LIMIT or WC_GEN (R65). -/
def wcStateWrite (off n : Nat) (v : W32) (s : State) : State :=
  if s.flag (Reg.wcCtl n) 0 then s.setFlag Reg.cruErrStatus 4 else storeReg off v s

/-- The register that a name of R64 stands for. -/
def wcReg (n : Nat) : WcReg → Nat
  | .index => Reg.wcIndex n
  | .limit => Reg.wcLimit n
  | .gen => Reg.wcGen n

/-- A write of WC_CTL (R178, R354): enabling records the base generation, disabling empties the re-issue list. -/
def wcCtlWrite (n : Nat) (v : W32) (s : State) : State :=
  let was := s.flag (Reg.wcCtl n) 0
  let s := storeReg (Reg.wcCtl n) v s
  let gen : W16 := BitVec.ofNat 16 (s.fld (Reg.wcGen n) 15 0)
  if v.getLsbD 0 = true ∧ was = false then s.modWc n fun k => { k with baseGen := gen }
  else if v.getLsbD 0 = false then s.modWc n fun k => { k with reissue := [] }
  else s

/-- A remote queue in service loses its partner when the way to it is cut (R78, R302). (DEDUCED, log 111.) -/
def checkPeer (q : Nat) (s : State) : State :=
  if s.flag (Reg.sqCtl q) 0 && sqRemote s q && !(s.sq q).lost && peerCut s (s.fld (Reg.sqPeer q) 12 0) then
    (s.setFlag (Reg.sqFault q) 2).modSq q fun k => { k with lost := true }
  else s

/-- A write of SQ_CTL (R74, R78, R79, R251). -/
def sqCtlWrite (q : Nat) (v : W32) (s : State) : State :=
  let n := bits v.toNat 22 16
  if n = 0 ∨ 64 < n ∨ 16 < bits v.toNat 12 8 then rangeDrop s
  else
    let s := storeReg (Reg.sqCtl q) v s
    if v.getLsbD 0 then checkPeer q s else s.modSq q fun _ => {}

/-! ## The Crucible wipe -/

/-- Clears a bit of every listed register. -/
def clearEach (l : List Nat) (b : Nat) (s : State) : State := forEach (fun off s => s.clearFlag off b) l s

/-- What a wipe of the Crucible does to the store and its units (R87). (DEDUCED, log 66.) -/
def wipeCrucible (s : State) : State :=
  let qs := upFrom 0 64
  let s := clearEach (qs.map Reg.nqCtl) 0 s
  let s := forEach (fun q s => s.setReg (Reg.nqPosted q) 0) qs s
  let sqs := s.sqs.map (·.1)
  let s := clearEach ((upFrom 0 256).map Reg.sqCtl) 0 s
  let s := forEach (fun q s => s.modSq q fun _ => {}) sqs s
  { s with nqs := [], wcs := [],
           mem := s.mem.filter (fun e => e.1 < 0x018000000000),
           poison := s.poison.filter (fun e => e.1 * 16 < 0x018000000000),
           errs := s.errs.filter (fun e => e.1 * 16 < 0x018000000000),
           win := { s.win with lines := [], plru := [], flushing := [], inval := false, pass := [] },
           regs := s.regs.filter (fun e => e.1 < Reg.wcIndex 0 || Reg.wcIndex 1024 ≤ e.1) }

/-- Starts a wipe of the Crucible (R88): accesses are held until it ends. -/
def startCruWipe (by_ : Wipe) (s : State) : State :=
  let s : State := { wipeCrucible s with wiping := some by_ }
  s.setFlag Reg.cruStatus 1

/-- A write of CRU_WIPE. (DEDUCED, log 63.) -/
def cruWipeWrite (v : W32) (s : State) : State :=
  let s := freshParity Reg.cruWipe s
  if v.getLsbD 0 then startCruWipe .cru s else s

end Sys2Proof.Machine
end

