-- ==== Sys2Proof/Machine/RglBase.lean ====
section
/-! DEFINITION. The Regulator's shared operations: its policy, the Riser record, repair requests, spares and page
retirement (R423 to R431, R441 to R446). -/

namespace Sys2Proof.Machine

/-- Beats in a second. -/
def second : Nat := 1000000000

/-- SPARE_IN, or SPARE_ADVICE while AUTO_SPARE is clear. (DEDUCED, log 74; DESIGN CHOICE, log 140.) -/
def spareNotice (advice : Bool) (kind die index : Nat) (s : State) : State :=
  rglNotice (if advice then 0x72 else 0x71) 3 (kind + die <<< 8 + index <<< 32) s

/-- A window is requested (R442); the estimate is the Regulator's own (a free value). (DESIGN CHOICE, log 78.) -/
def requestFor (riser kind die index : Nat) (s : State) : State :=
  let d := s.draw
  let est := d.1.toNat % 2 ^ 16
  let s := d.2
  let id := s.rgl.nextId
  let q : RepairReq := { id := id, kind := kind, die := die, index := index, est := est, riser := riser }
  let s : State := { s with rgl := { s.rgl with reqs := s.rgl.reqs ++ [q], nextId := if id = 0xFFFF then 1 else id + 1 } }
  rglNotice 0x73 3 (id + kind <<< 16 + die <<< 24 + index <<< 32 + est <<< 64) (s.setFlag Reg.rglStatus 5)

/-- A repair that needs a quiet unit is requested. -/
def addRequest (kind die index : Nat) (s : State) : State := requestFor 0 kind die index s

/-- While AUTO_SPARE is clear a Riser is advised, and comes in inside a window granted for that advice (R441), whose request
has KIND 0. (DESIGN CHOICE, log 140.) -/
def advise (riser die index : Nat) (s : State) : State :=
  let s := spareNotice true riser die index s
  if s.rgl.reqs.any fun q => q.riser == riser && q.die == die && q.index == index then s
  else requestFor riser 0 die index s

/-- A Riser comes in (R423): its notice, and its entry in the record. -/
def riserIn (kind die index : Nat) (s : State) : State :=
  addEntry { kind := kind, fused := false, die := die, index := index, detail := 0 } (spareNotice false kind die index s)

/-- A spare lane of a runner link comes in: INDEX is 18 times the link within its die plus the lane (R432).
(DESIGN CHOICE, log 108.) -/
def laneIn (die index : Nat) (s : State) : State :=
  riserIn 10 die index (s.setFlag Reg.rsrLanes (16 + (die - 56) * 4 + index / 18))

/-- The spare lane of a half of the Sprue comes in. -/
def sprueLaneIn (die lane : Nat) (s : State) : State := riserIn 11 die lane (s.setFlag Reg.rsrLanes (die - 62))

/-- Wires of a gate group: 64 and its 4 spares (R22). A die numbers its wires group by group. (DESIGN CHOICE, log
189.) -/
def groupWires : Nat := 68

/-- Spare wires of a gate group in use. -/
def wiresUsed (s : State) (die group : Nat) : Nat :=
  (s.rgl.entries.filter fun e => e.kind == 12 && e.die == die && e.index / groupWires == group).length

/-- A spare wire of a gate group comes in (R22, R432): RSR_GATES counts the groups that use one, and the device logs it.
(DESIGN CHOICE, log 189.) -/
def wireIn (die index : Nat) (s : State) : State :=
  let group := index / groupWires
  let s := if wiresUsed s die group = 0 then s.setFld Reg.rsrGates 15 0 (s.fld Reg.rsrGates 15 0 + 1) else s
  riserIn 12 die index (errLog 0x43 0x900 (die + (group % 256) <<< 8) s)

/-! ## Spare cores -/

/-- The compute die of a core id. -/
def dieOf (c : Nat) : Nat := c / 8
/-- The die's spare core is in use (RSR_CORE). -/
def spareUsed (s : State) (die : Nat) : Bool := s.flag (Reg.rsrCore (die / 4)) (8 * (die % 4) + 7)

/-- A core id leaves service (R426). -/
def loseCore (c : Nat) (s : State) : State :=
  let die := dieOf c
  let lo := 8 * (die % 4) + 4
  let lost := s.fld (Reg.rsrCore (die / 4)) (lo + 2) lo
  let s := s.setFld (Reg.rsrCore (die / 4)) (lo + 2) lo (min (lost + 1) 7)
  let s := (s.clearFlag (Reg.glbCoreMap (c / 32)) (c % 32)).setFlag Reg.rsrStatus 4
  let s := s.setFld Reg.glbCap0 8 0 (s.fld Reg.glbCap0 8 0 - 1)
  let s := s.modCore c fun k => { k with mode := .outOfService }
  addEntry { kind := 2, fused := false, die := die, index := c % 8, detail := 0 } s

/-- The die's spare takes a core id (R425). -/
def spareIn (c : Nat) (s : State) : State :=
  let die := dieOf c
  let s := s.setFlag (Reg.rsrCore (die / 4)) (8 * (die % 4) + 7)
  riserIn 1 die (c % 8) s

end Sys2Proof.Machine
end

