-- ==== Sys2Proof/Machine/Glb.lean ====
section
/-! DEFINITION. Translation requests (R245, R246, R375) and the mailbox (R255, R288, R356, R440, Tables 7.9, 11.5,
11.10, 14.8). -/

namespace Sys2Proof.Machine

/-! ## Translation requests -/

namespace XlatReq
def op (q : XlatReq) : Nat := bits q.cmd.toNat 3 0
/-- Pages of the request: 0 means 1. -/
def pages (q : XlatReq) : Nat := max 1 (bits q.cmd.toNat 31 24 * 2 ^ 16 + bits q.cmd.toNat 23 8)
def vpage (q : XlatReq) : Nat := bits q.va.toNat 26 0
def ppage (q : XlatReq) : Nat := bits q.pa.toNat 26 0
/-- The virtual pages of the request. -/
def vpages (q : XlatReq) : List Nat := upFrom q.vpage q.pages
/-- The entry bits WRITE, EXEC and NOALLOC, as Table 7.8 places them, with VALID. -/
def entryBits (q : XlatReq) : Nat := 1 + 2 * bits q.cmd.toNat 7 5
end XlatReq

/-- A page of firmware's own region (R470). -/
def firmwarePage (s : State) (p : Nat) : Bool := s.fwBase ≤ p && p < s.fwBase + 1024

/-- A MAP may name this target page (R245). -/
def targetOk (s : State) (p : Nat) : Bool :=
  let a := p * 2 ^ 21
  if a < 2 ^ 39 then !s.retired.contains p && !firmwarePage s p
  else if 0x010000000000 ≤ a ∧ a < 0x010200000000 then decide (a - 0x010000000000 < boundary s)
  else if 0x018000000000 ≤ a ∧ a < 0x018200000000 then decide ((a - 0x018000000000) % 2 ^ 29 < boundary s / 16)
  else 0x100000000000 ≤ a && a < 0x200000000000

/-- The entry of a virtual page. -/
def leaf (s : State) (v : Nat) : W64 := Tab.get 0 s.xlat v

/-- The virtual pages that an image touches. -/
def imagePages (i : Image) : List Nat := upFrom (i.addr / 2 ^ 21) ((i.addr + i.bytes - 1) / 2 ^ 21 + 1 - i.addr / 2 ^ 21)

/-- The virtual pages that verified images touch (R375). -/
def verifiedPages (s : State) : List Nat :=
  match s.manifest with
  | none => []
  | some m => (m.images.filter fun i => s.verified.contains i.addr).flatMap imagePages

/-- The device page that a virtual page is mapped to. -/
def mappedTo (s : State) (v : Nat) : Option Nat :=
  if (leaf s v).getLsbD 0 then some (bits (leaf s v).toNat 47 21) else none

/-- A request would set WRITE on a page of a verified image. -/
def touchesVerified (s : State) (q : XlatReq) : Bool :=
  let vs := verifiedPages s
  let ps := vs.filterMap (mappedTo s)
  (q.op == 1 || q.op == 3) && q.cmd.getLsbD 5 &&
    (upFrom 0 q.pages).any fun i =>
      vs.contains (q.vpage + i) ||
        (if q.op = 1 then some (q.ppage + i) else mappedTo s (q.vpage + i)).any ps.contains

/-- Images some page of which has been mapped anew are verified no more: the next DISPATCH that names one has it hashed
again (R375). -/
def dropVerified (vs : List Nat) (s : State) : State :=
  let moved (a : Nat) : Bool := (s.manifest.any fun m => m.images.any fun i => i.addr == a && (imagePages i).any vs.contains)
  { s with verified := s.verified.filter fun a => !moved a }

/-- Tables that a set of mapped virtual pages takes (R244): the root and those of levels 2 and 3. -/
def tablesFor (vs : List Nat) : Nat := 1 + (vs.map (· / 2 ^ 18)).eraseDups.length + (vs.map (· / 2 ^ 9)).eraseDups.length

/-- The tables below the root that the mapped pages need, under the keys of `State.tables`. -/
def tableKeys (s : State) : List Nat :=
  (s.xlat.map fun e => e.1 / 2 ^ 18).eraseDups ++ (s.xlat.map fun e => 512 + e.1 / 2 ^ 9).eraseDups

/-- Firmware gives a table the first free place of the region. (DESIGN CHOICE, log 81.) -/
def placeTable (key : Nat) (t : Tab Nat) : Tab Nat :=
  if Tab.get 0 t key ≠ 0 then t
  else Tab.set 0 t key (((upFrom 1 (t.length + 1)).find? fun n => !(t.any fun e => e.2 == n)).getD 1)

/-- Firmware places the tables that the mapped pages need and frees the others. (DESIGN CHOICE, log 90.) -/
def placeTables (s : State) : State :=
  let keys := tableKeys s
  { s with tables := forEach placeTable keys (s.tables.filter fun e => keys.contains e.1) }

/-- Tables the region holds. -/
def tableRoom (s : State) : Nat := s.fld Reg.glbXlatSize 15 0 * 512

/-- A request's error code (R245). (DESIGN CHOICE, log 90; DEDUCED, log 91; DEDUCED, log 92.) -/
def xlatErr (s : State) (q : XlatReq) : Nat :=
  let all := q.op = 4
  if (q.host = true ∧ s.sealed = true) ∨ touchesVerified s q = true then 5
  else if q.cmd.getLsbD 4 = true ∨ q.op = 0 ∨ 4 < q.op then 6
  else if all then 0
  else if bits q.va.toNat 31 27 ≠ 0 ∨ (q.op = 1 ∧ bits q.pa.toNat 31 27 ≠ 0) ∨ 2 ^ 27 < q.vpage + q.pages
      ∨ (q.op = 1 ∧ 2 ^ 27 < q.ppage + q.pages) then 6
  else if (q.op = 1 ∧ (upFrom q.ppage q.pages).all (targetOk s) = false)
      ∨ (q.vpage < 2 ^ 20 + 128 ∧ 2 ^ 20 < q.vpage + q.pages) then 3
  else if q.op = 1 ∧ q.vpages.any (fun v => (leaf s v).getLsbD 0) = true then 1
  else if q.op ≠ 1 ∧ q.vpages.all (fun v => (leaf s v).getLsbD 0) = false then 2
  else if q.op = 1 ∧ tableRoom s < tablesFor (s.xlat.map (·.1) ++ q.vpages) then 4
  else 0

/-- Pages that waited for the host to unmap them are retired once nothing maps them (R429). -/
def retireUnmapped (s : State) : State :=
  forEach (fun p s =>
    if s.xlat.any fun e => bits e.2.toNat 47 21 == p then s else retirePage p s) (s.rgl.pagesDue.map (·.1)) s

/-- The effect of a request that passed its checks. -/
def applyXlat (q : XlatReq) (s : State) : State :=
  match q.op with
  | 1 =>
    dropVerified q.vpages <| forEach (fun i s =>
      { s with xlat := Tab.set 0 s.xlat (q.vpage + i) (BitVec.ofNat 64 ((q.ppage + i) * 2 ^ 21 + q.entryBits)) })
      (upFrom 0 q.pages) s
  | 2 => retireUnmapped (forEach (fun v s => { s with xlat := Tab.erase s.xlat v }) q.vpages s)
  | 3 =>
    forEach (fun v s =>
      { s with xlat := Tab.set 0 s.xlat v (BitVec.ofNat 64 (putBits (leaf s v).toNat 3 0 q.entryBits)) }) q.vpages s
  | _ => retireUnmapped { s with xlat := s.xlat.filter fun e => firmwarePage s (bits e.2.toNat 47 21) }

/-- A write of GLB_XLAT_CMD starts a request (R245). -/
def xlatStart (host : Bool) (v : W32) (s : State) : State :=
  let q : XlatReq := { cmd := v, va := s.reg Reg.glbXlatVa, pa := s.reg Reg.glbXlatPa, host := host }
  let s := s.setFlag Reg.glbXlatStatus 0
  { s with xlatReq := some q, posted := s.posted ++ [(Reg.glbXlatCmd, v)] }

/-- The request ends: BUSY clears and ERR tells how. -/
def xlatFinish (s : State) : State :=
  match s.xlatReq with
  | none => s
  | some q =>
    let err := xlatErr s q
    let s := if err = 0 then placeTables (applyXlat q s) else s
    let s : State := { s with xlatReq := none, posted := s.posted.filter fun p => p.1 != Reg.glbXlatCmd }
    (storeReg Reg.glbXlatCmd q.cmd s).setReg Reg.glbXlatStatus (BitVec.ofNat 32 (err <<< 8))

/-! ## The mailbox -/

/-- The tag and flags of a per-dispatch counter as MBX_DATA[2] and MBX_DATA[3] give them (R357). -/
def counterTag (s : State) (sel : Nat) : Nat × Nat :=
  if perDispatch sel then
    let k := s.core ((sel - 0x200) / 6)
    match k.tag with
    | none => (0, 2 + 4)
    | some t => (t.2.1.toNat, (t.2.2 % 2 ^ 16) <<< 16 + t.1 <<< 8 + 2 + b2n k.prev)
  else (0, 0)

/-- A counter snapshot (Table 11.5). -/
def counterSnap (s : State) (sel : Nat) : W128 :=
  let v := counterReported s sel
  let t := counterTag s sel
  let coarse := s.sealed && (coarseC sel || coarseT sel)
  BitVec.ofNat 128 (v.toNat + t.1 <<< 64 + (t.2 + 8 * b2n coarse) <<< 96)

/-- Ring state in mailbox space 0x05 (R288). (DEDUCED, log 96.) -/
def ringSnap (s : State) (r : Nat) : W128 :=
  let k := s.ring r
  let old := match k.running with
    | [] => k.pos.seq
    | c :: t => oldest c.seq (t.map fun (d : Cmd) => d.seq)
  let slot := match k.running.find? fun c => Cb.opcode c.body == 0x05 with
    | some c => Cb.event c.body
    | none => 0
  let st := k.state.code + k.frames.length <<< 4 + (b2n (blocked s r)) <<< 8 + slot <<< 16
  BitVec.ofNat 128
    (k.pos.seq.toNat + old.toNat <<< 32 + st <<< 64 + (min (s.beat - k.last).toNat (2 ^ 32 - 1)) <<< 96)

/-- The 64 logic dies in service, by the numbers of Table 11.6: RGL_DIE STATE. The table has no code for the spare control
die, which is held in reset (R17) and reads 0. (DESIGN CHOICE, log 188.) -/
def dieState (s : State) (i : Nat) : Nat :=
  if s.rgl.failed.contains i then 3
  else if s.rgl.dark.contains i then 1
  else if s.rgl.grants.any fun g => g.ends.isSome && g.req.die == i then 2
  else 0

/-- RGL_DIE (Table 14.7). -/
def rglDie (s : State) (i : Nat) : W32 :=
  let t := Tab.get {} s.rgl.tele i
  let rate := if s.rgl.dark.contains i then 0 else t.rate
  BitVec.ofNat 32 (dieState s i + (t.supply % 4096) <<< 4 + (rate % 2 ^ 16) <<< 16)

/-- Telemetry of a die (Table 14.8). -/
def dieSnap (s : State) (i : Nat) : W128 :=
  let t := Tab.get {} s.rgl.tele i
  BitVec.ofNat 128
    ((rglDie s i).toNat + (t.current % 2 ^ 16) <<< 32 + (t.junction % 2 ^ 16) <<< 48
      + (min t.corrected (2 ^ 32 - 1)) <<< 64 + (t.wear % 256 + (t.fuses % 256) <<< 8 + (t.margin % 2 ^ 16) <<< 16) <<< 96)

/-- The value a selector names now; none for an unassigned one (Table 7.9). -/
def mbxValue (s : State) (space index : Nat) : Option W128 :=
  match space with
  | 0x01 =>
    if index = 0 then
      some (BitVec.ofNat 128 (s.beat.toNat + (s.fld Reg.beatStatus 2 0) <<< 64 + s.bt.theta.toNat <<< 96))
    else none
  | 0x02 =>
    if counterAssigned index then
      if s.flag Reg.cntCtl 0 then some (Tab.get 0 s.bt.bank index ||| (1#128 <<< 100)) else some (counterSnap s index)
    else none
  | 0x03 =>
    if index < 4096 then
      some (BitVec.ofNat 128 ((s.event index).toNat + (b2n (slotExternal s index)) <<< 64))
    else none
  | 0x04 => if index = 0 then some (serialOf s) else none
  | 0x05 => if index < 64 then some (ringSnap s index) else none
  | 0x06 => if index < 64 then some (dieSnap s index) else none
  | _ => none

/-- A write of MBX_SEL starts a request and abandons an earlier one. -/
def mbxSelect (v : W32) (s : State) : State := (storeReg Reg.mbxSel v s).setReg Reg.mbxValid 4

/-- The device samples the selected value. -/
def mbxSample (s : State) : State :=
  if s.flag Reg.mbxValid 2 = false then s
  else
    let r := mbxValue s (s.fld Reg.mbxSel 31 24) (s.fld Reg.mbxSel 23 0)
    let v := (r.getD 0).toNat
    let s := forEach (fun i s => s.setReg (Reg.mbxData i) (BitVec.ofNat 32 (v / 2 ^ (32 * i)))) (upFrom 0 4) s
    s.setReg Reg.mbxValid (if r.isSome then 1 else 3)

/-- A read of MBX_DATA: zero while VALID is 0; a read of MBX_DATA[3] clears VALID. -/
def mbxRead (i : Nat) (s : State) : W32 × State :=
  if s.flag Reg.mbxValid 0 = false then (0, s)
  else (s.reg (Reg.mbxData i), if i = 3 then s.clearFlag Reg.mbxValid 0 else s)

/-! ## The rows -/

/-- A write of GLB_XLAT_CMD with an OP. -/
def xlatRow (rq : Requester) (op : Nat) (v : W32) (s : State) : State :=
  let v : W32 := BitVec.ofNat 32 (putBits v.toNat 3 0 op)
  writeGate rq Reg.glbXlatCmd v (xlatStart (isHostSide s rq) v) s

/-- MAP (R245): `v` is the command word but for OP. -/
def execXlatMap (rq : Requester) (v : W32) (s : State) : Host.Outcome State Fault Refusal := .next (xlatRow rq 1 v s)
/-- UNMAP (R245). -/
def execUnmap (rq : Requester) (v : W32) (s : State) : Host.Outcome State Fault Refusal := .next (xlatRow rq 2 v s)
/-- PROTECT (R245). -/
def execProtect (rq : Requester) (v : W32) (s : State) : Host.Outcome State Fault Refusal := .next (xlatRow rq 3 v s)
/-- INVALIDATE_ALL (R245). -/
def execInvalidateAll (rq : Requester) (v : W32) (s : State) : Host.Outcome State Fault Refusal :=
  .next (xlatRow rq 4 v s)

/-- XLAT_DONE (R245, R246): firmware has checked and carried out the request. (DESIGN CHOICE, log 81.) -/
def execXlatDone (s : State) : Host.Outcome State Fault Refusal := .next (xlatFinish s)

/-- MBX_SEL (R255). -/
def execMbxSel (rq : Requester) (v : W32) (s : State) : Host.Outcome State Fault Refusal :=
  .next (writeGate rq Reg.mbxSel v (mbxSelect v) s)

/-- MBX_SAMPLE_DONE (R255). -/
def execMbxSampleDone (s : State) : Host.Outcome State Fault Refusal := .next (mbxSample s)

/-- MBX_DATA3_READ (R255): the value goes to the reader. -/
def execMbxData3Read (rq : Requester) (s : State) : Host.Outcome State Fault Refusal :=
  .next (readGate rq 0 (Reg.mbxData 3) (mbxRead 3) s)

end Sys2Proof.Machine
end

