-- ==== Sys2Proof/Machine/CoreFault.lean ====
section
/-! DEFINITION. The start of a kernel on a core (R176, R177), core faults and per-core resets (R168, R183, R184, R424 to
R426, R448). -/

namespace Sys2Proof.Machine

/-! ## Starting a kernel -/

/-- A core begins a kernel at ENTRY (R176): registers at zero but x1, x2 and the k registers. -/
def Core.begin (k : Core) (uid : Nat) (d : Disp) (rank : Nat) (now : W64) : Core :=
  { k with mode := .running, hold := none, pc := 0,
           x := Tab.set 0 (Tab.set 0 [] 1 (BitVec.ofNat 64 rank)) 2 (BitVec.ofNat 64 d.set.length),
           f := [], v := [], p := [], d := [], k := d.kv, k0 := d.kv, trapEn := 0, statics := [], mxeQ := [], vecQ := [],
           dmaQ := [], tilePairs := [], endPairs := [], disp := some uid, det := d.det, rank := rank, size := d.set.length,
           entry := d.entry, codeBytes := d.codeBytes, lastRetire := now, prev := false,
           tag := some (d.ring, d.seq, d.sub) }

/-- What a core clears when a dispatch starts on it (R177, R188): with CORE_TRAP, CORE_TRAP_PC, which the rule does not
name. (DESIGN CHOICE, log 190.) -/
def Core.fresh (k : Core) : Core :=
  { k with nv := false, ov := false, sat := false, nanIn := false, nonfinite := 0, flushed := 0, trapValid := false,
           trapCause := 0, trapPc := 0, stopping := false, tileHi := k.tileHi &&& 0x7FFFFFFF#32, took := false, putsOut := 0 }

/-- The rank of a core in a set (R176). -/
def rankIn (set : List Nat) (c : Nat) : Nat := (set.filter (· < c)).length

/-- Starts a dispatch on a core: the counts of the dispatch before it join the device totals, and the core begins. -/
def startCore (uid c : Nat) (s : State) : State :=
  let d := s.disp uid
  let k := s.core c
  let s := (s.count 0x002 k.nonfinite.toNat).count 0x003 k.flushed.toNat
  let s := s.setCore c (k.fresh.begin uid d (rankIn d.set c) s.beat)
  traceCore c 0 (s.modDisp uid fun r => { r with started := r.started ++ [c] })

/-! ## Resets of one core -/

/-- The zero-fill of R168; CORE_TILE is kept. -/
def Core.zeroed (k : Core) : Core :=
  { k with hold := none, stopping := false, x := [], f := [], v := [], p := [], d := [], k := [], tiles := [], score := [], ob := [],
           obPoison := [], srSeed := 0, mxeQ := [], vecQ := [], dmaQ := [], statics := [] }

/-- A core fault: what the reset will do (R424). -/
def faultAction (s : State) (c : Nat) (storage rowsOk : Bool) : Nat :=
  let first := match Tab.get none s.rgl.coreFaults c with
    | none => true
    | some b => 24 * 3600 * second ≤ (s.beat - b).toNat
  if storage && first && rowsOk then 0
  else if spareUsed s (dieOf c) = false ∧ policyFlag s 0 = true then 1
  else if spareUsed s (dieOf c) = true ∧ policyFlag s 3 = true then 2
  else 0

/-- What the Regulator says when it cannot bring a spare in: an advice while AUTO_SPARE is clear, and a request for a
test of a core that returns. -/
def faultAdvice (c act : Nat) (storage rowsOk : Bool) (s : State) : State :=
  let first := match Tab.get none s.rgl.coreFaults c with
    | none => true
    | some b => 24 * 3600 * second ≤ (s.beat - b).toNat
  let same := storage && first && rowsOk
  if same then s
  else
    let s := if spareUsed s (dieOf c) = false ∧ policyFlag s 0 = false then advise 1 (dieOf c) (c % 8) s else s
    if act = 0 then addRequest 1 (dieOf c) (c % 8) s else s

/-- REISSUE of a held tile and the taints it sends (R178, R183, R308): the state, whether it was refused, and the new
generation. -/
def reissueTile (c : Nat) (s : State) : State × Bool × Nat :=
  let k := s.core c
  if k.held = false then (s, false, bits k.tileHi.toNat 15 0)
  else
    let w := bits k.tileHi.toNat 25 16
    let taint (p : RedPair) (s : State) : State :=
      raccSend (pairMsg s c 0x13 0 k.tileLo.toNat k.tileHi.toNat 0 p) s
    match reissueAt w k.tileLo s with
    | none => (forEach taint (k.tilePairs.take 4) s, true, s.fld (Reg.wcGen w) 15 0)
    | some s => (forEach taint (k.tilePairs.take 4) s, false, s.fld (Reg.wcGen w) 15 0)

/-- A core fault (R183, R184): one that meets a per-core reset in progress belongs to it. A core of a running dispatch
begins its kernel again, or ends the dispatch, whether or not it had ended its part. (DEDUCED, log 75; DEDUCED,
log 76.) -/
def coreFault (c : Nat) (storage rowsOk : Bool) (s : State) : State :=
  let k := s.core c
  if coreInService s c = false ∨ k.mode = .resetting ∨ k.mode = .outOfService then s
  else
    let act := faultAction s c storage rowsOk
    let s := faultAdvice c act storage rowsOk s
    let s : State := { s with rgl := { s.rgl with coreFaults := Tab.set none s.rgl.coreFaults c (some s.beat) } }
    let r := reissueTile c s
    let s := r.1
    let again := match k.disp with
      | some d => !(s.disp d).det && (s.disp d).restartable && !r.2.1 && act != 2 && (s.disp d).trap.isNone
          && (s.disp d).fault.isNone
      | none => false
    let s := s.setCore c { k.clearHeld.dropQueues with
      mode := .resetting, hold := none, stopping := false, tilePairs := [], endPairs := [], faulted := true, faultAct := act,
      restart := again, prev := k.prev || !again }
    let s := if k.mode == .running && !again then traceCore c 1 s else s
    let s := match k.disp with
      | some d =>
        if again then s
        else stopOthers d c (s.modDisp d fun x => { x with fault := if x.fault.isSome then x.fault else some c })
      | none => s
    let pay := c + 0x20 <<< 16 + act <<< 24 + (bits k.tileHi.toNat 25 16) <<< 32 + (bits k.tileHi.toNat 15 0) <<< 48
      + k.tileLo.toNat <<< 64 + r.2.2 <<< 96
    errLog 0x40 c pay (s.count 0x00A 1)

/-- CORE_FAULT: `storage` for an uncorrectable error in a storage array, `rowsOk` when its rows pass the rewrite check
(R424). (DESIGN CHOICE, log 2.) -/
def execCoreFault (c : Nat) (storage rowsOk : Bool) (s : State) : Host.Outcome State Fault Refusal :=
  .next (coreFault c storage rowsOk s)

/-- CORE_HANG: no instruction has retired for 131,072 Beats outside a wait marked T (Table 5.5). -/
def execCoreHang (c : Nat) (s : State) : Host.Outcome State Fault Refusal :=
  .next <|
    let k := s.core c
    let waits := match k.hold with
      | some h => h.markT
      | none => false
    if k.mode = .running ∧ waits = false ∧ 131072 ≤ (s.beat - k.lastRetire).toNat then coreFault c false false s else s

/-- PER_CORE_RESET_DONE (R183, R448): the core returns, its spare takes the id, or the id leaves service; the kernel
restarts unless its dispatch has ended meanwhile. (DEDUCED, log 77.) -/
def execPerCoreResetDone (c : Nat) (s : State) : Host.Outcome State Fault Refusal :=
  .next <|
    let k := s.core c
    if k.mode ≠ .resetting ∨ k.faulted = false then s
    else
      let act := k.faultAct
      let z := k.zeroed
      let z : Core := { z with mode := .idle, faulted := false, faultAct := 0, restart := false }
      let s := s.setCore c (if act = 1 then { z with planes := [] } else z)
      let s := if act = 1 then spareIn c s else s
      let s := errLog 0x48 0x900 (c <<< 8) s
      let s := if act = 2 then loseCore c s else s
      match k.restart, k.disp with
      | true, some d =>
        let r := s.disp d
        if r.live && r.trap.isNone && r.fault.isNone then
          s.modCore c fun z => z.begin d r k.rank s.beat
        else if k.prev then s
        else traceCore c 1 (s.modCore c fun z => { z with prev := true })
      | _, _ => s

end Sys2Proof.Machine
end

