-- ==== Sys2Proof/Machine/BeatOps.lean ====
section
/-! DEFINITION. The Beat exchanges between a device and its parent, and shared strike targets (R345 to R348, R351). -/

namespace Sys2Proof.Machine

namespace State
/-- Changes the Beat unit. -/
def modBt (s : State) (f : BeatUnit → BeatUnit) : State := { s with bt := f s.bt }
end State

/-- No ring is enabled. -/
def ringsOff (s : State) : Bool := s.rings.all fun e => e.2.state == .disabled

/-- The offset θ in 1/16 Beat from the four stamps (R346). -/
def thetaOf (t1 t2 t3 t4 : W64) (asym : W32) : Int := 8 * ((t2 - t1).toInt - (t4 - t3).toInt) - asym.toInt

/-- A quotient of integers where the spec states no rounding: the next lower or, by a free choice, the next higher.
(DESIGN CHOICE, log 98.) -/
def divFree (a b : Int) (s : State) : Int × State :=
  if a % b = 0 then (a / b, s)
  else
    let d := s.draw
    (a / b + d.1.toNat % 2, d.2)

/-- A rate trim in parts per billion within ±100 ppm (R347). -/
def clampTrim (x : Int) : Int := max (-100000) (min 100000 x)

/-- The exchange interval in µs. -/
def syncInterval (s : State) : Nat := s.fld Reg.beatSyncInterval 15 0

/-- The correction of R347: whether the Beat was stepped, and the state. (DESIGN CHOICE, log 95; DEDUCED, log 99.) -/
def correctBeat (theta : Int) (s : State) : Bool × State :=
  let setTrim (x : Int) (s : State) : State := s.modBt fun b => { b with trim := BitVec.ofInt 32 (clampTrim x) }
  if theta.natAbs ≤ 16000 then
    let q := divFree (theta * 62500) (syncInterval s) s
    (false, setTrim q.1 q.2)
  else if ringsOff s = true ∧ s.flag Reg.beatStatus 2 = false then
    let q := divFree theta 16 s
    let s : State := { q.2 with beat := q.2.beat + BitVec.ofInt 64 q.1 }
    (true, dropLate ((s.setFlag Reg.beatFault 0).count 0x006 1))
  else
    let s := setTrim (if theta < 0 then -100000 else 100000) s
    (false, beatLog (ctrlDie s) ((s.setFlag Reg.beatFault 4).setFlag Reg.beatStatus 1))

/-- LOCKED after an exchange (R348). -/
def noteLock (theta : Int) (s : State) : State :=
  let good := if theta.natAbs ≤ 32 then s.bt.good + 1 else 0
  let s := s.modBt fun b => { b with good := good }
  if 3 ≤ good then s.setFlag Reg.beatStatus 0
  else if 256 < theta.natAbs then s.clearFlag Reg.beatStatus 0
  else s

/-- LOCKED is lost, and the loss noted, when no exchange has completed for ten intervals; the last trim stays (R348).
(DEDUCED, log 100.) -/
def noteLoss (s : State) : State :=
  if s.bt.lost = false ∧ 10 * (1000 * syncInterval s) ≤ (s.beat - s.bt.lastDone).toNat then
    ((s.clearFlag Reg.beatStatus 0).setFlag Reg.beatFault 3).modBt fun b => { b with lost := true }
  else s

/-- The Beat's next count (R341, R347): the trim gathers, and withholds or doubles single counts of the reference.
(DESIGN CHOICE, log 95.) -/
def nextCount (s : State) : State :=
  let g := s.bt.slew + s.bt.trim.toInt
  let n : Int := if 1000000000 ≤ g then 2 else if g ≤ -1000000000 then 0 else 1
  let s : State := { s with beat := s.beat + BitVec.ofInt 64 n }
  s.modBt fun b => { b with slew := g - 1000000000 * (n - 1) }

/-- A SYNC_RSP arrives on a link (R346 to R348): it completes the outstanding exchange. (DEDUCED, log 97.) -/
def syncAnswer (l : Nat) (m : RunMsg) (s : State) : State :=
  let word (o : Nat) : W64 := BitVec.ofNat 64 (ofBytes ((m.data.drop o).take 8))
  match s.bt.waiting with
  | none => s
  | some (x, t1) =>
    if ofBytes ((m.data.drop 2).take 2) ≠ x.toNat ∨ word 8 ≠ t1 then s
    else
      let theta := thetaOf t1 (word 16) (word 24) (s.copyOf (56 + l % 16 / 4)) (s.reg Reg.beatAsym)
      let s := s.modBt fun b => { b with theta := BitVec.ofInt 32 theta, waiting := none }
      let r := correctBeat theta s
      let s := noteLock theta (r.2.modBt fun b => { b with lastDone := r.2.beat, lost := false })
      let j := l % 16 / 4
      traceEmit 0x85 (56 + j) (0x500 + j) none
        ((BitVec.ofInt 32 theta).toNat + s.bt.trim.toNat <<< 32 + b2n r.1 <<< 64) s

/-- A parent answers a SYNC_REQ (R346): T2 is the arrival at the runner die of its link, and T3 is written as the answer's
frame leaves. (DEDUCED, log 97.) -/
def syncRequest (l : Nat) (m : RunMsg) (s : State) : State :=
  barSend
    { opc := 0x38, vc := 7, dest := m.src, src := ownId s,
      data := toBytes 1 2 ++ toBytes 1 0 ++ (m.data.drop 2).take 2 ++ toBytes 4 0 ++ (m.data.drop 8).take 8
        ++ toBytes 8 (s.copyOf (56 + l % 16 / 4)).toNat ++ toBytes 8 0 } s

/-- The device sends a SYNC_REQ to its parent (R346); T1 is written as its frame leaves. -/
def syncSend (s : State) : State :=
  let x := s.fld Reg.beatCtl 1 0
  let minus := s.flag Reg.beatCtl 2
  let n := s.bt.exchange
  let m : RunMsg :=
    { opc := 0x38, vc := 7, dest := neighbourId s x minus, src := ownId s,
      data := toBytes 1 1 ++ toBytes 1 0 ++ toBytes 2 n.toNat ++ toBytes 4 0 ++ toBytes 24 0 }
  neighbourSend x minus m (s.modBt fun b =>
    { b with waiting := some (n, 0), exchange := n + 1, lastSent := s.beat })

/-! ## Strike targets (R351) -/

/-- The device id at the root of the job's barrier tree (R306). -/
def treeRoot (s : State) : Nat := (upFrom 0 4).foldl (fun id x => withCoord id x (jobRange s x).1) 0

/-- A STRIKE_SET reaches the device: it goes on down the tree, and is applied while ENABLE is 1. -/
def strikeSetArrives (l : Nat) (m : RunMsg) (s : State) : State :=
  let target := m.data.take 8
  let s := forEach (fun k s => barSend { m with dest := k } s) (barChildren s 0xF) s
  if s.flag Reg.beatSsCtl 12 = false then s
  else
    let s := s.modBt fun b => { b with strike := some (BitVec.ofNat 64 (ofBytes target)) }
    let s := s.setReg Reg.beatSsCount (s.reg Reg.beatSsCount + 1)
    let s := eventAdd (s.fld Reg.beatSsCtl 11 0) 1 (s.count 0x007 1)
    logRecord (if l < 16 then l else 17) 6 0 (s.copyOf (56 + l % 16 / 4)) (target ++ toBytes 2 m.src) s

/-- A write of BEAT_SS_SEND_HI sends the target to the root of the tree. -/
def strikeSetSend (v : W32) (s : State) : State :=
  let s := storeReg Reg.beatSsSendHi v s
  let m : RunMsg :=
    { opc := 0x24, vc := 0, dest := treeRoot s, src := ownId s,
      data := toBytes 4 (s.reg Reg.beatSsSendLo).toNat ++ toBytes 4 v.toNat }
  runSend m s

end Sys2Proof.Machine
end

