-- ==== Sys2Proof/Machine/Runner.lean ====
section
/-! DEFINITION. What an arriving runner message does, and the rise and fall of a link (R78, R206, R207, R290 to R302,
R305, R308, R328, R334, R346, R351, R366, R377, R383, R429, R432, R453). -/

namespace Sys2Proof.Machine

/-- The SOURCE of a link's runner die (Table 2.3). -/
def runSource (l : Nat) : Nat := 0x500 + l % 16 / 4

/-! ## Writes of arriving data -/

/-- Why a destination refuses a write of `n` bytes (R300): the status and the refused address, which for register space
(R247) is the first one in it. (DEDUCED, log 103.) -/
def writeRefusal (s : State) (ext : Ext) (va n : Nat) : Option (Nat × Option Nat) :=
  if hitsRegSpace va n then some (0x16, some (max va 0x020000000000))
  else match (pieces va n).findSome? fun p =>
      match translate s .write p.1 with
      | none => some (0x16, none)
      | some (pa, _) =>
        match place s pa with
        | .scratch _ | .companion _ => none
        | .hbm a => if pageRetired s a then some (0x17, some pa) else none
        | _ => some (0x16, some pa) with
  | some r => some r
  | none => if unmappedSectors s ext va n then some (0x16, none) else none

/-- What the refusing unit reports (R51, R82, R247). -/
def reportRefusal (pa : Nat) (s : State) : State :=
  match place s pa with
  | .regs off => errLog 0x44 0x900 (off + 1 <<< 40) s
  | .hbm a => reportRetired a s
  | .window => errLogOther (0x700 + homeSlice s pa) (s.setFlag Reg.cruErrStatus 3)
  | _ => s

/-- Counts a message of a link that is refused or discarded (Table 11.4); the local path is no link. -/
def countRefused (l : Nat) (s : State) : State := if l < 16 then s.count (0x100 + 8 * l + 7) 1 else s

/-- Refuses a message of a link (R300): the refusing unit reports the address, and NAK answers. -/
def refuseMsg (l : Nat) (m : RunMsg) (r : Nat × Option Nat) (s : State) : State :=
  let s := match r.2 with
    | some pa => reportRefusal pa s
    | none => s
  runSend (nakOf (ownId s) m r.1) (countRefused l s)

/-- Discards a message of a link and counts it. -/
def discardMsg (l : Nat) (s : State) : State := dropCount (countRefused l s)

/-- Answers an ACK_REQ message with WACK (R301). -/
def sendWack (m : RunMsg) (s : State) : State :=
  if m.ackReq then
    runSend { opc := 0x06, vc := 0, dest := m.src, src := ownId s, stream := m.stream, addr := 1, ring := m.ring, seq := m.seq } s
  else s

/-- Writes a message's data with its poison (R85, R293). -/
def writeData (ext : Ext) (m : RunMsg) (s : State) : State :=
  (storeVirt ext {} (fun _ => true) (inParts (blobOf m).bad) m.addr m.data (settleFills s)).2

/-- Performs a write, or refuses it whole. -/
def arriveWrite (ext : Ext) (l : Nat) (m : RunMsg) (go : State → State) (s : State) : State :=
  match writeRefusal s ext m.addr m.data.length with
  | some r => refuseMsg l m r s
  | none => go (writeData ext m s)

/-- PUT, SQ_DATA and CKPT. -/
def arrivePut (ext : Ext) (l : Nat) (m : RunMsg) (s : State) : State := arriveWrite ext l m (sendWack m) s

/-- PUT_FLAG (R207): the flag follows the data; a flag that cannot be written refuses the message whole. -/
def arrivePutFlag (ext : Ext) (l : Nat) (m : RunMsg) (s : State) : State :=
  let fa := bits m.x 47 0
  match writeRefusal s ext fa 8 with
  | some r => refuseMsg l m r s
  | none =>
    arriveWrite ext l m (fun s => sendWack m (writeVirt ext {} (fun _ => true) fa (toBytes 8 (bits m.x 127 64)) s).2) s

/-! ## Stage queues (R76, R77) -/

/-- SQ_PUBLISH at the consumer: entries are shown in the order of their reservations. (DESIGN CHOICE, log 24;
DEDUCED, log 102.) -/
def arrivePublish (m : RunMsg) (s : State) : State :=
  let q := m.hi / 4
  if sqHas s q 2 = false then s
  else
    let base := s.fld (Reg.sqBaseHi q) 15 0 * 2 ^ 32 + s.fld (Reg.sqBaseLo q) 31 12 * 4096
    let e : SqEntry :=
      { first := (m.addr - base) / sqSlot s q, count := bytesAt m.data 8 8, len := some (BitVec.ofNat 64 (bytesAt m.data 0 8)) }
    sqArrive q e s

/-- SQ_CREDIT at the producer. (DEDUCED, log 102.) -/
def arriveCredit (m : RunMsg) (s : State) : State :=
  let q := m.hi / 4
  if sqHas s q 1 then s.modSq q fun k => { k with used := k.used - m.seq } else s

/-! ## Acknowledgements and refusals (R300, R301) -/

/-- WACK: the count of its core or command falls. -/
def arriveWack (ext : Ext) (m : RunMsg) (s : State) : State :=
  let n := m.addr % 2 ^ 16
  forEach (fun c s =>
    match Cb.opcode c.body with
    | 0x01 =>
      let core := s.core m.stream
      if core.disp = some c.uid then
        retryCore m.stream (s.modCore m.stream fun k => { k with putsOut := k.putsOut - n })
      else s
    | 0x03 =>
      match s.coll c.uid with
      | some k =>
        let s := s.setColl c.uid { k with acks := k.acks - n }
        if k.desc.op = 8 ∧ k.acks ≤ n then collDone ext c.uid s else s
      | none => s
    | 0x02 | 0x0E | 0x10 => modCmd m.ring c.uid (fun c => { c with acks := c.acks - n }) s
    | _ => s) (cmdsAt s m.ring (BitVec.ofNat 32 m.seq)) s

/-- The opcode belongs to messages that carry the ring and number of a command. -/
def ofCommand (opc : Nat) : Bool := [0x01, 0x02, 0x03, 0x04, 0x10, 0x11, 0x12, 0x13, 0x14, 0x18, 0x30].contains opc

/-- NAK: the named command ends with the status; for one that has ended, or for none, an error log is posted.
(DEDUCED, log 106.) -/
def arriveNak (ext : Ext) (l : Nat) (m : RunMsg) (s : State) : State :=
  let st := m.addr % 256
  let d := s.draw
  let log := errLog (0x40 + d.1.toNat % 32) (runSource l) (m.ring + st <<< 8 + (m.seq % 2 ^ 32) <<< 32) d.2
  if m.hi = 0x20 then (if (s.bar m.seq).own = [] then log else barRefused ext m.seq st s)
  else if ofCommand m.hi then
    match cmdsAt s m.ring (BitVec.ofNat 32 m.seq) with
    | [] => log
    | l => forEach (fun c s => endCommand ext m.ring c st s) l s
  else log

/-! ## Reductions and multicasts -/

/-- Why the owner refuses a contribution (R217, R236, R247, R300): the status and the refused address. -/
def raccRefusal (s : State) (m : RunMsg) : Option (Nat × Option Nat) :=
  let n := 4 * ((m.elems.map fun e => e.idx + 1).foldl max 0)
  if hitsRegSpace m.addr n then some (0x16, some (max m.addr 0x020000000000))
  else (pieces m.addr n).findSome? fun p =>
    match translate s .write p.1 with
    | none => some (0x16, none)
    | some (pa, _) =>
      match place s pa with
      | .hbm a =>
        if inAperture s a ∨ inAperture s (a + p.2 - 1) then some (0x16, none)
        else if pageRetired s a then some (0x17, some pa) else none
      | .window => some (0x16, some pa)
      | _ => some (0x16, none)

/-- RACC. -/
def arriveRacc (l : Nat) (m : RunMsg) (s : State) : State :=
  match raccRefusal s m with
  | some r => refuseMsg l m r s
  | none => redMessage m s

/-- RING_PART (R317, R318): one that meets no operation, which only a vetoed step leaves, is discarded. (DEDUCED,
log 105.) -/
def arrivePart (ext : Ext) (m : RunMsg) (s : State) : State :=
  match ringOpOf s (RedX.red m.x) with
  | some (uid, k) => ringPart ext uid k m s
  | none => dropCount s

/-- The axis and direction from which a link's messages come. -/
def arrivalSide (s : State) (l : Nat) : Nat × Bool :=
  let p := s.fld (Reg.runPortmap l) 19 16
  (p / 4, bit p 1)

/-- A multicast goes one hop further in its direction while hops remain (R305). -/
def castOn (l : Nat) (m : RunMsg) (s : State) : State :=
  if m.hi = 0 then s
  else
    let side := arrivalSide s l
    let minus := !side.2
    let m : RunMsg := { m with hi := m.hi - 1, dest := neighbourId s side.1 minus }
    if quietDrops s m then discardMsg l s else takeHop m (hopTo s (some side.1) side.1 minus m) s

/-- MCAST (R305). (DEDUCED, log 104.) -/
def arriveCast (ext : Ext) (l : Nat) (m : RunMsg) (s : State) : State :=
  arriveWrite ext l m (fun s => castWritten ext m (castOn l m s)) s

/-! ## Vetoes (R326 to R328, R334) -/

/-- A VETO whose pair is not among the last 16 seen goes on over every port (R328). -/
def passVeto (m : RunMsg) (s : State) : State :=
  let p := (bytesAt m.data 4 2, bytesAt m.data 0 4)
  if s.vetoesSeen.contains p then s else sendAllPorts m { s with vetoesSeen := seen16 p s.vetoesSeen }

/-- The step after this one is vetoed already (R334). -/
def vetoNext (m : RunMsg) (s : State) : State :=
  if s.flag Reg.trnStatus 2 then s else writeStepWord { s.setFlag Reg.trnStatus 2 with nextVeto := m.data }

/-- VETO (R326, R328, R334). (DEDUCED, log 56.) -/
def arriveVeto (ext : Ext) (m : RunMsg) (s : State) : State :=
  let step := bytesAt m.data 0 4
  if bytesAt m.data 4 2 ≠ s.fld Reg.runJob 15 0 ∨ s.flag Reg.trnCtl 0 = false then passVeto m s
  else
    let now := (s.reg Reg.trnStep).toNat
    if step = now then vetoStep ext 4 m.data (passVeto m s)
    else if step = (now + 1) % 2 ^ 32 then vetoNext m (passVeto m s)
    else s.setFlag Reg.trnErr 2

/-! ## Delivery -/

/-- A delivered message takes effect by its opcode. -/
def takeEffect (ext : Ext) (l : Nat) (m : RunMsg) (s : State) : State :=
  match m.opc with
  | 0x01 | 0x03 | 0x30 => arrivePut ext l m s
  | 0x02 => arrivePutFlag ext l m s
  | 0x04 => arrivePublish m s
  | 0x05 => arriveCredit m s
  | 0x06 => arriveWack ext m s
  | 0x10 => arriveRacc l m s
  | 0x11 | 0x12 | 0x13 => redMessage m s
  | 0x14 => arrivePart ext m s
  | 0x18 => arriveCast ext l m s
  | 0x20 => barArrived ext m s
  | 0x21 => barReleased ext m s
  | 0x22 => barWithdrawn m s
  | 0x23 => arriveVeto ext m s
  | 0x24 => strikeSetArrives l m s
  | 0x38 => if bytesAt m.data 0 1 = 1 then syncRequest l m s else if bytesAt m.data 0 1 = 2 then syncAnswer l m s else s
  | 0x3E => arriveNak ext l m s
  | _ => s

/-- A message cannot be taken yet and stays in its buffer (R88, R306, R307, R317, R443). (DEDUCED, log 105.) -/
def mustWait (s : State) (m : RunMsg) : Bool :=
  match m.opc with
  | 0x10 | 0x11 | 0x12 => stalls s m || cruHolds s
  | 0x14 => ((ringOpOf s (RedX.red m.x)).isNone && !vetoActs s) || cruHolds s
  | 0x20 => barStalls s m
  | 0x01 | 0x02 | 0x03 | 0x18 | 0x30 => cruHolds s || rangeHeld s m.addr m.data.length
  | _ => false

/-- A message that fails its end-to-end check is delivered as poison and reported (R293). -/
def checkE2e (l : Nat) (m : RunMsg) (s : State) : RunMsg × State :=
  if m.e2eOk then (m, s)
  else
    let n := s.fld (Reg.runLinkErr l) 31 24
    let s := (s.setFld (Reg.runLinkErr l) 31 24 (min (n + 1) 0xFF)).count (0x100 + 8 * l + 6) 1
    ({ m with poison := BitVec.allOnes 64 }, errLogOther (runSource l) s)

/-- The receive buffer of a message is free again: its units are returned. -/
def freeUnits (l : Nat) (m : RunMsg) (s : State) : State :=
  s.modLink l fun k => { k with returned := Tab.modify 0 k.returned (m.vc % 8) (· + msgUnits m) }

/-- A message for this device leaves its receive buffer and takes effect. -/
def deliver (ext : Ext) (l : Nat) (m : RunMsg) (s : State) : State :=
  let r := checkE2e l m (freeUnits l m s)
  takeEffect ext l r.1 r.2

/-- Messages of one stream, source and channel are delivered in the order sent (R298). -/
def sameStream (a b : RunMsg) : Bool := a.src == b.src && a.stream == b.stream && a.vc == b.vc

/-- A message for this device is delivered, or waits in its buffer: it cannot be taken yet, or an earlier one of its
stream waits. -/
def deliverOrWait (ext : Ext) (l : Nat) (b : W64) (m : RunMsg) (s : State) : State :=
  if mustWait s m || (s.link l).rx.any fun w => sameStream w.msg m then
    s.modLink l fun k => { k with rx := k.rx ++ [{ beat := b, msg := m, ext := ext }] }
  else deliver ext l m s

/-- The waiting messages of a link are tried again, in order of arrival. -/
def drainRx (l : Nat) (s : State) : State :=
  match (s.link l).rx with
  | [] => s
  | old => forEach (fun w s => deliverOrWait w.ext l w.beat w.msg s) old (s.modLink l fun k => { k with rx := [] })

/-- A message has come in on a link (R242, R297, R366, R377, R453): it is recorded, and discarded, sent on, or
delivered. `live` tells it from one of a replayed log. -/
def linkMessage (ext : Ext) (live : Bool) (l : Nat) (m : RunMsg) (s : State) : State :=
  if live && s.flag Reg.beatStatus 2 then countRefused l s
  else
    let s := logRunner l m (s.count (0x100 + 8 * l + 1) ((32 * msgUnits m + 63) / 64))
    let unsealed := s.sealed && 1 ≤ m.vc && m.vc ≤ 6 && !s.flag (Reg.runLinkStatus l) 28
    if unsealed || quietDrops s m || !idInSystem s m.dest then discardMsg l (freeUnits l m s)
    else if m.dest ≠ ownId s then route (some (arrivalSide s l).1) m (freeUnits l m s)
    else drainRx l (deliverOrWait ext l (s.copyOf (56 + l / 4)) m s)

/-- A message arrives: on link `l`, or at the end of the local path (`l` = 16), where it must be the first of its stream and
channel. (DESIGN CHOICE, log 2.) -/
def arrive (ext : Ext) (l : Nat) (m : RunMsg) (s : State) : State :=
  if l = 16 then
    match s.localPath.find? fun x => x.stream == m.stream && x.vc == m.vc with
    | some x =>
      if x ≠ m ∨ mustWait s m = true then s
      else takeEffect ext 16 m { s with localPath := eraseFirst (fun x => x == m) s.localPath }
    | none => s
  else if l < 16 ∧ linkUp s l = true then linkMessage ext true l m s
  else s

/-! ## Links that come and go -/

/-- The links or the substitution table have changed: remote stage queues may have lost their partners. -/
def checkPeers (s : State) : State := forEach checkPeer (upFrom 0 256) s

/-- Every link that joins the device to a neighbour is down, and the neighbour belongs to the job: a flood begins (R452). -/
def neighbourLost (ext : Ext) (peer : Nat) (s : State) : State :=
  let mine (l : Nat) : Bool := s.fld (Reg.runPortmap l) 12 0 == peer && s.fld (Reg.runLinkStatus l) 31 30 != 3
  if inJobSet s peer && (upFrom 0 16).all (fun l => !mine l || s.fld (Reg.runLinkStatus l) 31 30 == 0) then
    beginFlood ext 3 s
  else s

/-- A message of a link that carries no more goes out on the other link of its port pair, or is refused (R298, R300). -/
def resend (l : Nat) (m : RunMsg) (s : State) : State :=
  if quietDrops s m then dropCount s
  else match (linkOfPort s (Nat.xor (s.fld (Reg.runPortmap l) 19 16) 1)).filter (linkTakes s m) with
    | some k => linkSend k m s
    | none => refuseHop m s

/-- The messages of a link move to the other link: unacknowledged ones first. (DEDUCED, log 107.) -/
def moveTraffic (l : Nat) (s : State) : State :=
  let k := s.link l
  let s := s.modLink l fun k =>
    { k with unacked := [], waiting := [], owed := [], turn := [], training := false, failures := 0, nakDue := false,
             sealFails := [] }
  forEach (resend l) (k.unacked.map (·.2) ++ k.waiting) s

/-- A link is taken down, by a cause of Table 14.6 (R291, R292, R383). -/
def linkDown (ext : Ext) (l cause : Nat) (s : State) : State :=
  let peer := s.fld (Reg.runPortmap l) 12 0
  let s := s.setFld (Reg.runLinkStatus l) 31 30 0
  let s := errLog 0x42 (runSource l) (l + s.fld (Reg.runPortmap l) 19 16 <<< 8 + peer <<< 16 + cause <<< 32) s
  neighbourLost ext peer (checkPeers (moveTraffic l s))

/-- A retrain begins: the link's traffic is held without loss (R291). -/
def linkRetrain (l : Nat) (s : State) : State :=
  let n := s.fld (Reg.runLinkErr l) 23 16
  let s := (s.setFld (Reg.runLinkErr l) 23 16 (min (n + 1) 0xFF)).setFld (Reg.runLinkStatus l) 31 30 1
  s.modLink l fun k => { k with training := true, failures := 0 }

/-- A lane of a link is replaced by a spare (R432), or the Regulator advises it (R441). (DEDUCED, log 74.) -/
def spareLane (l lane : Nat) (s : State) : State :=
  let die := 56 + l / 4
  let index := l % 4 * 18 + lane
  if policyFlag s 0 then laneIn die index s else advise 10 die index s

/-- A retrain ends (R291, R292, R432): `failed` are the lanes that it found to be replaced. (DEDUCED, log 109.) -/
def retrainDone (ext : Ext) (l : Nat) (ok : Bool) (failed : List Nat) (s : State) : State :=
  if ok = false then linkDown ext l 0 s
  else
    let good := s.fld (Reg.runLinkStatus l) 20 16 - failed.length
    let s := forEach (spareLane l) failed (s.setFld (Reg.runLinkStatus l) 20 16 good)
    if good < 16 ∨ (failed ≠ [] ∧ policyFlag s 0 = false) then linkDown ext l 1 s
    else
      let s := (s.setFld (Reg.runLinkStatus l) 31 30 2).modLink l fun k => { k with training := false, lastAck := s.beat }
      drainLink l s

/-- A frame that fails its CRC or its seal trailer (R291, R383): a retrain at the eighth failure of one frame. -/
def badRunFrame (ext : Ext) (l : Nat) (sealed : Bool) (s : State) : State :=
  let n := s.fld (Reg.runLinkErr l) 7 0
  let s := (s.setFld (Reg.runLinkErr l) 7 0 (min (n + 1) 0xFF)).count (0x100 + 8 * l + 2) 1
  let old := (s.link l).sealFails.filter fun b => (s.beat - b).toNat < second
  let fails := if sealed then old ++ [s.beat] else old
  let s := s.modLink l fun k => { k with failures := k.failures + 1, nakDue := true, sealFails := fails }
  if 4 ≤ fails.length then linkDown ext l 2 s
  else if 8 ≤ (s.link l).failures then linkRetrain l s
  else s

/-- The messages behind an acknowledged frame number are delivered at the far end. -/
def acknowledge (l ack : Nat) (s : State) : State :=
  let u := (s.link l).unacked
  if u.any fun e => e.1 == ack then
    let rest := (u.dropWhile fun e => e.1 != ack).drop 1
    s.modLink l fun k => { k with unacked := rest, lastAck := s.beat }
  else s

/-- The frames that the sender keeps are sent again, in order, after a NAK (R291). -/
def replayLink (l : Nat) (s : State) : State :=
  let u := (s.link l).unacked
  let n := s.fld (Reg.runLinkErr l) 15 8
  let s := (s.setFld (Reg.runLinkErr l) 15 8 (min (n + u.length) 0xFF)).count (0x100 + 8 * l + 3) u.length
  { s with runOut := s.runOut ++ u.map fun e => (l, e.2) }

/-- The far end returns units of its receive buffers (R295). -/
def takeCredits (l : Nat) (credits : List Nat) (s : State) : State :=
  forEach (fun v s =>
    let n := credits.getD v 0
    (s.setFld (Reg.runVcCredit l v) 15 0 (min (credit s l v + n) 0xFFFF)).modLink l fun k =>
      { k with owed := payOwed v n k.owed }) (upFrom 0 8) s

/-- A good frame: ACK, NAK, FEC corrections and credits. -/
def goodRunFrame (l : Nat) (f : RunnerFrame) (s : State) : State :=
  let sealed := s.flag (Reg.runLinkStatus l) 28
  let s := s.modLink l fun k =>
    { k with rxSeq := (k.rxSeq + 1) % 4096, failures := 0, nakDue := false,
             sealRx := if sealed then k.sealRx + 1 else k.sealRx }
  let s := (s.addSat (Reg.runFecCorr l) f.fec).count (0x100 + 8 * l + 4) f.fec
  let s := acknowledge l f.ack s
  drainLink l (takeCredits l f.credits (if f.nak then replayLink l s else s))

/-- A runner frame arrives (R290, R291): one that is out of order, while an earlier one is awaited again, is
discarded. -/
def runnerFrame (ext : Ext) (l : Nat) (f : RunnerFrame) (s : State) : State :=
  let sealedLink := s.flag (Reg.runLinkStatus l) 28
  if f.crcOk = false then badRunFrame ext l false s
  else if sealedLink && f.ftype == 0 && !f.sealOk then badRunFrame ext l true s
  else if 2 ≤ f.ftype ∨ f.seq ≠ (s.link l).rxSeq then s
  else goodRunFrame l f s

/-! ## Registers of the links -/

/-- A posted write of RUN_LINK_CTL takes effect (R252, R291, R302, R475). RETRAIN reads 0. -/
def linkCtlApply (ext : Ext) (l : Nat) (v : W32) (s : State) : State :=
  let off := Reg.runLinkCtl l
  let was := s.flag off 0
  let on := v.getLsbD 0
  let s := storeReg off (v &&& ~~~2#32) s
  if s.fld (Reg.runLinkStatus l) 31 30 = 3 then s
  else if on = false then
    if was then
      let peer := s.fld (Reg.runPortmap l) 12 0
      neighbourLost ext peer (checkPeers (moveTraffic l (s.setFld (Reg.runLinkStatus l) 31 30 0)))
    else s
  else if was = false then
    (s.setFld (Reg.runLinkStatus l) 31 30 1).modLink l fun k =>
      { returned := k.returned, rx := k.rx, sealTx := k.sealTx, sealRx := k.sealRx }
  else
    let s := if v.getLsbD 2 then checkPeers (moveTraffic l s) else s
    if v.getLsbD 1 ∧ s.fld (Reg.runLinkStatus l) 31 30 = 2 then linkRetrain l s
    else if s.fld (Reg.runLinkStatus l) 31 30 = 0 ∧ v.getLsbD 1 then s.setFld (Reg.runLinkStatus l) 31 30 1
    else s

/-- Link training ends (R38, R302, R412): a peer with the wrong id, or the wrong port, which must be the one of the
opposite direction, holds the link down. (DEDUCED, log 110.) -/
def trainDone (l : Nat) (ok : Bool) (peerId peerPort lanes : Nat) (credits : List Nat) (s : State) : State :=
  let off := Reg.runLinkStatus l
  if ok = false ∨ lanes < 16 then (s.setFld off 31 30 0).setFld off 20 16 (min lanes 18)
  else
    let s := ((s.setFld off 12 0 peerId).setFld off 27 24 peerPort).setFld off 20 16 (min lanes 18)
    if s.fld off 12 0 ≠ s.fld (Reg.runPortmap l) 12 0 then (s.setFld off 31 30 0).setFlag off 29
    else if s.fld off 27 24 ≠ Nat.xor (s.fld (Reg.runPortmap l) 19 16) 2 then (s.setFld off 31 30 0).clearFlag off 29
    else
      let s := (s.setFld off 31 30 2).clearFlag off 29
      let first (v : Nat) : Nat := min (credits.getD v 0) 0xFFFF
      let s := forEach (fun v s => s.setFld (Reg.runVcCredit l v) 15 0 (first v)) (upFrom 0 8) s
      drainLink l (s.modLink l fun k =>
        { k with lastAck := s.beat, total := (upFrom 0 8).foldl (fun t v => Tab.set 0 t v (first v)) [], owed := [] })

/-- A write of RUN_JOB_SET (R496): dropped when a LOW lies above its HIGH, a HIGH beyond its axis, or the device outside. -/
def jobSetWrite (v : W32) (s : State) : State :=
  let t := storeReg Reg.runJobSet v s
  let ok := (upFrom 0 4).all fun x => (jobRange t x).1 ≤ (jobRange t x).2 && (jobRange t x).2 < axisSize t x
  if ok && inJobSet t (ownId t) then t else rangeDrop s

/-- A write of a route substitution entry (R302). -/
def substWrite (off : Nat) (v : W32) (s : State) : State := checkPeers (storeReg off v s)

end Sys2Proof.Machine
end

