-- ==== Sys2Proof/Machine/Resets.lean ====
section
/-! DEFINITION. Compute resets, device resets and wipes (R163, R168, R374, R376, R391 to R393, R449, R450, Tables 12.10
and 14.4), and the steps of bring-up that every state shares (R459, R476). -/

namespace Sys2Proof.Machine

/-! ## Life-cycle -/

/-- The owner key in force: that of the committed, unrevoked slot (R404). -/
def Storage.owner (a : Storage) : Option W256 := (a.owners.find? fun o => o.key.isSome && !o.revoked).bind (·.key)

/-- The life-cycle state that Assay storage gives (R399). -/
def Storage.state (a : Storage) : Nat :=
  if majority a.retiredCells then 4
  else if majority a.provCells then (if a.owner.isSome then 3 else 2)
  else if majority a.testCells then 1
  else 0

/-! ## Compute reset (R449) -/

/-- What a compute reset leaves of a core (R163, R168): its registers, tiles, planes, buffers and tile state are gone;
its counts stay. (DEDUCED, log 118.) -/
def Core.computeReset (k : Core) : Core :=
  let mode : CoreMode := match k.mode with
    | .outOfService => .outOfService
    | .resetting => .resetting
    | _ => .idle
  { k.zeroed with mode := mode, planes := [], tileLo := 0, tileHi := 0, took := false, tilePairs := [], endPairs := [],
                  putsOut := 0, disp := none, restart := false, prev := k.prev || k.mode == .running }

/-- A held access that a compute reset drops: of a core, or of a ring. -/
def Held.ofReset : Held → Bool
  | .core _ | .tail _ => true
  | _ => false

/-- The edge of a compute reset (Table 14.4). -/
def computeEdge (s : State) : State :=
  let s := forEach (fun c s => s.modCore c Core.computeReset) (s.cores.map (·.1)) s
  let s := closeAllRecs (forEach resetRing allRings s)
  { s with disps := [], colls := [], early := [], bars := [], gateSent := s.gateSent && s.flag Reg.trnStatus 1,
           mwSince := none, mwBroken := false, held := s.held.filter fun h => !h.ofReset,
           win := { s.win with misses := s.win.misses.map (fun m => { m with waiters := [] }), pass := [] },
           spr := { s.spr with reqs := s.spr.reqs.map fun e => (e.1, e.2.map fun q => { q with waiters := [] }),
                               snoops := s.spr.snoops.map fun m => { m with waiters := [] } },
           dbg := { s.dbg with halted := [], stepping := [] },
           replay := { s.replay with stale := false } }

/-- The flood of a reset (R449, R452): before it takes effect, with FLOOD_ON_RESET set. -/
def floodOnReset (ext : Ext) (s : State) : State := if s.flag Reg.rsrCtl 0 then beginFlood ext 4 s else s

/-- A compute reset begins: BUSY is 1 until it completes. -/
def computeReset (ext : Ext) (s : State) : State := (computeEdge (floodOnReset ext s)).setFlag Reg.rsrStatus 8

/-! ## Wipes (R391, R392) -/

/-- Nothing of a core's work survives a wipe; a core out of service or in a per-core reset stays so. -/
def Core.wiped (k : Core) : Core :=
  { mode := match k.mode with
      | .outOfService => .outOfService
      | .resetting => .resetting
      | _ => .idle,
    faulted := k.faulted, faultAct := k.faultAct }

/-- An address of firmware's regions of HBM (R392, R470). -/
def inFirmware (s : State) (a : Nat) : Bool := s.fwBase * 2 ^ 21 ≤ a && a < (s.fwBase + 1024) * 2 ^ 21

/-- What a wipe leaves of a link (Table 12.10): the retry buffers and the messages that wait are cleared. -/
def Link.wiped (k : Link) : Link := { k with unacked := [], waiting := [], rx := [] }

/-- A seal wipe's effect (Table 12.10): HBM but firmware's regions, the Crucible, core and engine state, counters, the
latch bank and the event slots; links and the Beat are kept. (DEDUCED, log 63; DEDUCED, log 120.) -/
def sealWipe (s : State) : State :=
  let s := forEach (fun c s => s.modCore c Core.wiped) (s.cores.map (·.1)) (wipeCrucible s)
  let s := forEach (fun l s => s.modLink l Link.wiped) (s.links.map (·.1)) s
  let s := forEach (fun i s => s.modStream i fun k => { k with buf := [] }) (s.streams.map (·.1)) s
  let s := forEach (fun i s => s.setReg (Reg.mbxData i) 0) (upFrom 0 4) s
  { s with mem := s.mem.filter (fun e => inFirmware s e.1), poison := s.poison.filter (fun e => inFirmware s (16 * e.1)),
           errs := s.errs.filter (fun e => inFirmware s (16 * e.1)),
           ctr := [], ctrT := [], events := [], bt := { s.bt with bank := [] }, rrGroups := [], localPath := [],
           spr := { s.spr with queued := [], unacked := [] },
           recs := s.recs.map fun e => (e.1, { state := .closed }) }

/-- A seal or full wipe starts: accesses are denied until it ends (R393), and the Crucible shows WIPE_ACTIVE. -/
def startWipe (w : Wipe) (s : State) : State := { s.setFlag Reg.cruStatus 1 with wiping := some w }

/-- A recording stops with a STOP mark, behind every record of the port buffers (R365, R374). -/
def stopRecording (s : State) : State :=
  if s.fld Reg.rrCtl 1 0 = 1 then (drainLog (logMark 1 0 s)).setFld Reg.rrCtl 1 0 0 |>.setFld Reg.rrStatus 3 0 0 else s

/-! ## Device reset (R450) and bring-up's own steps (R459, R476) -/

/-- BMI_ALERT_N is driven low: STATE or CODE has changed (R490). -/
def alert (s : State) : State := { s with boot := { s.boot with alertN := true } }

/-- The boot report (Table 15.4). -/
def bootReport (s : State) : List Byte :=
  toBytes 1 (s.fld Reg.glbState 3 0) ++ toBytes 1 s.boot.failState ++ toBytes 1 s.boot.code ++ toBytes 1 s.boot.ctrl
    ++ toBytes 2 (s.fld Reg.glbCap0 8 0) ++ toBytes 2 s.boot.newRetired ++ toBytes 4 s.boot.excluded.toNat ++ toBytes 4 0
    ++ toBytes 8 s.boot.detail.toNat ++ toBytes 8 s.beat.toNat

/-- The start of the boot area (R467). -/
def bootArea : Nat := 0x010000000000

/-- Writes into the boot area, which lies in scratch. -/
def bootWrite (off : Nat) (l : List Byte) (s : State) : State := (writePhys {} {} (fun _ => true) (bootArea + off) l s).2

/-- Reads the boot area. -/
def bootRead (off n : Nat) (s : State) : List Byte :=
  match (readPhys {} {} (bootArea + off) n s).1 with
  | .ok l => l
  | .error _ => List.replicate n 0

/-- Bring-up enters a state: BOOT_STATE, the management interface, and the boot report once the store dies run.
(DEDUCED, log 133.) -/
def enterState (n : Nat) (s : State) : State :=
  let s := if s.fld Reg.glbState 3 0 = n then s else alert s
  let s := s.setFld Reg.glbState 3 0 n
  if (n ≠ 0xF ∧ 3 ≤ n) ∨ (n = 0xF ∧ 3 ≤ s.boot.failState) then bootWrite 0x40 (bootReport s) s else s

/-- Notes a failure of the present state in the boot report. -/
def noteFailure (code detail : Nat) (s : State) : State :=
  alert { s with boot := { s.boot with failState := s.fld Reg.glbState 3 0, code := code, detail := BitVec.ofNat 64 detail } }

/-- A failure that ends bring-up: FAILED, with FAULT_N low. -/
def bootFail (code detail : Nat) (s : State) : State :=
  let s := noteFailure code detail s
  enterState 0xF { s with boot := { s.boot with faultN := true } }

/-- The state of bring-up. -/
def bootState (s : State) : Nat := s.fld Reg.glbState 3 0

/-- A die's fuses and wear outlast every reset. -/
def keptTele (t : Tab DieTele) : Tab DieTele :=
  t.foldl (fun n e => Tab.set {} n e.1 { fuses := e.2.fuses, wear := e.2.wear }) []

/-- Every unit is reset: what remains is what is fused, what the board drives, and the model's own record of what the
device has sent. The flood that a reset begins goes on in the frame headers. (DEDUCED, log 116.) -/
def coldState (s : State) : State :=
  { State.reset with
    pending := s.pending
    rdata := s.rdata
    free := s.free
    runOut := s.runOut
    spr := { out := s.spr.out }
    floodOut := s.floodOut
    floodSerial := s.floodSerial
    assay := { storageA := s.assay.storageA, storageB := s.assay.storageB }
    rgl := { entries := s.rgl.entries.filter (·.fused), tele := keptTele s.rgl.tele }
    boot := { rails := s.boot.rails, refclk := s.boot.refclk, resetN := s.boot.resetN, thermtripN := s.boot.thermtripN,
              refLost := s.boot.refLost, railFault := s.boot.railFault, alertN := s.boot.alertN } }

/-- Bring-up begins in CTRL_SELECT when RESET_N is high and the rails and the reference are good, and otherwise waits in
POWER (R479, R481). -/
def restart (s : State) : State :=
  let s := coldState s
  if s.boot.resetN && s.boot.rails && s.boot.refclk && !s.boot.refLost && !s.boot.railFault then enterState 1 s else alert s

/-- A device reset (R450), with the flood of R449. (DEDUCED, log 117.) -/
def deviceReset (ext : Ext) (s : State) : State := restart (floodOnReset ext s)

end Sys2Proof.Machine
end

