-- ==== Sys2Proof/Machine/AssayOps.lean ====
section
/-! DEFINITION. Assay's arithmetic and documents: HMAC and HKDF, random bytes, certificates, statements, Hallmarks, seal
manifests and their keys (R373, R398 to R415, Tables 12.4 and 13.4 to 13.8). -/

namespace Sys2Proof.Machine

/-! ## Bytes, HMAC and HKDF (R411) -/

/-- The number in `n` bytes at an offset. -/
def numAt (l : List Byte) (off n : Nat) : Nat := ofBytes ((l.drop off).take n)
/-- `n` bytes at an offset. -/
def cut (l : List Byte) (off n : Nat) : List Byte := (l.drop off).take n
/-- Every byte of a field is zero. -/
def zeroAt (l : List Byte) (off n : Nat) : Bool := (cut l off n).all (· == 0)
/-- The 32 bytes of a public key. -/
def keyBytes (k : W256) : List Byte := toBytes 32 k.toNat
/-- A public key from its bytes. -/
def keyOf (l : List Byte) : W256 := BitVec.ofNat 256 (ofBytes l)
/-- 32 zero bytes. -/
def zero32 : List Byte := List.replicate 32 0

/-- HMAC-SHA-256 (RFC 2104). (DESIGN CHOICE, log 20.) -/
def hmac (key msg : List Byte) : List Byte :=
  let k := if 64 < key.length then sha256 key else key
  let k := k ++ List.replicate (64 - k.length) 0
  sha256 (k.map (· ^^^ 0x5C#8) ++ sha256 (k.map (· ^^^ 0x36#8) ++ msg))

/-- The blocks of HKDF-Expand from block `i` on. -/
def hkdfBlocks (prk info : List Byte) : Nat → Nat → List Byte → List Byte
  | 0, _, _ => []
  | n + 1, i, prev =>
    let t := hmac prk (prev ++ info ++ toBytes 1 i)
    t ++ hkdfBlocks prk info n (i + 1) t

/-- HKDF-Extract (RFC 5869). -/
def hkdfExtract (salt ikm : List Byte) : List Byte := hmac salt ikm
/-- HKDF-Expand (RFC 5869). -/
def hkdfExpand (prk info : List Byte) (n : Nat) : List Byte := (hkdfBlocks prk info ((n + 31) / 32) 1 []).take n

/-- An ASCII label without a terminator. -/
def label (t : String) : List Byte := t.toList.map fun c => BitVec.ofNat 8 c.toNat

/-- `n` 64-bit words of the DRBG (R409): free values. -/
def drawBytes : Nat → State → List Byte × State
  | 0, s => ([], s)
  | n + 1, s =>
    let d := s.draw
    let r := drawBytes n d.2
    (toBytes 8 d.1.toNat ++ r.1, r.2)

/-! ## Certificates and statements (R404 to R406) -/

/-- Results of Table 13.11. -/
def rOk : Nat := 0
def rState : Nat := 1
def rFormat : Nat := 2
def rSignature : Nat := 3
def rKey : Nat := 4
def rChallenge : Nat := 5
def rSvn : Nat := 6
def rExhausted : Nat := 7
def rRefused : Nat := 8
def rAuth : Nat := 9
def rNoOffer : Nat := 10
def rFuse : Nat := 11
def rEntropy : Nat := 12

/-- Bytes of a statement, of a certificate and a debug token, and of a Hallmark. -/
def statementLen : Nat := 7984
def certLen : Nat := 7952
def hallmarkLen : Nat := 17600

/-- A signature under SLH-DSA-SHA2-128s. -/
def verifies (key : W256) (msg sig : List Byte) : Bool := Config.slhVerify false key msg sig

/-- The check of a certificate of a role issued by the root key (R406). -/
def certCheck (a : Storage) (role : Nat) (l : List Byte) : Nat :=
  let root := a.rootKey.getD 0
  if numAt l 0 2 ≠ 1 ∨ zeroAt l 4 4 = false ∨ zeroAt l 88 8 = false then rFormat
  else if numAt l 2 1 ≠ role ∨ numAt l 3 1 ≠ 1 ∨ cut l 56 32 ≠ sha256 (keyBytes root) then rKey
  else if verifies root (cut l 0 96) (cut l 96 7856) = false then rSignature
  else rOk

/-- The certified key. -/
def certKey (l : List Byte) : W256 := keyOf (cut l 24 32)

/-- The fields of a statement keep Table 13.4. -/
def statementOk (l : List Byte) : Bool :=
  let act := numAt l 3 1
  let arg := numAt l 4 4
  numAt l 0 2 == 1 && (numAt l 2 1 == 1 || numAt l 2 1 == 2) && 1 ≤ act && act ≤ 7
    && (if act == 7 then 1 ≤ arg && arg ≤ 64 else arg == 0)
    && (act == 2 || act == 3 || zeroAt l 56 32) && (act == 6 || zeroAt l 88 32) && zeroAt l 120 8

/-- An ACTION is admitted in a life-cycle state (Table 13.3, R405). -/
def actionIn (act lc : Nat) : Bool :=
  match act with
  | 1 => lc == 1
  | 2 => lc == 2
  | 3 | 4 | 6 => lc == 3
  | 5 | 7 => 1 ≤ lc && lc ≤ 3
  | _ => false

/-- What is left to check of an action once its statement has been verified (R400, R404, R408, R409). -/
def actionCheck (s : State) (l : List Byte) : Nat :=
  let a := storage s
  match numAt l 3 1 with
  | 1 => if s.assay.entropyOk then rOk else rEntropy
  | 2 => if a.owners.all (fun o => o.key.isSome) then rExhausted else rOk
  | 3 =>
    if a.owner = some (keyOf (cut l 56 32)) then rFormat
    else if a.owners.all (fun o => o.key.isSome) then rExhausted
    else rOk
  | 7 => if numAt l 4 4 ≤ a.minSvn ∨ numAt s.assay.fwHead 2 2 < numAt l 4 4 then rSvn else rOk
  | _ => rOk

/-- What bars a statement from being checked at all, without consuming the challenge: its place, its length with `more`
bytes that follow it, its fields, its signer. -/
def statementBars (s : State) (l : List Byte) (more : Nat) : Nat :=
  let cert := if numAt l 2 1 = 2 then certLen else 0
  if l.length < statementLen ∨ l.length ≠ statementLen + cert + more ∨ statementOk l = false then rFormat
  else if actionIn (numAt l 3 1) (lifecycle s) = false ∨ numAt l 2 1 ≠ (if lifecycle s = 3 then 1 else 2) then rState
  else rOk

/-- The verification of a statement (R404, R405). (DESIGN CHOICE, log 123.) -/
def statementVerify (s : State) (l : List Byte) : Nat :=
  let a := storage s
  let cert := cut l statementLen certLen
  let vendor := numAt l 2 1 = 2
  let key := if vendor then certKey cert else a.owner.getD 0
  if s.assay.challenge ≠ some (cut l 24 32) then rChallenge
  else if numAt l 8 16 ≠ (serialOf s).toNat then rFormat
  else if vendor ∧ certCheck a 2 cert ≠ rOk then certCheck a 2 cert
  else if verifies key (cut l 0 128) (cut l 128 7856) = false then rSignature
  else actionCheck s l

/-! ## Hallmarks (R413 to R415) -/

/-- CONFIG_DIGEST. -/
def configDigest (s : State) : List Byte :=
  let regs := [Reg.glbCoord, Reg.glbAxes, Reg.cruPartition, Reg.beatCtl, Reg.runJob] ++ (upFrom 0 16).map Reg.runPortmap
    ++ (upFrom 0 32).flatMap fun i => [Reg.runSubstW0 i, Reg.runSubstW1 i]
  sha256 (regs.flatMap fun o => toBytes 4 (s.reg o).toNat)

/-- A digest, or zeros where there is none. -/
def orZero (l : List Byte) : List Byte := if l = [] then zero32 else l

/-- Bytes 0 to 511 of a Hallmark of a kind, for storage `a` and the identity key of a seed. -/
def hallmarkBody (s : State) (kind : Nat) (a : Storage) (seed : W384) (nonce kem data : List Byte) : List Byte :=
  toBytes 2 1 ++ toBytes 2 kind ++ toBytes 1 (if kind = 5 then a.state else lifecycle s)
    ++ toBytes 1 (b2n s.dbg.unlocked + 2 * (s.dbg.scope.toNat % 16)) ++ toBytes 1 (b2n s.sealed)
    ++ toBytes 1 (s.boot.ctrl % 2) ++ toBytes 16 (serialOf s).toNat ++ toBytes 2 (s.fld Reg.glbStep 15 0) ++ toBytes 2 0
    ++ toBytes 4 (s.reg Reg.glbCoord).toNat ++ toBytes 8 s.beat.toNat ++ cut (s.assay.resetNonce ++ zero32) 0 16
    ++ orZero nonce ++ keyBytes (Config.identityKey seed)
    ++ (match a.owner with
        | some k => sha256 (keyBytes k)
        | none => zero32)
    ++ (if s.assay.fwHead = [] then zero32 else sha256 s.assay.fwHead) ++ toBytes 2 (numAt s.assay.fwHead 2 2)
    ++ toBytes 2 a.minSvn ++ toBytes 2 (s.fld Reg.glbCap0 8 0) ++ toBytes 2 s.retired.length ++ orZero s.assay.riserDigest
    ++ configDigest s ++ (if s.flag Reg.rglStatus 0 then keyBytes s.rgl.digest else zero32)
    ++ (match s.manifest with
        | some m => if s.sealed then keyBytes m.digest else zero32
        | none => zero32)
    ++ (if s.sealed then orZero s.assay.keys.fpr else zero32) ++ orZero kem ++ orZero data ++ List.replicate 96 0

/-- A signed Hallmark. -/
def hallmark (s : State) (kind : Nat) (a : Storage) (seed : W384) (nonce kem data : List Byte) : List Byte :=
  let b := hallmarkBody s kind a seed nonce kem data
  b ++ Config.slhSign seed b

/-- A Hallmark of the device as it is now. -/
def hallmarkNow (s : State) (kind : Nat) (nonce kem data : List Byte) : List Byte :=
  hallmark s kind (storage s) ((storage s).seed.getD 0) nonce kem data

/-! ## Seal manifests (R372, R373) -/

/-- Reads a manifest. -/
def parseManifest (l : List Byte) : Manifest :=
  { job := numAt l 2 2
    set := (upFrom 0 4).map fun x => (numAt l (8 + 2 * x) 1, numAt l (9 + 2 * x) 1)
    rings := BitVec.ofNat 64 (numAt l 16 8)
    ranges := (upFrom 0 (numAt l 6 1)).map fun i => (numAt l (32 + 16 * i) 8, numAt l (40 + 16 * i) 8)
    images := (upFrom 0 (numAt l 4 2)).map fun i =>
      { addr := numAt l (160 + 48 * i) 8, bytes := numAt l (168 + 48 * i) 8, digest := keyOf (cut l (176 + 48 * i) 32) }
    digest := keyOf (sha256 l) }

/-- The range of an axis covers the whole axis or at most half of it, in order, with the device's coordinate inside. -/
def setAxisOk (s : State) (x : Nat) (r : Nat × Nat) : Bool :=
  let n := axisSize s x
  let c := coordOf (ownId s) x
  r.1 ≤ r.2 && r.2 < n && (r.2 + 1 - r.1 == n || 2 * (r.2 + 1 - r.1) ≤ n) && r.1 ≤ c && c ≤ r.2

/-- R373 lets the manifest in. -/
def manifestOk (s : State) (l : List Byte) : Bool :=
  let m := parseManifest l
  let n := numAt l 4 2
  let k := numAt l 6 1
  numAt l 0 2 == 1 && zeroAt l 7 1 && zeroAt l 24 8 && 1 ≤ n && n ≤ 1024 && k ≤ 8
    && zeroAt l (32 + 16 * k) (128 - 16 * k)
    && ((upFrom 0 4).zip m.set).all (fun p => setAxisOk s p.1 p.2)
    && m.rings != 0
    && m.ranges.all (fun r => r.1 % 2 ^ 21 == 0 && r.2 % 2 ^ 21 == 0 && r.1 + r.2 ≤ 2 ^ 44)
    && m.images.all (fun i => i.addr % 2 ^ 21 == 0 && 128 ≤ i.bytes)
    && !s.dbg.unlocked && !s.sealed

/-- A device id in two bytes. -/
def idBytes (id : Nat) : List Byte := toBytes 2 id

/-- The info string of a link key: sender's id and port, then receiver's (R411). -/
def linkInfo (src srcPort dst dstPort : Nat) : List Byte :=
  label "ZW-LINK" ++ idBytes src ++ toBytes 1 srcPort ++ idBytes dst ++ toBytes 1 dstPort

/-- The job keys of R411 and the sealed links: those that are up to a device of the job set. -/
def jobKeys (s : State) (m : Manifest) (jms : List Byte) : Keys :=
  let prk := hkdfExtract (keyBytes m.digest) jms
  let own := ownId s
  let ls := (upFrom 0 16).filter fun l => linkUp s l && inJobSet s (s.fld (Reg.runLinkStatus l) 12 0)
  { hbmFw := s.assay.keys.hbmFw
    hbmOwn := s.assay.keys.hbmOwn
    transport := s.assay.keys.transport
    hbmJob := hkdfExpand prk (label "ZW-HBM" ++ idBytes own) 64
    jms := jms
    sprue := hkdfExpand prk (label "ZW-SPRUE" ++ idBytes own) 34
    exit := hkdfExpand prk (label "ZW-EXIT" ++ idBytes own) 32
    fpr := hkdfExpand prk (label "ZW-FPR") 32
    links := ls.map fun l =>
      let port := s.fld (Reg.runPortmap l) 19 16
      let peer := s.fld (Reg.runLinkStatus l) 12 0
      let peerPort := s.fld (Reg.runLinkStatus l) 27 24
      (l, hkdfExpand prk (linkInfo own port peer peerPort) 36, hkdfExpand prk (linkInfo peer peerPort own port) 36) }

/-- The bundle key BK (R411). -/
def bundleKey (s : State) (rnd : W512) (ct : List Byte) : List Byte :=
  hkdfExpand (hkdfExtract (sha256 (Config.kemPublic rnd)) (Config.kemShared rnd ct))
    (label "ZW-SEAL-BUNDLE" ++ toBytes 16 (serialOf s).toNat) 32

end Sys2Proof.Machine
end

