-- ==== Sys2Proof/Machine/SprueRows.lean ====
section
/-! DEFINITION. The Sprue's own registers, its frames, and the commands and events of the companion's memory traffic
(R224 to R240). -/

namespace Sys2Proof.Machine

/-! ## Interrupts (R240) -/

/-- Sends a pending vector that is neither masked nor in flight. -/
def sendPending (v : Nat) (s : State) : State :=
  let i := v / 32
  if s.flag (Reg.sprIntPending i) (v % 32) then raiseInt v (s.clearFlag (Reg.sprIntPending i) (v % 32)) else s

/-- A write of SPR_INT_EOI. -/
def intEoi (v : W32) (s : State) : State :=
  let n := v.toNat % 256
  let s : State := { s with spr := { s.spr with inFlight := s.spr.inFlight &&& ~~~(1#256 <<< n) } }
  sendPending n s

/-- A write of SPR_INT_MASK: vectors that it unmasks are sent when they are pending. -/
def intMaskWrite (i : Nat) (v : W32) (s : State) : State :=
  let s := storeReg (Reg.sprIntMask i) v s
  forEach (fun j s => if v.getLsbD j then s else sendPending (32 * i + j) s) (upFrom 0 32) s

/-! ## The aperture (R234, R251) -/

/-- Lines of the aperture that the companion holds. -/
def heldLines (s : State) : List Nat := s.spr.dir.map (·.1)

/-- A snoop that takes a line from the companion is out. -/
def lineLeaves (s : State) (line : Nat) : Bool := s.spr.snoops.any fun m => m.line == line && m.inv

/-- Snoops every held line out; the write takes effect with the last answer. -/
def startDrain (v : W32) (s : State) : State :=
  let s := postWrite Reg.sprApCtl v s
  let new := (heldLines s).filter fun l => !lineLeaves s l
  let s := forEach (fun l s =>
    let m : ApSnoop := { line := l, inv := true, waiters := [], sentAt := s.beat }
    let s : State := { s with spr := { s.spr with snoops := s.spr.snoops ++ [m] } }
    s.sprSend { opc := 0x21, addr := l * 64 }) new s
  finishDrain s

/-- A write of SPR_AP_CTL is posted (R252): LOG2_SIZE does not change while ENABLE is 1. (DEDUCED, log 69.) -/
def apCtlWrite (v : W32) (s : State) : State :=
  let on := s.flag Reg.sprApCtl 0
  let log2 := bits v.toNat 4 1
  if 9 < log2 ∨ (on = false ∧ v.getLsbD 0 = true ∧ s.fld Reg.sprApBase 17 0 % 2 ^ log2 ≠ 0) then rangeDrop s
  else if on then
    if v.getLsbD 0 then s else startDrain (s.reg Reg.sprApCtl &&& ~~~1#32) s
  else postWrite Reg.sprApCtl v s

/-- A posted write that leaves or puts the aperture in service takes effect: the window holds aperture lines in a
read-only state only (R58), so dirty ones are written back. A disable takes effect with the last snoop answer. -/
def apCtlApply (v : W32) (s : State) : State :=
  let s := storeReg Reg.sprApCtl v s
  forEach (fun a s => if inAperture s a then flushLine a s else s) (windowLines s) s

/-- A write of SPR_AP_BASE, dropped while ENABLE is 1; otherwise posted. -/
def apBaseWrite (v : W32) (s : State) : State :=
  if s.flag Reg.sprApCtl 0 then s else postWrite Reg.sprApBase v s

/-! ## Frames (R224 to R227) -/

/-- A retrain starts: traffic is held without loss. -/
def startRetrain (s : State) : State :=
  let s := (raiseFault 2 (s.setFlag Reg.sprStatus 1)).count 0x183 1
  let s : State := { s with spr := { s.spr with failures := 0 } }
  let n := s.fld Reg.sprErrCount 31 16
  s.setFld Reg.sprErrCount 31 16 (min (n + 1) 0xFFFF)

/-- The frames that the sender keeps are sent again, in order, after a NAK (R225). -/
def replayFrames (s : State) : State :=
  let n := s.spr.unacked.length
  let c := s.fld Reg.sprErrCount 15 0
  let s := (s.setFld Reg.sprErrCount 15 0 (min (c + n) 0xFFFF)).count 0x182 n
  { s with spr := { s.spr with out := s.spr.out ++ s.spr.unacked } }

/-- A frame that fails its CRC: NAK, and a retrain at the eighth failure in a row. -/
def badFrame (s : State) : State :=
  let n := s.spr.failures + 1
  let s : State := { s with spr := { s.spr with failures := n, nakDue := true } }
  if 8 ≤ n then startRetrain s else s

/-- The ACK, NAK and credits of a good frame; messages that waited for them go on (R225, R229). -/
def takeFrame (f : SprueFrame) (s : State) : State :=
  let p := s.spr
  let out := (p.txSeq + 4096 - p.acked) % 4096
  let adv := (f.ack + 4096 - p.acked) % 4096
  let moved := 1 ≤ adv && adv ≤ out
  let add (i n : Nat) (t : Tab Nat) : Tab Nat := Tab.modify 0 t i (· + n)
  let cr := add 3 f.credits.2.2.2 (add 2 f.credits.2.2.1 (add 1 f.credits.2.1 (add 0 f.credits.1 p.credits)))
  let s : State := { s with spr := { p with
    acked := if moved then f.ack % 4096 else p.acked, lastAck := if moved then s.beat else p.lastAck, credits := cr,
    unacked := if moved then p.unacked.drop adv else p.unacked } }
  (if f.nak then replayFrames s else s).sprDrain

/-- SPRUE_FRAME_RX: a frame that is out of order, while an earlier one is awaited again, is discarded. -/
def execSprueFrameRx (frame : SprueFrame) (s : State) : Host.Outcome State Fault Refusal :=
  .next <|
    if s.flag Reg.sprStatus 1 then s
    else if frame.crcOk = false then badFrame s
    else if 2 ≤ frame.ftype then s
    else if frame.seq ≠ (s.spr.rxSeq + 1) % 4096 then s
    else
      let s : State := { s with spr := { s.spr with rxSeq := frame.seq, failures := 0, nakDue := false } }
      takeFrame frame s

/-- SPRUE_ACK_TIMEOUT: 100 µs without ACK advancing while frames are outstanding. -/
def execSprueAckTimeout (s : State) : Host.Outcome State Fault Refusal :=
  .next <|
    if s.spr.txSeq ≠ s.spr.acked ∧ s.flag Reg.sprStatus 1 = false ∧ 100000 ≤ (s.beat - s.spr.lastAck).toNat then
      startRetrain s
    else s

/-- Outstanding requests that still have someone waiting for them. -/
def liveTags (s : State) : List (Nat × SprReq) :=
  s.spr.reqs.filterMap fun e => match e.2 with
    | some r => if r.dead then none else some (e.1, r)
    | none => none

/-- The loss of the Sprue (R227, R433): what waits in it goes no further. -/
def sprueLost (ext : Ext) (s : State) : State :=
  let s := raiseFault 4 s
  let late := s.spr.backlog
  let s : State := { s with spr := { s.spr with queued := [], unacked := [], backlog := [] } }
  let s := forEach (fun e s => endRequest e.1 e.2 s) (liveTags s) s
  let s := forEach (fun w s => trapWaiters w.waiters Cause.poison s) late s
  uncontained ext 4 62 s

/-- Failed lanes of a half (Table 15.2): data lanes 0 to 15 with S0 (lane 32), or 16 to 31 with S1 (lane 33). -/
def halfFails (l : List Nat) (half : Nat) : List Nat :=
  l.eraseDups.filter fun n => n / 16 == half || n == 32 + half

/-- The spare of a half serves its one failed data lane (R432). (DEDUCED, log 74.) -/
def sprueSpare (half : Nat) (s : State) : State :=
  match halfFails s.boot.sprLanes half with
  | [lane] =>
    if lane = 32 + half ∨ s.flag Reg.rsrLanes half = true then s
    else if policyFlag s 0 then sprueLaneIn (62 + half) lane s
    else advise 11 (62 + half) lane s
  | _ => s

/-- The width that the lanes allow: a half with a second failed lane is lost (R226, R432). -/
def widthLeft (s : State) (width : LinkWidth) : LinkWidth :=
  let good (h : Nat) : Nat := b2n ((halfFails s.boot.sprLanes h).length ≤ 1)
  match good 0 + good 1, width with
  | 2, w => w
  | 0, _ => .down
  | _, .down => .down
  | _, _ => .half

/-- SPRUE_RETRAIN_DONE (R225 to R227, R432): `failed` are the lanes that it found to be replaced. Tags kept for late
responses are free again (R233), and traffic goes on. -/
def execSprueRetrainDone (width : LinkWidth) (failed : List Nat) (ext : Ext) (s : State) : Host.Outcome State Fault Refusal :=
  .next <|
    if s.flag Reg.sprStatus 1 = false then s
    else
      let s : State := { s with boot := { s.boot with sprLanes := (s.boot.sprLanes ++ failed).eraseDups } }
      let s := sprueSpare 1 (sprueSpare 0 s)
      let free := s.spr.reqs.filter fun e => match e.2 with
        | some r => !r.dead
        | none => true
      let s : State := { s with spr := { s.spr with reqs := free, lastAck := s.beat } }
      let s := s.clearFlag Reg.sprStatus 1
      match widthLeft s width with
      | .full => (s.setFld Reg.sprStatus 3 2 2).sprDrain
      | .half => (raiseFault 3 (s.setFld Reg.sprStatus 3 2 1)).sprDrain
      | .down => sprueLost ext (s.setFld Reg.sprStatus 3 2 0)

/-! ## Memory requests and snoops -/

/-- Nothing arrives over a Sprue that is down or held by a retrain (R225). -/
def ifUp (f : State → State) (s : State) : State := if sprUp s then f s else s

/-- The address of the request that a tag names. -/
def tagAddr (s : State) (tag : Nat) : Nat :=
  match Tab.get none s.spr.reqs tag with
  | some r => r.addr
  | none => 0

/-- RSP_DATA; a sealed answer that fails its authentication is discarded (R384). (DEDUCED, log 71; DEDUCED, log
152.) -/
def dataArrives (tag status : Nat) (st : Coherence) (mark : SealMark) (data : W512) (s : State) : State :=
  let s := sprueSeen true { opc := 0x31, tag := tag, addr := tagAddr s tag, data := data } status st false true s
  if sealBars s mark (s.sealsOffset (tagAddr s tag)) then errLogOther 0x600 s
  else dataAnswer tag status st data (sealCount mark 0x31 s)

/-- RSP_ACK. -/
def ackArrives (tag status : Nat) (st : Coherence) (mark : SealMark) (s : State) : State :=
  let s := sprueSeen true { opc := 0x32, tag := tag, addr := tagAddr s tag } status st false false s
  if sealBars s mark (s.sealsOffset (tagAddr s tag)) then errLogOther 0x600 s
  else ackAnswer tag status st (sealCount mark 0x32 s)

/-- SNP_RSP. -/
def snpRspArrives (addr : Nat) (st : Coherence) (data : Option W512) (poison : Bool) (s : State) : State :=
  let q : SprIn := { opc := 0x33, tag := 0, addr := addr, data := data.getD 0 }
  snoopAnswer addr st data poison (sprueSeen true q (3 * b2n poison) st false data.isSome s)

/-- MEM_RD. -/
def execMemRd (kernel : Bool) (tag addr : Nat) (mark : SealMark) (s : State) : Host.Outcome State Fault Refusal :=
  .next (ifUp (memRequest true kernel mark false false { opc := 0x11, tag := tag, addr := addr }) s)

/-- MEM_WR. -/
def execMemWr (kernel : Bool) (tag addr : Nat) (mark : SealMark) (data : W512) (poison : Bool) (s : State) :
    Host.Outcome State Fault Refusal :=
  .next (ifUp (memRequest true kernel mark false true
    { opc := 0x12, tag := tag, addr := addr, data := data, poison := poison }) s)

/-- MEM_WR_PARTIAL. -/
def execMemWrPartial (kernel : Bool) (tag addr : Nat) (mark : SealMark) (mask : W64) (data : W512) (poison : Bool)
    (s : State) : Host.Outcome State Fault Refusal :=
  .next (ifUp (memRequest true kernel mark true true
    { opc := 0x13, tag := tag, addr := addr, mask := mask, data := data, poison := poison }) s)

/-- AP_RD_SHARED. -/
def execApRdShared (kernel : Bool) (tag addr : Nat) (s : State) : Host.Outcome State Fault Refusal :=
  .next (ifUp (memRequest true kernel .clear false false { opc := 0x16, tag := tag, addr := addr }) s)

/-- AP_RD_OWN. -/
def execApRdOwn (kernel : Bool) (tag addr : Nat) (s : State) : Host.Outcome State Fault Refusal :=
  .next (ifUp (memRequest true kernel .clear false false { opc := 0x17, tag := tag, addr := addr }) s)

/-- AP_WB_DIRTY. -/
def execApWbDirty (kernel : Bool) (tag addr : Nat) (data : W512) (poison : Bool) (s : State) :
    Host.Outcome State Fault Refusal :=
  .next (ifUp (memRequest true kernel .clear false true
    { opc := 0x18, tag := tag, addr := addr, data := data, poison := poison }) s)

/-- AP_EVICT. -/
def execApEvict (kernel : Bool) (tag addr : Nat) (s : State) : Host.Outcome State Fault Refusal :=
  .next (ifUp (memRequest true kernel .clear false false { opc := 0x19, tag := tag, addr := addr }) s)

/-- SNP_INV. -/
def execSnpInv (tag addr : Nat) (mark : SealMark) (s : State) : Host.Outcome State Fault Refusal :=
  .next (ifUp (snoopRequest mark { opc := 0x21, tag := tag, addr := addr }) s)

/-- SNP_SHARE. -/
def execSnpShare (tag addr : Nat) (mark : SealMark) (s : State) : Host.Outcome State Fault Refusal :=
  .next (ifUp (snoopRequest mark { opc := 0x22, tag := tag, addr := addr }) s)

/-- A live answer: in replay the log's answers serve the device's reads (R366). -/
def ifLive (f : State → State) (s : State) : State := if replaying s then s else ifUp f s

/-- RSP_DATA. -/
def execRspData (tag status : Nat) (st : Coherence) (mark : SealMark) (data : W512) (s : State) :
    Host.Outcome State Fault Refusal :=
  .next (ifLive (dataArrives tag status st mark data) s)

/-- RSP_ACK. -/
def execRspAck (tag status : Nat) (st : Coherence) (mark : SealMark) (s : State) : Host.Outcome State Fault Refusal :=
  .next (ifLive (ackArrives tag status st mark) s)

/-- SNP_RSP. -/
def execSnpRsp (addr : Nat) (st : Coherence) (data : Option W512) (poison : Bool) (s : State) :
    Host.Outcome State Fault Refusal :=
  .next (ifUp (snpRspArrives addr st data poison) s)

/-- SPRUE_REQ_TIMEOUT: no response within SPR_REQ_TIMEOUT µs. -/
def execSprueReqTimeout (tag : Nat) (s : State) : Host.Outcome State Fault Refusal :=
  .next <|
    match Tab.get none s.spr.reqs tag with
    | none => s
    | some r =>
      if r.dead = false ∧ 1000 * (s.reg Reg.sprReqTimeout).toNat ≤ (s.beat - r.sentAt).toNat then endRequest tag r s else s

/-- SPRUE_SNP_TIMEOUT: no answer within SPR_SNP_TIMEOUT µs. -/
def execSprueSnpTimeout (addr : Nat) (s : State) : Host.Outcome State Fault Refusal :=
  .next <|
    match s.spr.snoops.find? fun m => m.line == addr / 64 with
    | none => s
    | some m =>
      if 1000 * (s.reg Reg.sprSnpTimeout).toNat ≤ (s.beat - m.sentAt).toNat then snoopTimeout m s else s

/-! ## Registers -/

/-- SPR_INT_EOI. -/
def execSprIntEoi (rq : Requester) (v : W32) (s : State) : Host.Outcome State Fault Refusal :=
  .next (writeGate rq Reg.sprIntEoi v (intEoi v) s)

/-- SPR_INT_MASK_WRITE. -/
def execSprIntMaskWrite (rq : Requester) (n : Nat) (v : W32) (s : State) : Host.Outcome State Fault Refusal :=
  .next (within n 8 (writeGate rq (Reg.sprIntMask n) v (intMaskWrite n v)) s)

/-- SPR_AP_CTL_WRITE. -/
def execSprApCtlWrite (rq : Requester) (v : W32) (s : State) : Host.Outcome State Fault Refusal :=
  .next (writeGate rq Reg.sprApCtl v (apCtlWrite v) s)

end Sys2Proof.Machine
end

