-- ==== Sys2Proof/Machine/RglOps.lean ====
section
/-! DEFINITION. The Regulator at work: the Riser record, repair windows, Risers brought in, the owner's policy, power and
scrubbing (R86, R419, R423 to R446). -/

namespace Sys2Proof.Machine

/-! ## Dies (Table 11.6) -/

/-- The store die of a slice, and the base die of an HBM stack. -/
def storeDie (slice : Nat) : Nat := 32 + slice
/-- The number of a base die. -/
def baseDie (k : Nat) : Nat := 48 + k

/-! ## The Riser record (R446, Table 14.3) -/

/-- One entry. -/
def RecEntry.bytes (e : RecEntry) : List Byte :=
  toBytes 1 e.kind ++ toBytes 1 (b2n e.fused) ++ toBytes 1 e.die ++ toBytes 1 0 ++ toBytes 4 e.index ++ toBytes 8 e.detail

/-- The record as it is written next. (DEDUCED, log 135.) -/
def recordBytes (s : State) : List Byte :=
  let es := s.rgl.entries.take 4096
  toBytes 2 1 ++ toBytes 2 es.length ++ toBytes 4 (s.reg Reg.rsrRecordGen + 1).toNat ++ toBytes 16 (serialOf s).toNat
    ++ toBytes 8 s.beat.toNat ++ List.replicate 32 0 ++ es.flatMap RecEntry.bytes

/-- Where the record goes. -/
def recordHome (s : State) : Nat :=
  0x100000000000 + s.fld Reg.rsrRecordHi 11 0 * 2 ^ 32 + s.fld Reg.rsrRecordLo 31 17 * 2 ^ 17

/-- What is written: the record, and a RISER Hallmark over it under the identity key of `seed` where there is one. -/
def recordData (s : State) (seed : Option W384) : List Byte :=
  let r := recordBytes s
  match seed with
  | some k => r ++ hallmark s 6 (storage s) k [] [] (sha256 r)
  | none => r

/-- Writes the record, with a RISER Hallmark under the identity key of `seed` where there is one; a write that the
companion refuses is retried a second later. The write is exempt from R379. (DEDUCED, log 135.) -/
def recordWrite (ext : Ext) (seed : Option W384) (s : State) : State :=
  let data := recordData s seed
  let a := recordHome s
  let us := unitsOf 64 a data.length
  if us.any (fun u => (extAnswer ext u).toOption.isNone) then
    { s with rgl := { s.rgl with recordDue := s.beat + BitVec.ofNat 64 second } }
  else
    let s := forEach (fun u s =>
      let s := (dropSector u s).modLine u fun l => if l.valid then l.setSector u .i else l
      sendPartial (fun _ => true) (fun _ => false) a data.length data u s) us s
    let gen := s.reg Reg.rsrRecordGen + 1
    let s := (s.setReg Reg.rsrRecordGen gen).clearFlag Reg.rsrStatus 7
    rglNotice 0x77 3 (gen.toNat + min s.rgl.entries.length 4096 <<< 32) s

/-- The identity seed with which records are signed: in Provisioned and Owned (R419). -/
def recordSeed (s : State) : Option W384 := if lifecycle s = 2 ∨ lifecycle s = 3 then (storage s).seed else none

/-- The record is written when it is unsaved and its time has come; one that Assay signs waits for the host's operation to
end (R416). -/
def recordIfDue (ext : Ext) (s : State) : State :=
  let signs := (recordSeed s).isSome
  if s.flag Reg.rsrStatus 7 = true ∧ s.rgl.recordDue.toNat ≤ s.beat.toNat ∧ (signs && s.assay.op.isSome) = false then
    recordWrite ext (recordSeed s) s
  else s

/-! ## Risers -/

/-- An unfused entry of the record. -/
def newEntry (kind die index detail : Nat) (s : State) : State :=
  addEntry { kind := kind, fused := false, die := die, index := index, detail := detail } s

/-- Spare rows and columns of a core in use (KIND 3 and 4, INDEX slot · 256 + number). -/
def mxeUsed (s : State) (die slot kind : Nat) : Nat :=
  (s.rgl.entries.filter fun e => e.kind == kind && e.die == die && e.index / 256 == slot).length

/-- A spare row (KIND 3) or column (KIND 4) of the array of a core of a die comes in; RSR_MXE counts cores and units.
(DESIGN CHOICE, log 143.) -/
def mxeIn (kind die slot n : Nat) (s : State) : State :=
  let first := mxeUsed s die slot 3 + mxeUsed s die slot 4 = 0
  let s := s.setFld Reg.rsrMxe 15 0 (s.fld Reg.rsrMxe 15 0 + 1)
  let s := if first then s.setFld Reg.rsrMxe 31 16 (s.fld Reg.rsrMxe 31 16 + 1) else s
  riserIn kind die (slot * 256 + n) s

/-- A failed row or column of a core's array is replaced, which leaves its planes invalid (R129, R144). -/
def mxeSpare (kind c n : Nat) (s : State) : State :=
  mxeIn kind (dieOf c) (c % 8) n (s.modCore c fun k => { k with planes := [] })

/-- A core whose failed rows or columns exceed the spares is taken out of service (R129): the die's spare takes its id, or
the id leaves service. -/
def replaceCore (c : Nat) (s : State) : State :=
  if spareUsed s (dieOf c) = false then spareIn c (s.modCore c fun k => { k.zeroed with planes := [] })
  else loseCore c s

/-- A soft repair of a row while repairs remain (R428), and the request that makes it permanent. -/
def softRepair (k row : Nat) (s : State) : State :=
  let used := s.fld (Reg.hbmPpr k) 15 8
  let left := s.fld (Reg.hbmPpr k) 7 0
  if left = 0 then s
  else
    let s := (s.setFld (Reg.hbmPpr k) 15 8 (min (used + 1) 0xFF)).setFld (Reg.hbmPpr k) 7 0 (left - 1)
    addRequest 4 (baseDie k) row (newEntry 7 (baseDie k) row row (spareNotice false 7 (baseDie k) row s))

/-- Spare operand-buffer rows of a core that are in use (KIND 5). -/
def obUsed (s : State) (die slot : Nat) : Nat :=
  (s.rgl.entries.filter fun e => e.kind == 5 && e.die == die && e.index / 256 == slot).length

/-- Banks of a slice, the spare one among them (R41). -/
def sliceBanks : Nat := 17

/-- A bank is copied to the slice's spare (R431); the second failing bank of a slice is uncontained (R433). -/
def bankFails (ext : Ext) (slice bank : Nat) (s : State) : State :=
  if s.flag Reg.rsrBanks slice = true ∨ s.rgl.copying.any (fun p => p.1 == slice) = true then
    uncontained ext 1 (storeDie slice) s
  else { s with rgl := { s.rgl with copying := s.rgl.copying ++ [(slice, bank)] } }

/-- A page's retirement is asked for (R429). -/
def requestRetire (page : Nat) (s : State) : State :=
  if s.retired.contains page ∨ s.rgl.pagesDue.any (fun p => p.1 == page) = true then s
  else
    let s : State := { s with rgl := { s.rgl with pagesDue := s.rgl.pagesDue ++ [(page, s.beat)] } }
    rglNotice 0x75 3 (page / 2 ^ 15 + (page * 2 ^ 21) <<< 64) s

/-- The scrub register of a unit: slices 0 to 15 share CRU_SCRUB, base die k is 16 + k. -/
def scrubReg (u : Nat) : Nat := if u < 16 then Reg.cruScrub else Reg.hbmScrub (u - 16)

/-- Writes a unit's interval within the policy's SCRUB_MIN and SCRUB_MAX (R439). -/
def putScrub (u next : Nat) (s : State) : State :=
  s.setReg (scrubReg u) (BitVec.ofNat 32 (max (policyWord s 3) (min (policyWord s 4) next)))

/-- Halves or doubles a unit's interval (R439). -/
def setScrub (u : Nat) (faster : Bool) (s : State) : State :=
  let now := (s.reg (scrubReg u)).toNat
  putScrub u (if faster then now / 2 else now * 2) s

/-- What the Regulator does about one finding; with AUTO_SPARE clear it brings in no Riser by itself (R441).
(DEDUCED, log 74; DESIGN CHOICE, log 143.) -/
def actOn (ext : Ext) (f : RglFind) (s : State) : State :=
  let auto := policyFlag s 0
  match f with
  | .softRow k row =>
    if 8 ≤ k then s else if auto then softRepair k row s else advise 7 (baseDie k) row s
  | .page p => if p < 2 ^ 18 then requestRetire p s else s
  | .bank i b =>
    if 16 ≤ i ∨ sliceBanks ≤ b then s else if auto then bankFails ext i b s else advise 6 (storeDie i) b s
  | .obRow c row =>
    if 256 ≤ c ∨ 8 ≤ obUsed s (dieOf c) (c % 8) then s
    else addRequest 3 (dieOf c) (c % 8 * 256 + row) (if auto then s else spareNotice true 5 (dieOf c) (c % 8 * 256 + row) s)
  | .scrub u faster => if u < 24 then setScrub u faster s else s

/-! ## Repair windows (R442 to R444) -/

/-- The core id that a request whose quiet unit is a core names: CORE_TEST and a spare core give the slot, the others slot ·
256 + row. -/
def reqCore (q : RepairReq) : Option Nat :=
  if q.kind = 1 ∨ q.riser = 1 then some (q.die * 8 + q.index % 8)
  else if q.kind = 2 ∨ q.kind = 3 then some (q.die * 8 + q.index / 256 % 8)
  else none

/-- A core that a granted window holds for its repair. -/
def windowHolds (s : State) (c : Nat) : Bool := s.rgl.grants.any fun g => reqCore g.req == some c

/-- The window that has begun. -/
def activeWindow (s : State) : Option RepairWindow := s.rgl.grants.find? fun g => g.ends.isSome

/-- The unit of a request is quiet (R443). (DESIGN CHOICE, log 141.) -/
def unitQuiet (s : State) (q : RepairReq) : Bool :=
  match reqCore q with
  | some c => (s.core c).disp.isNone && (s.core c).mode != .resetting
  | none =>
    if q.kind = 0 then true
    else if q.kind = 6 then s.rings.all (fun e => e.2.running.isEmpty) && s.chain.isNone
    else !(s.recs.any fun e => e.2.die + 48 == q.die && e.2.state == .opened)

/-- Posts how a window has ended. -/
def windowResult (id result : Nat) (s : State) : State :=
  let s := (s.setFld Reg.rglWindowStatus 15 8 result).setFld Reg.rglWindowStatus 31 16 0
  rglNotice 0x74 3 (id + result <<< 16) (s.clearFlag Reg.rglStatus 6)

/-- Accesses that waited for a stack are performed in order of arrival (R443). -/
def releaseStack (s : State) : State :=
  if cruHolds s then s
  else
    let one (h : Held) (s : State) : State :=
      match h with
      | .core c => retryCore c s
      | .sprue q => performReq q s
      | h => hold h s
    forEach one s.held { s with held := [] }

/-- The active window ends; its request is done, or stays pending. (DEDUCED, log 139.) -/
def endWindow (g : RepairWindow) (result : Nat) (s : State) : State :=
  let s : State := { s with rgl := { s.rgl with grants := s.rgl.grants.filter fun x => x.req.id != g.req.id } }
  let s := releaseStack s
  let s := if result = 1 then
      let s : State := { s with rgl := { s.rgl with reqs := s.rgl.reqs.filter fun q => q.id != g.req.id } }
      if s.rgl.reqs = [] then s.clearFlag Reg.rglStatus 5 else s
    else s
  windowResult g.req.id result s

/-- A write of RGL_WINDOW: a grant, or with a duration of 0 the end of the active window. The Regulator acts on it as it is
posted (R252). (DEDUCED, log 139.) -/
def windowWrite (v : W32) (s : State) : State :=
  let id := bits v.toNat 31 16
  let ms := bits v.toNat 15 0
  let s := postWrite Reg.rglWindow v s
  if ms = 0 then
    match activeWindow s with
    | some g => if g.req.id = id then endWindow g 4 s else s
    | none => s
  else
    match s.rgl.reqs.find? fun q => q.id == id && !(s.rgl.grants.any fun g => g.req.id == id) with
    | none => s.setFld Reg.rglWindowStatus 15 8 3
    | some q =>
      let lim := policyWord s 8
      let s := if lim < ms then s.setFlag Reg.rglWindowStatus 0 else s.clearFlag Reg.rglWindowStatus 0
      { s with rgl := { s.rgl with grants := s.rgl.grants ++ [{ req := q, ms := min ms lim, ends := none }] } }

/-- Free fuse entries of a die. -/
def fusesLeft (s : State) (die : Nat) : Nat := (Tab.get {} s.rgl.tele die).fuses

/-- A permanent repair is written to its die's fuses while the array has room (R445). -/
def fuseEntries : List RecEntry → State → List RecEntry × State
  | [], s => ([], s)
  | e :: t, s =>
    let soft := e.kind = 7 ∨ e.kind = 9 ∨ e.kind = 2 ∨ e.kind = 8
    if e.fused ∨ soft ∨ fusesLeft s e.die = 0 then
      let r := fuseEntries t s
      (e :: r.1, r.2)
    else
      let tele := Tab.modify {} s.rgl.tele e.die fun d => { d with fuses := d.fuses - 1 }
      let r := fuseEntries t { s with rgl := { s.rgl with tele := tele } }
      ({ e with fused := true } :: r.1, r.2)

/-- Dies with fewer than 8 free fuse entries (RSR_FUSE, FUSE_LOW). -/
def noteFuses (s : State) : State :=
  let n := ((upFrom 0 64).filter fun d => fusesLeft s d < 8).length
  let s := s.setReg Reg.rsrFuse (BitVec.ofNat 32 n)
  if n = 0 then s.clearFlag Reg.rglStatus 7 else s.setFlag Reg.rglStatus 7

/-- An advised Riser comes in inside its window, unless it has been used meanwhile. -/
def adviceTaken (ext : Ext) (q : RepairReq) (s : State) : State :=
  match q.riser with
  | 1 => if spareUsed s q.die then s else replaceCore (q.die * 8 + q.index % 8) s
  | 6 => bankFails ext (q.die - 32) q.index s
  | 7 => softRepair (q.die - 48) q.index s
  | 10 => laneIn q.die q.index s
  | 11 => if s.flag Reg.rsrLanes (q.die - 62) then s else sprueLaneIn q.die q.index s
  | 12 => if wiresUsed s q.die (q.index / groupWires) < 4 then wireIn q.die q.index s else s
  | _ => s

/-- A repair of a granted window has been made; `rows` and `cols` are failed rows and columns that an array self-test
found (R164). A core with more than its spares is replaced. -/
def repairDone (ext : Ext) (q : RepairReq) (rows cols : List Nat) (s : State) : State :=
  match q.kind, reqCore q with
  | 0, _ => adviceTaken ext q s
  | 1, some c | 2, some c =>
    if 4 < mxeUsed s (dieOf c) (c % 8) 3 + rows.length ∨ 4 < mxeUsed s (dieOf c) (c % 8) 4 + cols.length then replaceCore c s
    else forEach (mxeSpare 4 c) cols (forEach (mxeSpare 3 c) rows s)
  | 3, some c => if obUsed s (dieOf c) (c % 8) < 8 then riserIn 5 (dieOf c) q.index s else s
  | 4, _ =>
    let k := q.die - 48
    let used := s.fld (Reg.hbmPpr k) 31 24
    let s := (s.setFld (Reg.hbmPpr k) 31 24 (min (used + 1) 0xFF)).setFld (Reg.hbmPpr k) 23 16 (s.fld (Reg.hbmPpr k) 23 16 - 1)
    newEntry 8 q.die q.index q.index s
  | 6, _ =>
    let r := fuseEntries s.rgl.entries s
    let s : State := { r.2 with rgl := { r.2.rgl with entries := r.1, recordDue := r.2.beat } }
    noteFuses (s.setFlag Reg.rsrStatus 7)
  | _, _ => s

/-! ## Owner policy (R418, R441) -/

/-- A value clamped to limits. -/
def clampTo (lo hi x : Nat) : Nat := max lo (min hi x)

/-- The blob with every field inside its limits (Table 14.2). -/
def clampPolicy (l : List Byte) : List Byte :=
  let vmin := clampTo 620 750 (numAt l 6 2)
  let smax := clampTo 0x400 0x100000 (numAt l 16 4)
  toBytes 2 1 ++ cut l 2 2 ++ toBytes 2 (clampTo 1500 4800 (numAt l 4 2)) ++ toBytes 2 vmin
    ++ toBytes 2 (clampTo (max 750 vmin) 900 (numAt l 8 2)) ++ toBytes 2 (clampTo 45 95 (numAt l 10 2))
    ++ toBytes 4 (clampTo 0x400 smax (numAt l 12 4)) ++ toBytes 4 smax ++ toBytes 4 (clampTo 1 1000000 (numAt l 20 4))
    ++ toBytes 4 (clampTo 1 1000000 (numAt l 24 4)) ++ toBytes 4 (clampTo 100 100000 (numAt l 28 4))
    ++ toBytes 4 (clampTo 1 10000 (numAt l 32 4)) ++ List.replicate 28 0

/-- The blob can be applied: its version, and reserved fields that are zero. -/
def policyOk (l : List Byte) : Bool := numAt l 0 2 == 1 && numAt l 2 2 / 32 == 0 && zeroAt l 36 28

/-- The owner's policy comes into force. (DEDUCED, log 128.) -/
def applyPolicy (l : List Byte) (s : State) : State :=
  let p := clampPolicy l
  let s := forEach (fun i s => s.setReg (Reg.rglPolicy i) (BitVec.ofNat 32 (numAt p (4 * i) 4))) (upFrom 0 16) s
  let s : State := { s.setFlag Reg.rglStatus 0 with rgl := { s.rgl with digest := keyOf (sha256 l) } }
  let s := forEach (fun u s => putScrub u (s.reg (scrubReg u)).toNat s) (upFrom 15 9) s
  if p = l then s.clearFlag Reg.rglStatus 1
  else rglNotice 0x78 3 (numAt p 2 2 + 1 <<< 16) (s.setFlag Reg.rglStatus 1)

/-! ## Supplies and rates (R435 to R440) -/

/-- The dies of a die's ingot: two compute dies and their store die (Table 1.2). -/
def ingotOf (die : Nat) : Option Nat := if die < 32 then some (die / 2) else if die < 48 then some (die - 32) else none

/-- Two supplies lie at most `n` mV apart. -/
def nearSupply (a b n : Nat) : Bool := a ≤ b + n && b ≤ a + n

/-- The present supply of a die. -/
def supplyOf (s : State) (d : Nat) : Nat := (Tab.get {} s.rgl.tele d).supply

/-- A supply that the Regulator may set: within VMIN and VMAX, and the dies of the ingot within 50 mV of each other (R26,
R436). -/
def supplyFits (s : State) (sup : List (Nat × Nat × Nat)) (e : Nat × Nat × Nat) : Bool :=
  let next (d : Nat) : Nat := match sup.find? fun x => x.1 == d with
    | some x => x.2.1
    | none => supplyOf s d
  e.1 < 64 && bits (policyWord s 1) 31 16 ≤ e.2.1 && e.2.1 ≤ bits (policyWord s 2) 15 0
    && (upFrom 0 48).all fun d => (ingotOf d).isNone || ingotOf d != ingotOf e.1 || nearSupply (next d) e.2.1 50

/-- A supply that a decision may set: at most 10 mV from the present one (R435). (DESIGN CHOICE, log 142.) -/
def supplyOk (s : State) (sup : List (Nat × Nat × Nat)) (e : Nat × Nat × Nat) : Bool :=
  supplyFits s sup e && nearSupply e.2.1 (supplyOf s e.1) 10

/-- A decision sets a die's supply, and its rate follows. -/
def setSupply (e : Nat × Nat × Nat) (s : State) : State :=
  { s with rgl := { s.rgl with tele := Tab.modify {} s.rgl.tele e.1 fun t => { t with supply := e.2.1, rate := e.2.2 } } }

/-- The rate of a die is reported when it has changed by 1 % or more since its last RATE notice. -/
def noteRate (die : Nat) (s : State) : State :=
  let t := Tab.get {} s.rgl.tele die
  let old := Tab.get 0 s.rgl.lastRate die
  let diff := (t.rate - old) + (old - t.rate)
  if diff ≠ 0 ∧ old ≤ diff * 100 then
    let s : State := { s with rgl := { s.rgl with lastRate := Tab.set 0 s.rgl.lastRate die t.rate } }
    rglNotice 0x70 0 (die + t.rate <<< 16 + t.supply <<< 32) s
  else s

/-- The absolute maximum junction of a die in 1/16 °C (Table 16.4). -/
def junctionMax (die : Nat) : Nat := 16 * (if die < 48 then 105 else 110)

/-- Every in-service core of a compute die is IDLE. -/
def dieIdle (s : State) (die : Nat) : Bool :=
  (upFrom (8 * die) 8).all fun c => !coreInService s c || (s.core c).mode == .idle

/-- A compute die loses its power: what its cores hold is gone. (DEDUCED, log 144.) -/
def powerOff (die : Nat) (s : State) : State :=
  let s : State := { s with rgl := { s.rgl with dark := s.rgl.dark ++ [die] } }
  if die < 32 then forEach (fun c s => s.modCore c fun k => { k.zeroed with planes := [] }) (upFrom (8 * die) 8) s else s

end Sys2Proof.Machine
end

