-- ==== Sys2Proof/Machine/Xts.lean ====
section
/-! DEFINITION. What the DRAM of a stack holds: AES-256-XTS over the lines of HBM (R81, R381, R382). State.mem holds the
data that the base die deciphers; a word as it is stored follows from it, its address and the key of its slot. -/

namespace Sys2Proof.Machine

/-! ## AES-256 (FIPS 197), over lists of bytes as numbers -/

/-- The product by x in GF(2⁸) modulo x⁸ + x⁴ + x³ + x + 1. -/
def gfDouble (a : Nat) : Nat := if a < 128 then 2 * a else Nat.xor (2 * a) 0x11B

/-- The product in GF(2⁸), over the low `n` bits of the second factor. -/
def gfMul : Nat → Nat → Nat → Nat
  | 0, _, _ => 0
  | n + 1, a, b => Nat.xor (if b % 2 = 1 then a else 0) (gfMul n (gfDouble a) (b / 2))

/-- The inverse in GF(2⁸), as the 254th power; 0 gives 0. -/
def gfInv (a : Nat) : Nat :=
  let sq (x : Nat) : Nat := gfMul 8 x x
  let a2 := sq a
  let a3 := gfMul 8 a2 a
  let a12 := sq (sq a3)
  let a15 := gfMul 8 a12 a3
  let a240 := sq (sq (sq (sq a15)))
  gfMul 8 a240 (gfMul 8 a12 a2)

/-- A byte turned left. -/
def rotByte (a n : Nat) : Nat := (a * 2 ^ n) % 256 + a / 2 ^ (8 - n)

/-- The S-box: the inverse, then the affine map. -/
def sBox (a : Nat) : Nat :=
  let b := gfInv a
  [rotByte b 1, rotByte b 2, rotByte b 3, rotByte b 4, 0x63].foldl Nat.xor b

/-- The inverse of the S-box. -/
def sBoxInv (a : Nat) : Nat := gfInv ([rotByte a 1, rotByte a 3, rotByte a 6, 0x05].foldl Nat.xor 0)

/-- Bytewise exclusive-or. -/
def xorAll (a b : List Nat) : List Nat := List.zipWith Nat.xor a b

/-- A word of the key schedule from the word before it: word `i` of an eight-word key. -/
def scheduleStep (i : Nat) (w : List Nat) : List Nat :=
  if i % 8 = 0 then
    match w with
    | a :: t => xorAll ((t ++ [a]).map sBox) [(upFrom 1 (i / 8 - 1)).foldl (fun c _ => gfDouble c) 1, 0, 0, 0]
    | [] => []
  else if i % 8 = 4 then w.map sBox
  else w

/-- The key schedule: `n` words after the key's eight, newest first. -/
def schedule : Nat → List (List Nat) → List (List Nat)
  | 0, ws => ws
  | n + 1, ws => schedule n (xorAll (ws.getD 7 []) (scheduleStep ws.length (ws.headD [])) :: ws)

/-- The fifteen round keys of a 32-byte key. -/
def roundKeys (key : List Nat) : List (List Nat) :=
  let ws := (schedule 52 ((upFrom 0 8).map fun i => (key.drop (4 * i)).take 4).reverse).reverse
  (upFrom 0 15).map fun r => ((ws.drop (4 * r)).take 4).flatten

/-- Byte `i` of a state moves along its row (ShiftRows), by `d` columns for each row number. -/
def shiftRows (d : Nat) (b : List Nat) : List Nat := (upFrom 0 16).map fun i => b.getD ((i + 4 * d * (i % 4)) % 16) 0

/-- A circulant matrix over GF(2⁸) on each column (MixColumns and its inverse). -/
def mixColumns (row : List Nat) (b : List Nat) : List Nat :=
  (upFrom 0 16).map fun i =>
    (upFrom 0 4).foldl (fun x k => Nat.xor x (gfMul 8 (b.getD (i / 4 * 4 + (i + k) % 4) 0) (row.getD k 0))) 0

/-- AES-256 enciphers a block of 16 bytes. -/
def aesEncrypt (key block : List Nat) : List Nat :=
  let ks := roundKeys key
  let body := (upFrom 1 13).foldl
    (fun b r => xorAll (mixColumns [2, 3, 1, 1] (shiftRows 1 (b.map sBox))) (ks.getD r [])) (xorAll block (ks.getD 0 []))
  xorAll (shiftRows 1 (body.map sBox)) (ks.getD 14 [])

/-- AES-256 deciphers a block of 16 bytes. -/
def aesDecrypt (key block : List Nat) : List Nat :=
  let ks := roundKeys key
  let first := (shiftRows 3 (xorAll block (ks.getD 14 []))).map sBoxInv
  let body := (upFrom 1 13).foldl
    (fun b r => (shiftRows 3 (mixColumns [14, 11, 13, 9] (xorAll b (ks.getD (14 - r) [])))).map sBoxInv) first
  xorAll body (ks.getD 0 [])

/-! ## XTS (IEEE 1619) -/

/-- The product by x in GF(2¹²⁸), on a little-endian number. -/
def xtsDouble (t : Nat) : Nat := Nat.xor (t * 2 % 2 ^ 128) (if t < 2 ^ 127 then 0 else 0x87)

/-- The mask of block `j` of the line with number `line`: the tweak under the second key, times x to the `j`. -/
def xtsMask (key2 : List Nat) (line j : Nat) : List Nat :=
  let t := ofBytes ((aesEncrypt key2 ((toBytes 16 line).map BitVec.toNat)).map (BitVec.ofNat 8))
  (toBytes 16 ((upFrom 0 j).foldl (fun t _ => xtsDouble t) t)).map BitVec.toNat

/-- A 16-byte word of a line as it is stored, under a 64-byte key (R381). -/
def xtsEncrypt (key : List Byte) (line j : Nat) (word : List Byte) : List Byte :=
  let k := key.map BitVec.toNat
  let m := xtsMask ((k.drop 32).take 32) line j
  (xorAll (aesEncrypt (k.take 32) (xorAll (word.map BitVec.toNat) m)) m).map (BitVec.ofNat 8)

/-- The word that a stored word deciphers to (R81). -/
def xtsDecrypt (key : List Byte) (line j : Nat) (word : List Byte) : List Byte :=
  let k := key.map BitVec.toNat
  let m := xtsMask ((k.drop 32).take 32) line j
  (xorAll (aesDecrypt (k.take 32) (xorAll (word.map BitVec.toNat) m)) m).map (BitVec.ofNat 8)

/-! ## The stacks -/

/-- The key of a device address of HBM: the firmware slot's in firmware's region, which holds the translation tables and
the record log (R470), or the job slot's, which under seal is the job's (R382). (DESIGN CHOICE, log 195.) -/
def hbmKey (s : State) (a : Nat) : List Byte :=
  if inFirmware s a then s.assay.keys.hbmFw else if s.sealed then s.assay.keys.hbmJob else s.assay.keys.hbmOwn

/-- The 16 bytes that the DRAM holds for the word of an HBM address. (DESIGN CHOICE, log 195.) -/
def hbmStored (s : State) (a : Nat) : List Byte :=
  xtsEncrypt (hbmKey s a) (a / 128) (a % 128 / 16) ((upFrom (a / 16 * 16) 16).map s.byte)

end Sys2Proof.Machine
end

