-- ==== Sys2Proof/Machine/AssayRows.lean ====
section
/-! DEFINITION. Assay's operations as commands, the seal, the life-cycle and the unlock of the debug port (R371 to R376,
R391 to R397, R398 to R422). -/

namespace Sys2Proof.Machine

/-! ## The request interface (R416) -/

/-- The input of an operation: ASY_IN_LEN bytes of ASY_IN. -/
def asyInput (s : State) : List Byte :=
  let n := s.fld Reg.asyInLen 16 0
  ((upFrom 0 ((n + 3) / 4)).flatMap fun i => toBytes 4 (s.reg (Reg.asyIn i)).toNat).take n

/-- The offer key pair is held or gone (ASY_STATUS.OFFER). -/
def setOffer (o : Option W512) (s : State) : State :=
  let s : State := { s with assay := { s.assay with offer := o } }
  if o.isSome then s.setFlag Reg.asyStatus 3 else s.clearFlag Reg.asyStatus 3

/-- The challenge of R404 is drawn or consumed. -/
def setChallenge (c : Option (List Byte)) (s : State) : State := { s with assay := { s.assay with challenge := c } }

/-- An operation is in progress and will end with this result and output. -/
def asyEnds (code result : Nat) (out : List Byte) (s : State) : State :=
  { s with assay := { s.assay with op := some { code := code, result := result, out := out } } }

/-- A transition is pending: Assay accepts only COMPLETE (R401). -/
def lcPending (s : State) : Bool := s.flag Reg.asyStatus 2

/-- The life-cycle state is one of these, and no transition is pending. -/
def asyIn (s : State) (l : List Nat) : Bool := l.contains (lifecycle s) && !lcPending s

/-! ## Storage programming (R399 to R403) -/

/-- The first owner slot that is not committed. -/
def freeSlot (a : Storage) : Nat := (a.owners.takeWhile fun o => o.key.isSome).length
/-- The slot of the owner in force. -/
def ownerSlot (a : Storage) : Nat := (a.owners.takeWhile fun o => o.key.isNone || o.revoked).length
/-- A new owner is committed in slot `n`. -/
def commitOwner (n : Nat) (k : W256) (a : Storage) : Storage :=
  { a with owners := listSet a.owners n { key := some k, revoked := false } }
/-- The owner's slot is marked REVOKED. -/
def revokeOwner (a : Storage) : Storage :=
  { a with owners := a.owners.zipIdx.map fun p => if p.2 = ownerSlot a then { p.1 with revoked := true } else p.1 }

/-- The 8 cells of a life-cycle bit are programmed one by one. -/
def bitSteps (set : Nat → Storage → Storage) : List (Storage → Storage) := (upFrom 1 8).map set

/-- The storage programming of an action, step by step in the order of Table 13.3: for the storage before, the statement
and the drawn seed. -/
def programSteps (a : Storage) (l : List Byte) (seed : W384) : List (Storage → Storage) :=
  let owner := keyOf (cut l 56 32)
  match numAt l 3 1 with
  | 1 => (fun (b : Storage) => { b with seed := some seed }) :: bitSteps fun n b => { b with provCells := max n b.provCells }
  | 2 => [commitOwner (freeSlot a) owner]
  | 3 => [revokeOwner, commitOwner (freeSlot a) owner]
  | 4 => [revokeOwner]
  | 5 => (bitSteps fun n b => { b with retiredCells := max n b.retiredCells }) ++
         [fun (b : Storage) => { b with seed := some (BitVec.allOnes 384) },
          fun (b : Storage) => { b with owners := b.owners.map fun _ => { key := some (BitVec.allOnes 256), revoked := true } }]
  | 7 => (upFrom (a.svnCells + 1) (8 * numAt l 4 4 - a.svnCells)).map fun n =>
         fun (b : Storage) => { b with svnCells := max n b.svnCells }
  | _ => []

/-- The copies are programmed in turn, the serving die's first; `good` steps are done in all. (DEDUCED, log 121.) -/
def program (steps : List (Storage → Storage)) (good : Nat) (s : State) : State :=
  let go (n : Nat) (a : Storage) : Storage := (steps.take n).foldl (fun a f => f a) a
  let rest := good - steps.length
  if s.boot.ctrl % 2 = 1 then
    { s with assay := { s.assay with storageA := go rest s.assay.storageA, storageB := go good s.assay.storageB } }
  else { s with assay := { s.assay with storageA := go good s.assay.storageA, storageB := go rest s.assay.storageB } }

/-! ## The seal ends, without or with its wipe (R376, R385) -/

/-- Every job key is cleared, the manifest is reset and SEALED is 0; the counters and the latch bank of a sealed job are
zeroed. -/
def dropSeal (s : State) : State :=
  let s : State := if s.sealed then { s with ctr := [], ctrT := [], bt := { s.bt with bank := [] } } else s
  let s := forEach (fun l s => s.clearFlag (Reg.runLinkStatus l) 28) (upFrom 0 16) s
  let k := s.assay.keys
  { s.clearFlag Reg.glbState 12 with
    manifest := none
    verified := []
    assay := { s.assay with keys := { hbmFw := k.hbmFw, hbmOwn := k.hbmOwn, transport := k.transport } } }

/-- What the companion asks of memory and the Crucible holds is refused (R374, R393). -/
def refuseHeld (s : State) : State :=
  let asks : Held → Option SprIn
    | .sprue q => if q.opc = 0x21 ∨ q.opc = 0x22 then none else some q
    | _ => none
  forEach (fun q s => refuseReq q 2 s) (s.held.filterMap asks) { s with held := s.held.filter fun h => (asks h).isNone }

/-- Recording stops, rings are aborted with MODE 2 and ABORTED, and a compute reset follows (R374, step 1; R376). -/
def sealQuiets (ext : Ext) (s : State) : State :=
  refuseHeld (computeEdge (floodOnReset ext (abortEvery ext 0x10 (stopRecording s))))

/-! ## Life-cycle statements (R400 to R405, R408) -/

/-- The HBM keys are gone: what a word that HBM lists deciphers to from then on is open (R81, R391). (DESIGN
CHOICE, log 195.) -/
def hbmLost (s : State) : State :=
  forEach (fun e s => if e.1 < 2 ^ 39 then
      let d := s.draw
      d.2.setByte e.1 (d.1.setWidth 8)
    else s) s.mem s

/-- Step 2 of R401: keys are cleared, rings aborted, cores held in reset, and a seal ends without its wipe. -/
def lcQuiets (ext : Ext) (s : State) : State :=
  let s := hbmLost (dropSeal (computeEdge (abortEvery ext 0x10 s)))
  { s with assay := { s.assay with keys := {}, lcHold := true } }

/-- A verified statement is carried out; `good` programming steps of both copies pass their read-back (R401, step 3).
(DEDUCED, log 121; DESIGN CHOICE, log 124; DEDUCED, log 127.) -/
def lcPerform (ext : Ext) (good : Nat) (l : List Byte) (s : State) : State :=
  let act := numAt l 3 1
  let moves := act ≠ 7
  let d := if act = 1 then drawBytes 6 s else ([], s)
  let old := storage s
  let steps := programSteps old l (BitVec.ofNat 384 (ofBytes d.1))
  let s := if moves then lcQuiets ext d.2 else d.2
  let s := program steps good s
  let seed := old.seed.getD 0
  let out := if lifecycle s = 1 then [] else hallmark s 5 (storage s) seed [] [] (sha256 (cut l 0 statementLen))
  let s := if act = 1 ∧ 2 * steps.length ≤ good then recordWrite ext (storage s).seed s else s
  let op : AsyOp :=
    if good < 2 * steps.length then { code := 3, result := rFuse, out := [], lc := moves }
    else { code := 3, result := rOk, out := out, lc := moves }
  { s with assay := { s.assay with op := some op } }

/-- LIFECYCLE (OP 0x03). (DEDUCED, log 122.) -/
def lcCommand (ext : Ext) (good : Nat) (s : State) : State :=
  let l := asyInput s
  if asyIn s [1, 2, 3] = false then asyEnds 3 rState [] s
  else if statementBars s l 0 ≠ rOk then asyEnds 3 (statementBars s l 0) [] s
  else if numAt l 3 1 = 6 then asyEnds 3 rState [] s
  else
    let r := statementVerify s l
    let s := setChallenge none s
    if r ≠ rOk then asyEnds 3 r [] s else lcPerform ext good l s

/-- POLICY (OP 0x04): the statement binds the blob's digest. (DEDUCED, log 122; DESIGN CHOICE, log 123.) -/
def policyCommand (s : State) : State :=
  let l := asyInput s
  let blob := cut l statementLen 64
  if asyIn s [3] = false then asyEnds 4 rState [] s
  else if statementBars s l 64 ≠ rOk then asyEnds 4 (statementBars s l 64) [] s
  else if numAt l 3 1 ≠ 6 then asyEnds 4 rState [] s
  else
    let r := statementVerify s l
    let s := setChallenge none s
    if r ≠ rOk then asyEnds 4 r [] s
    else if sha256 blob ≠ cut l 88 32 ∨ policyOk blob = false then asyEnds 4 rFormat [] s
    else asyEnds 4 rOk [] (applyPolicy blob s)

/-! ## Challenges and Hallmarks -/

/-- CHALLENGE (OP 0x01). (DESIGN CHOICE, log 125.) -/
def challengeCommand (s : State) : State :=
  if asyIn s [1, 2, 3] = false then asyEnds 1 rState [] s
  else if asyInput s ≠ [] then asyEnds 1 rFormat [] s
  else if s.assay.entropyOk = false then asyEnds 1 rEntropy [] s
  else
    let d := drawBytes 4 s
    asyEnds 1 rOk d.1 (setChallenge (some d.1) d.2)

/-- HALLMARK (OP 0x02). -/
def hallmarkCommand (s : State) : State :=
  let l := asyInput s
  if asyIn s [2, 3] = false then asyEnds 2 rState [] s
  else if l.length ≠ 32 then asyEnds 2 rFormat [] s
  else asyEnds 2 rOk (hallmarkNow s 1 l [] []) s

/-- COMPLETE (OP 0x0F). -/
def completeCommand (ext : Ext) (s : State) : State :=
  if lcPending s = false then asyEnds 0xF rState [] s
  else if asyInput s ≠ [] then asyEnds 0xF rFormat [] s
  else deviceReset ext s

/-! ## The seal (R371 to R376, R420, R421) -/

/-- SEAL_OFFER (OP 0x05). -/
def offerCommand (s : State) : State :=
  let l := asyInput s
  if asyIn s [3] = false ∨ s.sealed = true then asyEnds 5 rState [] s
  else if l.length ≠ 32 then asyEnds 5 rFormat [] s
  else if s.assay.entropyOk = false then asyEnds 5 rEntropy [] s
  else
    let d := drawBytes 8 s
    let rnd : W512 := BitVec.ofNat 512 (ofBytes d.1)
    let ek := Config.kemPublic rnd
    let s := setOffer (some rnd) { d.2 with assay := { d.2.assay with offerNonce := l } }
    asyEnds 5 rOk (ek ++ hallmarkNow s 2 l (sha256 ek) []) s

/-- SEAL_ENTER (OP 0x06): steps 1 to 3 of R420 at once; then seal entry quiets the device and its wipe starts.
(DEDUCED, log 119; DESIGN CHOICE, log 125.) -/
def enterCommand (ext : Ext) (s : State) : State :=
  let l := asyInput s
  let ct := cut l 0 1088
  let bundle := cut l 1088 64
  let man := l.drop 1152
  match s.assay.offer with
  | none => asyEnds 6 (if asyIn s [3] then rNoOffer else rState) [] s
  | some rnd =>
    if asyIn s [3] = false then asyEnds 6 rState [] s
    else if man.length < 160 ∨ man.length ≠ 160 + 48 * numAt man 4 2 ∨ zeroAt bundle 60 4 = false then
      asyEnds 6 rFormat [] s
    else
      let aad := sha256 man ++ sha256 ct ++ toBytes 16 (serialOf s).toNat
      let s := setOffer none s
      match Config.gcmOpen (bundleKey s rnd ct) (cut bundle 0 12) aad (cut bundle 12 32) (cut bundle 44 16) with
      | none => asyEnds 6 rAuth [] s
      | some jms =>
        if manifestOk s man = false then asyEnds 6 rRefused [] s
        else
          let op : AsyOp :=
            { code := 6, result := rOk, out := [], entering := some (s.assay.offerNonce, sha256 ct, jms) }
          let s := startWipe (.sealEntry (parseManifest man)) (sealWipe (sealQuiets ext s))
          { s with assay := { s.assay with op := some op } }

/-- SEAL_EXIT (OP 0x07): the Hallmark is signed with the seal's fields still present; then the exit's wipe starts.
(DEDUCED, log 119; DEDUCED, log 122; DESIGN CHOICE, log 123.) -/
def exitCommand (ext : Ext) (s : State) : State :=
  let l := asyInput s
  match s.manifest with
  | none => asyEnds 7 rState [] s
  | some m =>
    if s.sealed = false ∨ lcPending s = true then asyEnds 7 rState [] s
    else if l.length ≠ 96 ∨ numAt l 0 2 ≠ 1 ∨ zeroAt l 4 4 = false ∨ zeroAt l 56 8 = false then asyEnds 7 rFormat [] s
    else
      let held := s.assay.challenge
      let s := setChallenge none s
      if numAt l 8 16 ≠ (serialOf s).toNat then asyEnds 7 rAuth [] s
      else if held ≠ some (cut l 24 32) then asyEnds 7 rChallenge [] s
      else if numAt l 2 2 ≠ m.job ∨ hmac s.assay.keys.exit (cut l 0 64) ≠ cut l 64 32 then asyEnds 7 rAuth [] s
      else
        let out := hallmarkNow s 4 (cut l 24 32) [] (sha256 l)
        let s := dropSeal (sealQuiets ext s)
        startWipe .sealExit (sealWipe (asyEnds 7 rOk out s))

/-- Step 3 and 4 of seal entry (R374). (DESIGN CHOICE, log 129.) -/
def sealInstall (m : Manifest) (jms : List Byte) (s : State) : State :=
  let x (i : Nat) : Nat × Nat := m.set.getD i (0, 0)
  let set := (x 0).1 + (x 0).2 <<< 3 + (x 1).1 <<< 6 + (x 1).2 <<< 9 + (x 2).1 <<< 12 + (x 2).2 <<< 16 + (x 3).1 <<< 20
    + (x 3).2 <<< 23
  let s := (s.setFld Reg.runJob 15 0 m.job).setReg Reg.runJobSet (BitVec.ofNat 32 set)
  let keys := jobKeys s m jms
  let s := s.clearFlag Reg.sprApCtl 0
  let keep := s.xlat.filter fun e => inFirmware s (bits e.2.toNat 47 21 * 2 ^ 21)
  let s := forEach (fun (e : Nat × List Byte × List Byte) s =>
    (s.setFlag (Reg.runLinkStatus e.1) 28).modLink e.1 fun k => { k with sealTx := 0, sealRx := 0 }) keys.links s
  { s.setFlag Reg.glbState 12 with
    manifest := some m
    verified := []
    assay := { s.assay with keys := keys }
    xlat := keep
    tables := placeTables { s with xlat := keep } |>.tables
    spr := { s.spr with sealIn := [], sealOut := [], dir := [] } }

/-! ## The debug port's unlock (R395, R396) -/

/-- DBG_CHALLENGE (OP 0x08): its result and the challenge. -/
def debugChallenge (s : State) : Nat × List Byte × State :=
  if asyIn s [2, 3] = false then (rState, [], s)
  else if 3 ≤ s.dbg.fails then (rExhausted, [], s)
  else if s.assay.entropyOk = false then (rEntropy, [], s)
  else
    let d := drawBytes 4 s
    (rOk, d.1, { d.2 with dbg := { d.2.dbg with challenge := some d.1 } })

/-- A token's fields (Table 12.12). -/
def tokenOk (l : List Byte) (kind : Nat) : Bool :=
  numAt l 0 2 == 1 && numAt l 2 1 == kind && zeroAt l 3 1 && numAt l 4 4 < 16 && zeroAt l 88 8

/-- The checks of R396, step 3: the two tokens, the vendor debug public key, and in Provisioned the VENDOR_LC
certificate. (DESIGN CHOICE, log 123.) -/
def unlockCheck (s : State) (l : List Byte) : Nat :=
  let a := storage s
  let t1 := cut l 0 certLen
  let t2 := cut l certLen certLen
  let vkey := cut l (2 * certLen) 32
  let cert := l.drop (2 * certLen + 32)
  let owned := lifecycle s = 3
  let key1 := if owned then a.owner.getD 0 else certKey cert
  let serial := (serialOf s).toNat
  if tokenOk t1 1 = false ∨ tokenOk t2 2 = false ∨ numAt t1 8 16 ≠ serial ∨ numAt t2 8 16 ≠ serial then rFormat
  else if s.dbg.challenge ≠ some (cut t1 24 32) ∨ s.dbg.challenge ≠ some (cut t2 24 32) then rChallenge
  else if owned = False ∧ certCheck a 2 cert ≠ rOk then certCheck a 2 cert
  else if cut t1 56 32 ≠ sha256 (keyBytes key1) ∨ a.debugDigest ≠ some (keyOf (sha256 vkey))
      ∨ cut t2 56 32 ≠ sha256 vkey then rKey
  else if verifies key1 (cut t1 0 96) (cut t1 96 7856) = false
      ∨ verifies (keyOf vkey) (cut t2 0 96) (cut t2 96 7856) = false then rSignature
  else rOk

/-- DBG_UNLOCK (OP 0x09): its result; a success restarts the device, whose wipe ends with the port unlocked.
(DEDUCED, log 130.) -/
def debugUnlock (l : List Byte) (s : State) : Nat × State :=
  let want := 2 * certLen + 32 + (if lifecycle s = 2 then certLen else 0)
  if asyIn s [2, 3] = false then (rState, s)
  else if l.length ≠ want then (rFormat, s)
  else
    let r := unlockCheck s l
    let s : State := { s with dbg := { s.dbg with challenge := none } }
    if r ≠ rOk then (r, { s with dbg := { s.dbg with fails := s.dbg.fails + 1 } })
    else
      let scope : W32 := BitVec.ofNat 32 (numAt l 4 4) &&& BitVec.ofNat 32 (numAt l (certLen + 4) 4)
      let s := restart s
      (rOk, { s with dbg := { s.dbg with granted := some scope } })

/-! ## Commands -/

/-- The operation that a write of ASY_CMD starts (Table 13.10); an opcode that is not assigned ends with BAD_FORMAT.
(DESIGN CHOICE, log 125.) -/
def asyOperation (ext : Ext) (good code : Nat) (s : State) : State :=
  match code with
  | 0x01 => challengeCommand s
  | 0x02 => hallmarkCommand s
  | 0x03 => lcCommand ext good s
  | 0x04 => policyCommand s
  | 0x05 => offerCommand s
  | 0x06 => enterCommand ext s
  | 0x07 => exitCommand ext s
  | 0x08 =>
    let r := debugChallenge s
    asyEnds 8 (if asyInput s = [] then r.1 else rFormat) (if asyInput s = [] then r.2.1 else [])
      (if asyInput s = [] then r.2.2 else s)
  | 0x09 =>
    let r := debugUnlock (asyInput s) s
    if r.1 = rOk then r.2 else asyEnds 9 r.1 [] r.2
  | 0x0F => completeCommand ext s
  | c => asyEnds c rFormat [] s

/-- A write of ASY_CMD (R416, R417): BUSY is set until the operation ends, and the last output goes. -/
def asyCommand (ext : Ext) (good : Nat) (v : W32) (s : State) : State :=
  let s := (s.setFlag Reg.asyStatus 0).setReg Reg.asyOutLen 0
  asyOperation ext good (v.toNat % 256) { s with assay := { s.assay with out := [] } }

/-- A row that writes ASY_CMD. -/
def asyRow (rq : Requester) (ext : Ext) (good code : Nat) (s : State) : State :=
  writeGate rq Reg.asyCmd (BitVec.ofNat 32 code) (asyCommand ext good (BitVec.ofNat 32 code)) s

/-- CHALLENGE. -/
def execChallenge (rq : Requester) (s : State) : Host.Outcome State Fault Refusal := .next (asyRow rq {} 0 0x01 s)

/-- HALLMARK. -/
def execHallmark (rq : Requester) (s : State) : Host.Outcome State Fault Refusal := .next (asyRow rq {} 0 0x02 s)

/-- A life-cycle row is an OP 0x03 whose statement has its ACTION, or an ACTION that no row has. (DESIGN CHOICE,
log 126.) -/
def lcRow (rq : Requester) (act good : Nat) (ext : Ext) (s : State) : State :=
  let a := numAt (asyInput s) 3 1
  if a ≠ act ∧ 1 ≤ a ∧ a ≤ 7 ∧ a ≠ 6 then s else asyRow rq ext good 0x03 s

/-- PROVISION. -/
def execProvision (rq : Requester) (good : Nat) (ext : Ext) (s : State) : Host.Outcome State Fault Refusal :=
  .next (lcRow rq 1 good ext s)

/-- ENROLL. -/
def execEnroll (rq : Requester) (good : Nat) (ext : Ext) (s : State) : Host.Outcome State Fault Refusal :=
  .next (lcRow rq 2 good ext s)

/-- TRANSFER (R402). -/
def execTransfer (rq : Requester) (good : Nat) (ext : Ext) (s : State) : Host.Outcome State Fault Refusal :=
  .next (lcRow rq 3 good ext s)

/-- RELEASE. -/
def execRelease (rq : Requester) (good : Nat) (ext : Ext) (s : State) : Host.Outcome State Fault Refusal :=
  .next (lcRow rq 4 good ext s)

/-- RETIRE (R403). -/
def execRetire (rq : Requester) (good : Nat) (ext : Ext) (s : State) : Host.Outcome State Fault Refusal :=
  .next (lcRow rq 5 good ext s)

/-- ADVANCE_SVN (R399, R408). -/
def execAdvanceSvn (rq : Requester) (good : Nat) (ext : Ext) (s : State) : Host.Outcome State Fault Refusal :=
  .next (lcRow rq 7 good ext s)

/-- POLICY (R418, R441). -/
def execPolicy (rq : Requester) (s : State) : Host.Outcome State Fault Refusal := .next (asyRow rq {} 0 0x04 s)

/-- SEAL_OFFER. -/
def execSealOffer (rq : Requester) (s : State) : Host.Outcome State Fault Refusal := .next (asyRow rq {} 0 0x05 s)

/-- SEAL_ENTER (R374, R420). -/
def execSealEnter (rq : Requester) (ext : Ext) (s : State) : Host.Outcome State Fault Refusal :=
  .next (asyRow rq ext 0 0x06 s)

/-- SEAL_EXIT (R376, R421). -/
def execSealExit (rq : Requester) (ext : Ext) (s : State) : Host.Outcome State Fault Refusal :=
  .next (asyRow rq ext 0 0x07 s)

/-- COMPLETE (R401). -/
def execComplete (rq : Requester) (ext : Ext) (s : State) : Host.Outcome State Fault Refusal :=
  .next (asyRow rq ext 0 0x0F s)

/-- DBG_CHALLENGE (R396): an instruction of the debug port, or OP 0x08. -/
def execDbgChallenge (rq : Requester) (s : State) : Host.Outcome State Fault Refusal :=
  .next <|
    if rq = .debug then
      let r := debugChallenge s
      { r.2.2 with rdata := BitVec.ofNat 256 (ofBytes r.2.1) }
    else asyRow rq {} 0 0x08 s

/-- DBG_UNLOCK (R396): an instruction of the debug port, whose input it carries, or OP 0x09. -/
def execDbgUnlock (rq : Requester) (input : List Byte) (s : State) : Host.Outcome State Fault Refusal :=
  .next <|
    if rq = .debug then
      let r := debugUnlock input s
      { r.2 with rdata := BitVec.ofNat 256 r.1 }
    else asyRow rq {} 0 0x09 s

/-- ASSAY_DONE (R416): the operation ends; a SEAL_ENTER signs its Hallmark now, and a transition becomes pending.
(DEDUCED, log 127.) -/
def execAssayDone (s : State) : Host.Outcome State Fault Refusal :=
  .next <|
    match s.assay.op with
    | none => s
    | some o =>
      if s.wiping.isSome then s
      else
        let out := match o.entering with
          | some e => hallmarkNow s 3 e.1 [] e.2.1
          | none => o.out
        let s : State := { s with assay := { s.assay with op := none, out := out } }
        let s : State := { s with regs := s.regs.filter fun e => e.1 < Reg.asyIn 0 || Reg.asyIn 16384 ≤ e.1 }
        let s := storeReg Reg.asyCmd (BitVec.ofNat 32 o.code) (s.setFld Reg.asyStatus 23 16 o.code)
        let s := s.setReg Reg.asyResult (BitVec.ofNat 32 o.result)
        let s := (s.setReg Reg.asyOutLen (BitVec.ofNat 32 out.length)).setFlag Reg.asyStatus 1
        let s := s.clearFlag Reg.asyStatus 0
        let s := if o.lc then
            let s : State := { s with assay := { s.assay with lcSince := s.beat } }
            s.setFlag Reg.asyStatus 2
          else s
        if s.flag Reg.asyCtl 8 then raiseInt (s.fld Reg.asyCtl 7 0) s else s

/-- LC_PENDING_TIMEOUT (R401): 10 s after the receipt the device resets. -/
def execLcPendingTimeout (ext : Ext) (s : State) : Host.Outcome State Fault Refusal :=
  .next (if lcPending s = true ∧ 10 * second ≤ (s.beat - s.assay.lcSince).toNat then deviceReset ext s else s)

/-- ENTROPY (R409): the DRBG stops; a device that is still in bring-up fails. -/
def execEntropy (s : State) : Host.Outcome State Fault Refusal :=
  .next <|
    let n := bootState s
    let s : State := { s with assay := { s.assay with entropyOk := false } }
    if 1 ≤ n ∧ n < 0xD then bootFail 0x0D 0 s else s

/-- MANUFACTURE_PROGRAM (R400): the manufacturing write of a Blank device through the debug port; `good` steps of both
copies are committed. The state changes at the next device reset. (DEDUCED, log 131.) -/
def execManufactureProgram (serial : BitVec 128) (rootKey debugDigest : W256) (good : Nat) (s : State) :
    Host.Outcome State Fault Refusal :=
  .next <|
    let steps : List (Storage → Storage) :=
      [fun a => { a with serial := some serial }, fun a => { a with rootKey := some rootKey },
       fun a => { a with debugDigest := some debugDigest }] ++ bitSteps fun n a => { a with testCells := max n a.testCells }
    if lifecycle s = 0 ∧ (storage s).state = 0 ∧ bootState s ≠ 0 then program steps good s else s

end Sys2Proof.Machine
end

