-- ==== Sys2Proof/Machine/CoreDma.lean ====
section
/-! DEFINITION. The completion of a transfer of the DMA engine (R206, R207, R217), and of the entries of the MXE and
vector queues (R197, R221). -/

namespace Sys2Proof.Machine

/-- Reads `n` bytes of a transfer's source, with the parts of them that are poison (R85). -/
def dmaRead (ext : Ext) (c : Nat) (d : W512) (a n : Nat) (s : State) : Except Nat (List Byte × List (Nat × Nat)) × State :=
  if Desc.inOb d then (.ok ((s.core c).obRead a n, (s.core c).obParts a n), s)
  else match coreAddr s (BitVec.ofNat 64 a) n true with
    | .error e => (.error e, s)
    | .ok (.loc va) =>
      match fetchVirt ext (Desc.marks d) va n s with
      | (.ok r, s) =>
        (.ok r, match r.2 with
          | [] => s
          | p :: _ => match translate s .read (va + p.1) with
            | some (pa, _) => reportPoison pa s
            | none => s)
      | (.error e, s) => (.error e.cause, s)
    | .ok _ => (.error Cause.translation, s)

/-- Writes bytes at a transfer's destination, the listed parts as poison; `ack` asks a peer for a WACK. -/
def dmaWrite (ext : Ext) (c : Nat) (d : W512) (ack : Bool) (a : Nat) (r : List Byte × List (Nat × Nat)) (s : State) :
    Except Nat Unit × State :=
  let bad := inParts r.2
  if Desc.inOb d then (.ok (), s.modCore c (Core.obStore (fun _ => true) bad a r.1))
  else match coreAddr s (BitVec.ofNat 64 a) r.1.length false with
    | .error e => (.error e, s)
    | .ok (.loc va) =>
      match storeVirt ext (Desc.marks d) (fun _ => true) bad va r.1 s with
      | (.ok _, s) => (.ok (), s)
      | (.error e, s) => (.error e.cause, s)
    | .ok (.peer id va) => (.ok (), sendPut c id ack (r.1.length / 4096 + 1) bad va r.1 s)
    | .ok .bad => (.error Cause.translation, s)

/-- The row copies of a transfer in order: source and destination address and length, scale rows after their rows. -/
def dmaCopies (e : DmaEntry) : List (Nat × Nat × Nat) :=
  if Desc.isEmpty e.src then []
  else (Desc.rows e.src).flatMap fun p =>
    (Desc.rowAt e.src p.1 p.2, Desc.rowAt e.dst p.1 p.2, Desc.rowBytes e.src) ::
      (if (Desc.fmt e.src).isBlock then
        [(Desc.scaleAt e.src p.1 p.2, Desc.scaleAt e.dst p.1 p.2, Desc.scaleRow e.src)] else [])

/-- Where ranges of a descriptor lie: in the operand buffer or not, address and length. -/
def dmaSpans (s : State) (need : Need) (d : W512) (l : List (Nat × Nat)) : List (Bool × Nat × Nat) :=
  if Desc.inOb d then l.map fun r => (true, r.1, r.2)
  else l.flatMap fun r =>
    match fabric s (BitVec.ofNat 64 r.1) with
    | .loc va => (pieces va r.2).filterMap fun p => (translate s need p.1).map fun x => (false, x.1, p.2)
    | _ => []

/-- Two lists of spans share a byte. -/
def spansMeet (l m : List (Bool × Nat × Nat)) : Bool :=
  l.any fun x => m.any fun y => x.1 == y.1 && decide (x.2.1 < y.2.1 + y.2.2) && decide (y.2.1 < x.2.1 + x.2.2)

/-- The bytes that a row copy leaves: where source and destination of the transfer overlap they are free (R206).
(DESIGN CHOICE, log 186.) -/
def blurRow (e : DmaEntry) (src dst : List (Bool × Nat × Nat)) (a b : Nat) (data : List Byte) (s : State) :
    List Byte × State :=
  if spansMeet src dst then
    let open_ (i : Nat) : Bool :=
      spansMeet src (dmaSpans s .write e.dst [(b + i, 1)]) || spansMeet dst (dmaSpans s .read e.src [(a + i, 1)])
    (data.zipIdx.map fun p => if open_ p.2 then (Config.freeWord (s.free + p.2)).setWidth 8 else p.1,
      { s with free := s.free + data.length })
  else (data, s)

/-- Copies rows; the first refused one ends the transfer with its cause. Poison is moved as poison, and the transfer
then ends with POISON (R85, R206). -/
def dmaCopy (ext : Ext) (c : Nat) (e : DmaEntry) (ack : Bool) (src dst : List (Bool × Nat × Nat)) :
    Bool → List (Nat × Nat × Nat) → State → Option Nat × State
  | bad, [], s => (if bad then some Cause.poison else none, s)
  | bad, (a, b, n) :: t, s =>
    match dmaRead ext c e.src a n s with
    | (.error x, s) => (some x, s)
    | (.ok r, s) =>
      let o := blurRow e src dst a b r.1 s
      match dmaWrite ext c e.dst (ack && t.isEmpty) b (o.1, r.2) o.2 with
      | (.error x, s) => (some x, s)
      | (.ok _, s) =>
        dmaCopy ext c e ack src dst (bad || !r.2.isEmpty) t
          (s.modCore c fun k => { k with dmaBytes := k.dmaBytes + BitVec.ofNat 64 n })

/-- Copies the whole tensor of a transfer. -/
def dmaTensor (ext : Ext) (c : Nat) (e : DmaEntry) (ack : Bool) (s : State) : Option Nat × State :=
  let l := dmaCopies e
  dmaCopy ext c e ack (dmaSpans s .read e.src (l.map fun r => (r.1, r.2.2)))
    (dmaSpans s .write e.dst (l.map fun r => (r.2.1, r.2.2))) false l s

/-- The flag write that ends a put (R207): on this device after the data, or by PUT_FLAG at the peer, which asks for a
WACK (R301). (DEDUCED, log 61.) -/
def putFlag (ext : Ext) (c : Nat) (e : DmaEntry) (s : State) : Option Nat × State :=
  let fa := bits e.flagAddr.toNat 47 3 * 8
  match fabric s (BitVec.ofNat 64 (Desc.base e.dst)) with
  | .peer id va =>
    let rs := coreRing s c
    let m : RunMsg :=
      { opc := 0x02, vc := dataVc (ownId s) id, ackReq := true, dest := id, src := ownId s, stream := c % 256,
        addr := va, ring := rs.1, seq := rs.2,
        ext := some (BitVec.ofNat 256 (fa + e.flagVal.toNat <<< 64)) }
    (none, runSend m (s.modCore c fun k => { k with putsOut := k.putsOut + 1 }))
  | _ =>
    match writeVirt ext {} (fun _ => true) fa (toBytes 8 e.flagVal.toNat) s with
    | (.ok _, s) => (none, s)
    | (.error x, s) => (some x.cause, s)

/-- The non-finite elements of a row of contributions (R220). -/
def raccNonfinite (f : Fmt) (n : Nat) (row scales : List Byte) : Nat :=
  let r := ofBytes row
  let sc := ofBytes scales
  let val (i : Nat) : Val :=
    let code := (r >>> (f.bits * i)) % 2 ^ f.bits
    if f.isBlock then f.entryVal ((sc >>> (8 * f.scaleBytes * (i / 32))) % 2 ^ (8 * f.scaleBytes)) (i % 32) code
    else f.elemVal code
  ((upFrom 0 n).filter fun i => (val i).nonfinite).length

/-- The pieces of at most 1,024 elements a row is sent in: first element and count. -/
def raccPieces (n : Nat) : List (Nat × Nat) :=
  (upFrom 0 ((n + 1023) / 1024)).map fun i => (i * 1024, min 1024 (n - i * 1024))

/-- Sends one row of contributions (R217), up to the first piece whose address is refused (R169 to R171).
(DEDUCED, log 26; DEDUCED, log 61.) -/
def raccRow (c : Nat) (e : DmaEntry) (z y : Nat) (row scales : List Byte) : List (Nat × Nat) → State → Option Nat × State
  | [], s => (none, s)
  | p :: t, s =>
    let f := Desc.fmt e.src
    let own := ownId s
    let rs := coreRing s c
    let a := Desc.rowAt e.dst z y + 4 * p.1
    let data := ((row.drop (p.1 * f.bits / 8)).take (p.2 * f.bits / 8)) ++
      (if f.isBlock then (scales.drop (p.1 / 32 * f.scaleBytes)).take (p.2 / 32 * f.scaleBytes) else [])
    let ext := redExt (Desc.layerTag e.dst) (Desc.redId e.dst) (Desc.deadline e.dst) e.tileLo.toNat e.tileHi.toNat
      (Desc.fmtByte e.src) 0 c 0
    let send (id va : Nat) (s : State) : State :=
      let pair : RedPair :=
        { owner := id, red := Desc.redId e.dst, layer := Desc.layerTag e.dst, deadline := Desc.deadline e.dst }
      let m : RunMsg :=
        { opc := 0x10, vc := dataVc own id, dest := id, src := own, stream := c % 256, addr := va, ring := rs.1,
          seq := rs.2, ext := some ext, data := data }
      raccSend m (s.modCore c (notePair e.tileHi pair))
    match coreAddr s (BitVec.ofNat 64 a) (4 * p.2) false with
    | .error x => (some x, s)
    | .ok (.loc va) =>
      if translates s .write va (4 * p.2) then raccRow c e z y row scales t (send own va s) else (some Cause.translation, s)
    | .ok (.peer id va) => raccRow c e z y row scales t (send id va s)
    | .ok .bad => (some Cause.translation, s)

/-- A read of a RACC's source, which consumes what it reads (R85). -/
def raccRead (ext : Ext) (c : Nat) (d : W512) (a n : Nat) (s : State) : Except Nat (List Byte) × State :=
  match dmaRead ext c d a n s with
  | (.ok (l, []), s) => (.ok l, s)
  | (.ok _, s) => (.error Cause.poison, s)
  | (.error x, s) => (.error x, s)

/-- Sends the rows of a RACC in order, counting the non-finite elements it sends; the first refused one ends it. -/
def raccRows (ext : Ext) (c : Nat) (e : DmaEntry) : Nat → List (Nat × Nat) → State → Option Nat × Nat × State
  | nf, [], s => (none, nf, s)
  | nf, (z, y) :: t, s =>
    match raccRead ext c e.src (Desc.rowAt e.src z y) (Desc.rowBytes e.src) s with
    | (.error x, s) => (some x, nf, s)
    | (.ok row, s) =>
      let sc := if (Desc.fmt e.src).isBlock then
          raccRead ext c e.src (Desc.scaleAt e.src z y) (Desc.scaleRow e.src) s
        else (.ok [], s)
      match sc with
      | (.error x, s) => (some x, nf, s)
      | (.ok scales, s) =>
        let n := raccNonfinite (Desc.fmt e.src) (Desc.dim0 e.src) row scales
        let s := s.modCore c fun k =>
          { k.raise { nonfinite := n } with dmaBytes := k.dmaBytes + BitVec.ofNat 64 (Desc.rowBytes e.src) }
        match raccRow c e z y row scales (raccPieces (Desc.dim0 e.src)) s with
        | (some x, s) => (some x, nf + n, s)
        | (none, s) => raccRows ext c e (nf + n) t s

/-- A transfer is carried out: the rows, then a put's flag. The second part counts the non-finite elements that a RACC
sent. -/
def dmaRun (ext : Ext) (c : Nat) (e : DmaEntry) (s : State) : Option Nat × Nat × State :=
  match e.kind with
  | .dma =>
    let r := dmaTensor ext c e true s
    (r.1, 0, r.2)
  | .put =>
    if hitsRegSpace (bits e.flagAddr.toNat 47 3 * 8) 8 then (some Cause.privilege, 0, s)
    else
      match dmaTensor ext c e false s with
      | (some x, s) => (some x, 0, s)
      | (none, s) =>
        let r := putFlag ext c e s
        (r.1, 0, r.2)
  | .racc => if Desc.isEmpty e.src then (none, 0, s) else raccRows ext c e 0 (Desc.rows e.src) s

/-- The oldest transfer of a core's engine is carried out and completes. -/
def dmaDone (c : Nat) (ext : Ext) (s : State) : State :=
  match (s.core c).dmaQ with
  | [] => s
  | e :: t =>
    let r := dmaRun ext c e s
    let s := r.2.2.modCore c fun k => { k with dmaQ := t }
    match r.1 with
    | some x => if (s.core c).mode = .running then trapAt c x e.pc s else s
    | none =>
      let s := s.modCore c fun k => { k with retired := k.retired + 1, lastRetire := s.beat }
      let k := s.core c
      if k.mode = .running ∧ k.trapEn.getLsbD 4 = true ∧ r.2.1 ≠ 0 then trapAt c Cause.arith e.pc s else retryCore c s

/-- The oldest transfer of a core's engine reaches a stack whose window is active. -/
def dmaHeld (s : State) (c : Nat) : Bool :=
  let at_ (d : W512) (a n : Nat) : Bool := !Desc.inOb d && (match fabric s (BitVec.ofNat 64 a) with
    | .loc va => rangeHeld s va n
    | _ => false)
  match (s.core c).dmaQ with
  | [] => false
  | e :: _ =>
    if e.kind = .racc then (Desc.rows e.src).any fun p => at_ e.src (Desc.rowAt e.src p.1 p.2) (Desc.rowBytes e.src)
    else (dmaCopies e).any fun r => at_ e.src r.1 r.2.2 || at_ e.dst r.2.1 r.2.2

/-- DMA_DONE: the oldest transfer of a core's engine completes; a refused one traps at its instruction. A core that
waits tries again. While the Crucible (R52, R88) or the window of a stack (R443) holds its accesses it does not
complete. -/
def execDmaDone (c : Nat) (ext : Ext) (s : State) : Host.Outcome State Fault Refusal :=
  .next (if cruHolds s || dmaHeld s c then s else dmaDone c ext (settleFills s))

/-- An entry of a unit queue retires: it raises its conditions, and an enabled one traps ARITH at its instruction. -/
def unitDone (c : Nat) (e : UnitEntry) (s : State) : State :=
  let s := s.modCore c fun k => { k.raise e.conds with retired := k.retired + 1, lastRetire := s.beat }
  let k := s.core c
  if k.mode = .running ∧ k.arithTrap e.conds = true then trapAt c Cause.arith e.pc s else retryCore c s

/-- MXE_DONE: the oldest instruction of the MXE queue retires. (DEDUCED, log 15.) -/
def execMxeDone (c : Nat) (s : State) : Host.Outcome State Fault Refusal :=
  .next <|
    match (s.core c).mxeQ with
    | [] => s
    | e :: t => unitDone c e (s.modCore c fun k => { k with mxeQ := t })

/-- VECTOR_DONE: the oldest instruction of the vector queue retires. (DEDUCED, log 15.) -/
def execVectorDone (c : Nat) (s : State) : Host.Outcome State Fault Refusal :=
  .next <|
    match (s.core c).vecQ with
    | [] => s
    | e :: t => unitDone c e (s.modCore c fun k => { k with vecQ := t })

/-- A core held in an instruction of this opcode whose condition a write has met goes on. -/
def wakeMet (op c : Nat) (s : State) : State :=
  match (s.core c).hold with
  | some h => if bits h.w.toNat 62 56 = op ∧ h.met = true then finish c 8 id s else s
  | none => s

/-- A core held in an instruction of this opcode tries it again. (DEDUCED, log 12.) -/
def wakeRetry (op c : Nat) (s : State) : State :=
  match (s.core c).hold with
  | some h => if bits h.w.toNat 62 56 = op then retryCore c s else s
  | none => s

/-- EWAIT_WAKE. -/
def execEwaitWake (c : Nat) (s : State) : Host.Outcome State Fault Refusal := .next (wakeMet 0x61 c s)
/-- MWAIT_WAKE. -/
def execMwaitWake (c : Nat) (s : State) : Host.Outcome State Fault Refusal := .next (wakeMet 0x62 c s)
/-- SQRES_WAKE. -/
def execSqresWake (c : Nat) (s : State) : Host.Outcome State Fault Refusal := .next (wakeRetry 0x71 c s)
/-- SQPOP_WAKE. -/
def execSqpopWake (c : Nat) (s : State) : Host.Outcome State Fault Refusal := .next (wakeRetry 0x73 c s)

end Sys2Proof.Machine
end

