-- ==== Sys2Proof/Machine/BeatRows.lean ====
section
/-! DEFINITION. The commands and events of the training registers, the Beat, the counter latch and the trace streams
(R325, R326, R331, R333, R335, R341, R344, R346, R351, R359 to R362, R364). -/

namespace Sys2Proof.Machine

/-! ## Training registers -/

/-- TRN_ERR bits: 0 BAD_WRITE, 1 STEP_END_EARLY, 3 LATE_VETO. -/
def trnErr (b : Nat) (s : State) : State := s.setFlag Reg.trnErr b

/-- A write of TRN_CTL.VETO (R326, R331). -/
def softwareVeto (ext : Ext) (s : State) : State :=
  if s.flag Reg.trnCtl 0 = false then trnErr 0 s
  else if s.gateSent then trnErr 3 s
  else vetoStep ext 3 (vetoData s 0 0 3) s

/-- A write of TRN_CTL.STEP_END (R333). -/
def stepEndWrite (ext : Ext) (s : State) : State :=
  if s.flag Reg.trnStatus 1 = false then trnErr 1 s else stepEnd ext s

/-- A write of TRN_CTL. With ENABLE 1 and VETOED 1 the collective engine acts as R329 states, whatever was begun while
ENABLE was 0. -/
def trnCtlWrite (ext : Ext) (v : W32) (s : State) : State :=
  let s := storeReg Reg.trnCtl v s
  let s := if s.flag Reg.trnCtl 0 = true ∧ s.flag Reg.trnStatus 0 = true then applyVeto ext s else s
  let s := if v.getLsbD 1 then softwareVeto ext s else s
  if v.getLsbD 2 then stepEndWrite ext s else s

/-- A TRN_SCALE value is a power of two within TRN_LIMITS (R325). -/
def scaleOk (s : State) (v : W32) : Bool :=
  (upFrom (s.fld Reg.trnLimits 4 0) 25).any fun k => k ≤ s.fld Reg.trnLimits 12 8 && v.toNat == pow2 k

/-- A write of a register of R325; the others of the block are read only. -/
def trnWrite (off : Nat) (v : W32) (s : State) : State :=
  if [Reg.trnScale, Reg.trnStep, Reg.trnUpdates, Reg.trnClean, Reg.trnVetoes, Reg.trnGrowth, Reg.trnLimits, Reg.trnGate,
      Reg.trnMirrorLo, Reg.trnMirrorHi].contains off = false then s
  else if s.flag Reg.trnCtl 0 then trnErr 0 s
  else if off = Reg.trnScale ∧ scaleOk s v = false then trnErr 0 s
  else if off = Reg.trnLimits ∧ (24 < bits v.toNat 12 8 ∨ bits v.toNat 12 8 < bits v.toNat 4 0) then rangeDrop s
  else
    let s := storeReg off v s
    if off = Reg.trnScale ∨ off = Reg.trnStep ∨ off = Reg.trnUpdates ∨ off = Reg.trnClean ∨ off = Reg.trnVetoes then
      writeStepWord s
    else s

/-- SOFTWARE_VETO: a write of 1 to TRN_CTL.VETO. -/
def execSoftwareVeto (rq : Requester) (ext : Ext) (s : State) : Host.Outcome State Fault Refusal :=
  let v := s.reg Reg.trnCtl ||| 2#32
  .next (writeGate rq Reg.trnCtl v (trnCtlWrite ext v) s)

/-- STEP_GATE_ARRIVE (R331). -/
def execStepGateArrive (ext : Ext) (s : State) : Host.Outcome State Fault Refusal := .next (gateArrive ext s)

/-- STEP_END: a write of 1 to TRN_CTL.STEP_END. -/
def execStepEnd (rq : Requester) (ext : Ext) (s : State) : Host.Outcome State Fault Refusal :=
  let v := s.reg Reg.trnCtl ||| 4#32
  .next (writeGate rq Reg.trnCtl v (trnCtlWrite ext v) s)

/-! ## Copies of the Beat -/

/-- The SOURCE of the unit on a die (Tables 2.3 and 11.6). -/
def dieSource (die : Nat) : Nat :=
  if die < 32 then 8 * die
  else if die < 48 then 0x700 + (die - 32)
  else if die < 56 then 0x400 + (die - 48)
  else if die < 60 then 0x500 + (die - 56)
  else if die < 62 then 0x900
  else 0x600 + (die - 62)

/-- A copy that differs from the value sent loads it (R341). -/
def loadCopy (die : Nat) (s : State) : State :=
  let s : State := { s with drift := Tab.erase s.drift die }
  beatLog die ((s.setFlag Reg.beatFault 1).count 0x005 1)

/-- BEAT_BROADCAST (R341): every 1,024 Beats the master sends its value, and every copy that differs loads it. `drift` says
by how much copies of logic dies go wrong until the next one. (DEDUCED, log 101.) -/
def execBeatBroadcast (drift : List (Nat × W64)) (s : State) : Host.Outcome State Fault Refusal :=
  .next <|
    if s.beat.toNat % 1024 ≠ 0 then s
    else
      let s := forEach loadCopy (s.drift.map (·.1)) s
      let new := drift.filter fun e => e.1 < 64 ∧ e.1 ≠ ctrlDie s ∧ dieReloads s e.1 = false
      { s with drift := new.foldl (fun t e => Tab.set 0 t e.1 e.2) s.drift }

/-- The cores of a compute die that wait for a stamp try again. -/
def retryStamps (die : Nat) (s : State) : State := forEach (wakeRetry 0x68) (upFrom (8 * die) 8) s

/-- The records of a die take the stamps they have waited for (R344). -/
def fillStamps (die : Nat) (s : State) : State :=
  forEach (fun i s => s.modStream i fun k =>
    { k with buf := k.buf.map fun r => if r.die == die && r.beat.isNone then { r with beat := some (s.copyOf die) } else r })
    (upFrom 0 8) s

/-- BEAT_RELOAD_DONE (R344): the copy has the master's value again, and what waited for a stamp takes it. -/
def execBeatReloadDone (die : Nat) (s : State) : Host.Outcome State Fault Refusal :=
  .next <|
    if dieReloads s die = false then s
    else
      let s : State := { s with reloading := s.reloading.filter fun p => p.1 != die, drift := Tab.erase s.drift die }
      let s := fillStamps die s
      let s := traceEmit 0x87 die (dieSource die) none die (s.count 0x005 1)
      if die < 32 then retryStamps die s else s

/-- RELOAD_FAIL (R344, R433): a copy has not reloaded within 4 µs. -/
def execReloadFail (die : Nat) (ext : Ext) (s : State) : Host.Outcome State Fault Refusal :=
  .next <|
    if s.reloading.any fun p => p.1 == die && 4000 ≤ (s.beat - p.2).toNat then
      let s : State := { s with reloading := s.reloading.filter fun p => p.1 != die,
                                rgl := { s.rgl with failed := s.rgl.failed.filter (· != die) ++ [die] } }
      uncontained ext 3 die (beatLog die (s.setFlag Reg.beatFault 2))
    else s

/-- SYNC_INTERVAL (R346). (DEDUCED, log 100.) -/
def execSyncInterval (s : State) : Host.Outcome State Fault Refusal :=
  .next <|
    if s.flag Reg.beatCtl 3 = true ∧ s.flag Reg.beatCtl 4 = false ∧ s.flag Reg.beatStatus 2 = false
        ∧ 1000 * syncInterval s ≤ (s.beat - s.bt.lastSent).toNat then
      syncSend s
    else s

/-- STRIKE_SET_SEND (R351): a write of BEAT_SS_SEND_HI. -/
def execStrikeSetSend (rq : Requester) (v : W32) (s : State) : Host.Outcome State Fault Refusal :=
  .next (writeGate rq Reg.beatSsSendHi v (strikeSetSend v) s)

/-! ## The counter latch (R359) -/

/-- Every die copies its counters, with their tags, into the latch bank. (DESIGN CHOICE, log 112.) -/
def latchAll (s : State) : State :=
  let bank := (upFrom 0 2048).foldl
    (fun t sel => if counterAssigned sel then Tab.set 0 t sel (counterSnap s sel) else t) ([] : Tab W128)
  s.modBt fun b => { b with bank := bank, latch := none }

/-- A write of CNT_LATCH_HI arms the latch; a target that has passed latches at once. -/
def latchArm (v : W32) (s : State) : State :=
  let s := storeReg Reg.cntLatchHi v s
  let target : W64 := BitVec.ofNat 64 ((s.reg Reg.cntLatchLo).toNat + v.toNat * 2 ^ 32)
  if target.toNat < s.beat.toNat then (latchAll s).setReg Reg.cntStatus 6
  else (s.modBt fun b => { b with latch := some target }).setReg Reg.cntStatus 1

/-- LATCH_ARM. -/
def execLatchArm (rq : Requester) (v : W32) (s : State) : Host.Outcome State Fault Refusal :=
  .next (writeGate rq Reg.cntLatchHi v (latchArm v) s)

/-- LATCH_FIRE: the copies reach the target; any two of them lie within one Beat, and the model's lie together. -/
def execLatchFire (s : State) : Host.Outcome State Fault Refusal :=
  .next <|
    match s.bt.latch with
    | some t => if t.toNat ≤ s.beat.toNat then (latchAll s).setReg Reg.cntStatus 2 else s
    | none => s

/-! ## Trace streams (R360 to R362) -/

/-- The die whose counter a selector names. -/
def counterDie (s : State) (sel : Nat) : Nat :=
  if 0x200 ≤ sel then (sel - 0x200) / 6 / 8
  else if 0x180 ≤ sel then 62
  else if 0x100 ≤ sel then 56 + (sel - 0x100) / 8 / 4
  else if 0x0C0 ≤ sel then 48 + (sel - 0x0C0) / 8
  else if 0x040 ≤ sel then 32 + (sel - 0x040) / 8
  else ctrlDie s

/-- TRACE_SAMPLE: the interval of a stream's TRC_SAMPLE has passed. (DEDUCED, log 113.) -/
def execTraceSample (n : Nat) (s : State) : Host.Outcome State Fault Refusal :=
  .next <|
    let micros := s.fld (Reg.trcSample n) 31 16
    let sel := s.fld (Reg.trcSample n) 10 0
    if n < 8 ∧ streamTakes s n 0x84 none = true ∧ micros ≠ 0 ∧ 1000 * micros ≤ (s.beat - (s.stream n).lastSample).toNat then
      let s := s.modStream n fun k => { k with lastSample := s.beat }
      let die := counterDie s sel
      traceEnter n die 0x84 (dieSource die) (sel + (counterReported s sel).toNat <<< 16) s
    else s

/-- The payload of an accepted record: EVENT_BEAT, then bytes 22 to 31 (R360). -/
def TraceRec.payload (r : TraceRec) : Nat := beatOf (r.beat.getD 0) + r.body <<< 48

/-- The die that holds a place of the Crucible or of HBM. -/
def placeDie (s : State) (a : Nat) : Nat := if a < 2 ^ 39 then 48 + a / 2 ^ 36 else 32 + homeSlice s a

/-- Writes a record into a stream's buffer, or drops it; a buffer that is not scratch or HBM is refused. (DEDUCED,
log 60; DEDUCED, log 114.) -/
def traceWrite (i : Nat) (r : TraceRec) (s : State) : State :=
  let n := s.fld (Reg.trcSize i) 4 0
  let wr := s.reg (Reg.trcWr i)
  if (wr - s.reg (Reg.trcRd i)).toNat = 2 ^ n then s.addSat (Reg.trcDrops i) 1
  else
    let base := s.fld (Reg.trcBaseHi i) 15 0 * 2 ^ 32 + s.fld (Reg.trcBaseLo i) 31 5 * 32
    let a := base + 32 * (wr.toNat % 2 ^ n)
    let e := mkNotice r.type (s.fld (Reg.trcCtl i) 9 8) r.source wr.toNat (s.copyOf (placeDie s a)) r.payload
    let refuse (s : State) : State := errLogOther 0x900 (s.clearFlag (Reg.trcCtl i) 0)
    match place s a with
    | .scratch _ | .hbm _ =>
      match writePhys {} {} (fun _ => true) a (toBytes 32 e.toNat) s with
      | (.ok _, s) => s.setReg (Reg.trcWr i) (wr + 1)
      | (.error _, s) => refuse s
    | .window => refuse (s.setFlag Reg.cruErrStatus 3)
    | _ => refuse s

/-- TRACE_RECORD_ACCEPT: the oldest record of a die's buffer reaches the sink, at most one per stream in 4 Beats. -/
def execTraceRecordAccept (n die : Nat) (s : State) : Host.Outcome State Fault Refusal :=
  .next <|
    let ready := match (s.stream n).lastAcc with
      | some b => 4 ≤ (s.beat - b).toNat
      | none => true
    match (s.stream n).buf.find? fun r => r.die == die with
    | none => s
    | some r =>
      if 8 ≤ n ∨ ready = false ∨ s.flag (Reg.trcCtl n) 0 = false ∨ r.beat = none ∨ cruHolds s = true then s
      else
        let s := s.modStream n fun k => { k with buf := eraseFirst (fun r => r.die == die) k.buf, lastAcc := some s.beat }
        if s.flag (Reg.trcCtl n) 1 then traceWrite n r s
        else (nqPost (s.fld (Reg.trcCtl n) 21 16) r.source false r.type (s.fld (Reg.trcCtl n) 9 8) r.payload s).1

/-- GROUP_CLOSE_TIMEOUT (R364): 4,096 Beats since the first message of a link's group. -/
def execGroupCloseTimeout (l v : Nat) (s : State) : Host.Outcome State Fault Refusal :=
  .next <|
    let key := 8 * l + v % 8
    let g := Tab.get {} s.rrGroups key
    if g.count ≠ 0 ∧ 4096 ≤ (s.beat - g.first).toNat then closeGroup key s else s

end Sys2Proof.Machine
end

