-- ==== Sys2Proof/Machine/BootRows.lean ====
section
/-! DEFINITION. Bring-up, the training of the Sprue, and the package's pins (R459 to R476, R479 to R490). -/

namespace Sys2Proof.Machine

/-! ## Pins (R479 to R485, R490) -/

/-- Changes what the pins and bring-up hold. -/
def State.modBoot (s : State) (f : Boot → Boot) : State := { s with boot := f s.boot }

/-- RESET_N_RELEASE: RESET_N rises. After a rail fault or a loss of the reference it ends the power-up of Table 16.3;
while the rails or the reference are not `good`, bring-up waits (R481). (DESIGN CHOICE, log 132.) -/
def execResetNRelease (good : Bool) (s : State) : Host.Outcome State Fault Refusal :=
  .next <|
    if s.boot.resetN then s
    else restart (s.modBoot fun b =>
      { b with resetN := true, rails := good, refclk := good, refLost := false, railFault := false })

/-- RAILS_IN_RANGE: with RESET_N high, the last rail or the reference comes within its limits. -/
def execRailsInRange (s : State) : Host.Outcome State Fault Refusal :=
  .next <|
    let b := s.boot
    if b.resetN = false ∨ (b.rails && b.refclk) = true ∨ b.refLost = true ∨ b.railFault = true then s
    else restart (s.modBoot fun b => { b with rails := true, refclk := true })

/-- RESET_N_LOW: RESET_N is low for 1 µs; with the rails in range a device reset is performed. -/
def execResetNLow (ext : Ext) (s : State) : Host.Outcome State Fault Refusal :=
  .next <|
    if s.boot.resetN = false then s
    else
      let good := s.boot.rails && !s.boot.railFault && !s.boot.refLost
      let low (s : State) : State := s.modBoot fun b => { b with resetN := false }
      if good then restart (low (floodOnReset ext s)) else low s

/-- RAIL_FAULT: every die supply is dropped, and only a power-up ends this state. (DEDUCED, log 197.) -/
def execRailFault (s : State) : Host.Outcome State Fault Refusal :=
  .next ((restart (s.modBoot fun b => { b with rails := false, railFault := true })).modBoot fun b => { b with faultN := true })

/-- REFCLK_LOSS (R483). (DEDUCED, log 197.) -/
def execRefclkLoss (s : State) : Host.Outcome State Fault Refusal :=
  .next ((restart (s.modBoot fun b => { b with refclk := false, refLost := true })).modBoot fun b => { b with faultN := true })

/-- THERMTRIP (R485): the pin stays low until power is removed. (DEDUCED, log 197.) -/
def execThermtrip (s : State) : Host.Outcome State Fault Refusal :=
  .next (s.modBoot fun b => { b with thermtripN := true })

/-- The hottest junction in whole °C, saturating at 255. -/
def hottest (s : State) : Nat := min 255 ((s.rgl.tele.map fun e => e.2.junction / 16).foldl max 0)

/-- The bytes of the management interface (Table 16.9). -/
def bmiBytes (s : State) : List Byte :=
  let fault := b2n s.boot.faultN + 2 * b2n (s.flag Reg.rsrStatus 1) + 4 * b2n (s.flag Reg.rglStatus 4)
    + 8 * b2n s.boot.refLost + 16 * b2n s.boot.railFault
  toBytes 1 (bootState s) ++ toBytes 1 s.boot.code ++ toBytes 1 fault ++ toBytes 1 (hottest s)
    ++ toBytes 2 (s.fld Reg.rglPower 12 0) ++ toBytes 2 0

/-- BMI_READ: one byte, served from the release of RESET_N; a read of byte 0 releases BMI_ALERT_N. -/
def execBmiRead (off : Nat) (s : State) : Host.Outcome State Fault Refusal :=
  .next <|
    if s.boot.resetN = false ∨ 8 ≤ off then s
    else
      let s : State := { s with rdata := ((bmiBytes s).getD off 0).setWidth 256 }
      if off = 0 then s.modBoot fun b => { b with alertN := false } else s

/-! ## Control die, dies and memory (R461 to R465) -/

/-- Two copies of a field: what either has committed, with the cells of both set. -/
def mergeField {w : Nat} (a b : Option (BitVec w)) : Option (BitVec w) :=
  match a, b with
  | some x, some y => some (x ||| y)
  | some x, none => some x
  | none, y => y

/-- Every cell set in either copy (R462). -/
def mergeStorage (a b : Storage) : Storage :=
  { serial := mergeField a.serial b.serial
    rootKey := mergeField a.rootKey b.rootKey
    debugDigest := mergeField a.debugDigest b.debugDigest
    testCells := max a.testCells b.testCells
    provCells := max a.provCells b.provCells
    retiredCells := max a.retiredCells b.retiredCells
    seed := mergeField a.seed b.seed
    owners := (a.owners.zip b.owners).map fun p =>
      { key := mergeField p.1.key p.2.key, revoked := p.1.revoked || p.2.revoked }
    svnCells := max a.svnCells b.svnCells }

/-- CTRL_SELECT: which control dies pass the four checks of R461. (DEDUCED, log 133.) -/
def execCtrlSelect (aOk bOk : Bool) (s : State) : Host.Outcome State Fault Refusal :=
  .next <|
    if bootState s ≠ 1 then s
    else if aOk = false ∧ bOk = false then bootFail 0x01 0 s
    else
      let a := s.assay.storageA
      let b := s.assay.storageB
      let differ := aOk && bOk && a != b
      let m := mergeStorage a b
      let s : State := if differ then { s with assay := { s.assay with storageA := m, storageB := m } } else s
      let ctrl := b2n (!aOk) + 2 * b2n (!(aOk && bOk)) + 4 * b2n differ
      let s := s.modBoot fun b => { b with ctrl := ctrl, sprPhase := 1, sprSince := s.beat }
      let s := (s.setFld Reg.glbState 4 4 (b2n (!aOk))).setFld Reg.glbState 10 8 (storage s).state
      enterState 2 s

/-- A Riser of the record takes effect on the device (R445, R471). -/
def applyEntry (e : RecEntry) (s : State) : State :=
  let k := e.die - 48
  match e.kind with
  | 3 | 4 => s.setFld Reg.rsrMxe 15 0 (s.fld Reg.rsrMxe 15 0 + 1)
  | 6 => s.setFlag Reg.rsrBanks (e.die - 32)
  | 7 => s.setFld (Reg.hbmPpr k) 15 8 (min (s.fld (Reg.hbmPpr k) 15 8 + 1) 0xFF)
  | 8 => s.setFld (Reg.hbmPpr k) 31 24 (min (s.fld (Reg.hbmPpr k) 31 24 + 1) 0xFF)
  | 9 => if s.retired.contains e.index then s else { s with retired := s.retired ++ [e.index] }
  | 10 => s.setFlag Reg.rsrLanes (16 + (e.die - 56) * 4 + e.index / 18)
  | 11 => s.setFlag Reg.rsrLanes (e.die - 62)
  | _ => s

/-- The registers that count over the whole record: cores with spare rows or columns, and gate groups. -/
def countRecord (s : State) : State :=
  let cores := ((s.rgl.entries.filter fun e => e.kind == 3 || e.kind == 4).map fun e => (e.die, e.index / 256)).eraseDups
  let groups := ((s.rgl.entries.filter fun e => e.kind == 12).map fun e => (e.die, e.index / groupWires)).eraseDups
  (s.setFld Reg.rsrMxe 31 16 cores.length).setFld Reg.rsrGates 15 0 groups.length

/-- The Risers that a test accepts take effect. -/
def applyRisers (p : RecEntry → Bool) (s : State) : State := countRecord (forEach applyEntry (s.rgl.entries.filter p) s)

/-- The core ids of a compute die take no part. (DEDUCED, log 144.) -/
def excludeDie (die : Nat) (s : State) : State :=
  let s := s.modBoot fun b => { b with excluded := b.excluded ||| (1#32 <<< die) }
  let s : State := { s with rgl := { s.rgl with failed := s.rgl.failed ++ [die] } }
  forEach (fun c s => (s.clearFlag (Reg.glbCoreMap (c / 32)) (c % 32)).modCore c fun k => { k with mode := .outOfService })
    (upFrom (8 * die) 8) s

/-- DIE_INIT (R463): compute dies that are excluded, another die that fails, or a gate group short of spare wires. -/
def execDieInit (excluded : List Nat) (badDie : Option Nat) (badGate : Option (Nat × Nat)) (s : State) :
    Host.Outcome State Fault Refusal :=
  .next <|
    if bootState s ≠ 2 then s
    else if s.assay.entropyOk = false then bootFail 0x0D 0 s
    else match badDie, badGate with
      | some d, _ => bootFail 0x02 d s
      | none, some g => bootFail 0x03 (g.1 + g.2 * 256) s
      | none, none =>
        let s := forEach excludeDie (excluded.eraseDups.filter (· < 32)) s
        let d := drawBytes 2 (applyRisers (·.fused) s)
        enterState 3 { d.2 with assay := { d.2.assay with resetNonce := d.1 } }

/-- The repairs that a stack has left, which the spec takes from JEDEC HBM4 (a free value). (DESIGN CHOICE, log
196.) -/
def repairsLeft (k : Nat) (s : State) : State :=
  let d := s.draw
  (d.2.setFld (Reg.hbmPpr k) 7 0 (d.1.toNat % 256)).setFld (Reg.hbmPpr k) 23 16 (d.1.toNat / 256 % 256)

/-- HBM_INIT (R464): a stack that fails, or all eight are up, the HBM and transport keys are drawn and the full wipe
starts. -/
def execHbmInit (badStack : Option Nat) (s : State) : Host.Outcome State Fault Refusal :=
  .next <|
    if bootState s ≠ 3 then s
    else match badStack with
      | some k => bootFail 0x04 k (if k < 8 then s.setFld (Reg.hbmStatus k) 1 0 3 else s)
      | none =>
        let s := forEach (fun k s => s.setFld (Reg.hbmStatus k) 1 0 2) (upFrom 0 8) s
        let f := drawBytes 8 s
        let j := drawBytes 8 f.2
        let t := drawBytes 4 j.2
        let keys : Keys := { hbmFw := f.1, hbmOwn := j.1, transport := t.1 }
        let s : State := { t.2 with assay := { t.2.assay with keys := keys } }
        let s := forEach repairsLeft (upFrom 0 8) s
        enterState 4 (startWipe .full s)

/-- FULL_WIPE_DONE (R392, R465): the wipe ends in zeros, an accepted unlock takes effect (R396), and the ROM waits for
firmware. (DEDUCED, log 63.) -/
def execFullWipeDone (s : State) : Host.Outcome State Fault Refusal :=
  .next <|
    if bootState s ≠ 4 ∨ s.wiping ≠ some .full then s
    else
      let s : State := { s.clearFlag Reg.cruStatus 1 with wiping := none, mem := [], poison := [], errs := [], held := [] }
      let dbg := match s.dbg.granted with
        | some v => { s.dbg with unlocked := true, scope := v, granted := none }
        | none => s.dbg
      enterState 5 ({ s with dbg := dbg }.modBoot fun b => { b with waitSince := s.beat })

/-! ## Training the Sprue (R466) -/

/-- One phase of training completes. -/
def sprStep (from_ : Nat) (s : State) : State :=
  if s.boot.sprPhase = from_ then s.modBoot fun b => { b with sprPhase := from_ + 1 } else s

/-- SPRUE_LOCK. -/
def execSprueLock (s : State) : Host.Outcome State Fault Refusal := .next (sprStep 1 s)

/-- SPRUE_ALIGN. -/
def execSprueAlign (s : State) : Host.Outcome State Fault Refusal := .next (sprStep 2 s)

/-- Training has reached UP and the Sprue has not been lost (SPR_STATUS.WIDTH). -/
def sprTrained (s : State) : Bool := s.fld Reg.sprStatus 3 2 != 0

/-- SPRUE_MAP: both ends agree the lane map; a half with two failed lanes is unused. Without a usable half the phase does
not complete. -/
def execSprueMap (failed : List Nat) (s : State) : Host.Outcome State Fault Refusal :=
  .next <|
    if s.boot.sprPhase ≠ 3 ∨ (1 < (halfFails failed 0).length ∧ 1 < (halfFails failed 1).length) then s
    else s.modBoot fun b => { b with sprPhase := 4, sprLanes := failed }

/-- SPRUE_UP: credits are exchanged (R229) and the link is up at full or half width. (DESIGN CHOICE, log 19.) -/
def execSprueUp (credits : Nat × Nat × Nat × Nat) (s : State) : Host.Outcome State Fault Refusal :=
  .next <|
    if s.boot.sprPhase ≠ 4 ∨ sprTrained s = true then s
    else
      let bad (h : Nat) : Nat := (halfFails s.boot.sprLanes h).length
      let spared (h : Nat) : Bool := bad h = 1 && !s.boot.sprLanes.contains (32 + h)
      let full := bad 0 ≤ 1 && bad 1 ≤ 1
      let s := s.setFld Reg.sprStatus 3 2 (if full then 2 else 1)
      let s := if full then s else raiseFault 3 s
      let s := s.setFld Reg.rsrLanes 1 0 (b2n (spared 0) + 2 * b2n (spared 1))
      let t : Tab Nat := Tab.set 0 (Tab.set 0 (Tab.set 0 (Tab.set 0 [] 0 credits.1) 1 credits.2.1) 2 credits.2.2.1) 3 credits.2.2.2
      { s with spr := { s.spr with credits := t, lastAck := s.beat } }

/-- SPRUE_TRAIN_TIMEOUT: 1 s without UP; the third attempt that fails ends bring-up. -/
def execSprueTrainTimeout (lanes : Nat) (s : State) : Host.Outcome State Fault Refusal :=
  .next <|
    let b := s.boot
    if b.sprPhase = 0 ∨ sprTrained s = true ∨ bootState s = 0xF ∨ (s.beat - b.sprSince).toNat < second then s
    else if 2 ≤ b.sprTries then bootFail 0x05 lanes (s.modBoot fun b => { b with sprPhase := 0, sprTries := b.sprTries + 1 })
    else s.modBoot fun b => { b with sprPhase := 1, sprTries := b.sprTries + 1, sprSince := s.beat, sprLanes := [] }

/-! ## Firmware (R467 to R470) -/

/-- The boot descriptor's bytes. -/
def descBytes (s : State) : List Byte := toBytes 64 s.boot.desc.toNat

/-- The first byte offset of a descriptor at which R468 rejects it. (DEDUCED, log 137.) -/
def descOffence (l : List Byte) : Option Nat :=
  let img := numAt l 4 4
  let coord := numAt l 8 4
  let axes := numAt l 12 4
  let off := numAt l 16 4
  let len := numAt l 20 4
  let a := bits coord 2 0
  let b := bits coord 5 3
  let c := bits coord 9 6
  let d := bits coord 12 10
  let id := ((d * 16 + c) * 8 + b) * 8 + a
  let la := bits axes 3 0
  let lb := bits axes 7 4
  let lc := bits axes 11 8
  let ld := bits axes 15 12
  let imgEnd := 0x400000 + img
  if numAt l 0 2 ≠ 1 then some 0
  else if zeroAt l 2 2 = false then some 2
  else if img < 15937 ∨ 62914560 < img then some 4
  else if bits coord 28 16 ≠ id ∨ bits coord 15 13 ≠ 0 ∨ bits coord 31 29 ≠ 0 ∨ 2 ^ la ≤ a ∨ 2 ^ lb ≤ b ∨ 2 ^ lc ≤ c ∨ 2 ^ ld ≤ d then
    some 8
  else if 3 < la ∨ 3 < lb ∨ 4 < lc ∨ 3 < ld ∨ bits axes 31 16 ≠ 0 then some 12
  else if off ≠ 0 ∧ (0x4000000 < off + len ∨ (off < imgEnd ∧ 0x400000 < off + len)) then some 16
  else if zeroAt l 32 24 = false then some 32
  else none

/-- A rejected descriptor or image (R469): the report, GO back to 0, and FW_WAIT again until the third failure. -/
def fwRejected (code detail : Nat) (s : State) : State :=
  let s := s.modBoot fun b => { b with tries := b.tries + 1 }
  if 3 ≤ s.boot.tries then bootFail code detail s
  else
    let s := bootWrite 56 (List.replicate 8 0) (noteFailure code detail s)
    enterState 5 (s.modBoot fun b => { b with waitSince := s.beat })

/-- BOOT_GO (R468): GO has become 1. -/
def execBootGo (s : State) : Host.Outcome State Fault Refusal :=
  .next <|
    if bootState s ≠ 5 ∨ ofBytes (bootRead 56 8 s) ≠ 1 then s
    else
      let l := bootRead 0 64 s
      match descOffence l with
      | some off => fwRejected 0x08 off s
      | none => enterState 6 (s.modBoot fun b => { b with desc := BitVec.ofNat 512 (ofBytes l) })

/-- The number of the first check of R407 that an image fails. -/
def imageOffence (s : State) (img : List Byte) : Option Nat :=
  let a := storage s
  let cert := cut img 7984 certLen
  let n := numAt img 16 8
  if certCheck a 1 cert ≠ rOk then some 1
  else if verifies (certKey cert) (cut img 0 128) (cut img 128 7856) = false then some 2
  else if numAt img 4 4 ≠ (s.reg Reg.glbId).toNat ∨ numAt img 8 2 ≠ s.fld Reg.glbStep 15 0 then some 3
  else if numAt img 2 2 < a.minSvn then some 4
  else if img.length < 15936 + n ∨ sha256 (cut img 15936 n) ≠ cut img 24 32 then some 5
  else none

/-- FW_VERIFY (R407, R469): Assay's checks end. -/
def execFwVerify (s : State) : Host.Outcome State Fault Refusal :=
  .next <|
    if bootState s ≠ 6 then s
    else
      let img := bootRead 0x400000 (numAt (descBytes s) 4 4) s
      match imageOffence s img with
      | some n => fwRejected 0x07 n s
      | none => enterState 7 { s with assay := { s.assay with fwHead := cut img 0 128 } }

/-- FW_TIMEOUT (R469). -/
def execFwTimeout (s : State) : Host.Outcome State Fault Refusal :=
  .next (if bootState s = 5 ∧ 60 * second < (s.beat - s.boot.waitSince).toNat then bootFail 0x06 0 s else s)

/-- A storage key of the boot area's image region: 60 MiB spread over the slices (R45, R467). -/
def inImageRegion (key : Nat) : Bool :=
  0x018000000000 ≤ key && 0x40000 ≤ (key - 0x018000000000) % 2 ^ 29 && (key - 0x018000000000) % 2 ^ 29 < 0x400000

/-- Firmware's region of HBM takes the body and the table region, whose places and the latter's size are the firmware's own
(free values). (DESIGN CHOICE, log 136.) -/
def placeFirmware (s : State) : State :=
  let body := bootRead (0x400000 + 15936) (numAt (bootRead 0x400000 128 s) 16 8) s
  let d := s.draw
  let k := (body.length + 2 ^ 21 - 1) / 2 ^ 21
  let size := 1 + d.1.toNat % (1024 - k)
  let first := d.1.toNat / 2 ^ 16 % (1025 - k - size)
  let below := bit d.1.toNat 32
  let s := (d.2.setFld Reg.glbXlatRegion 26 0 (s.fwBase + (if below then first + k else first))).setFld Reg.glbXlatSize 15 0 size
  storeBytes ((s.fwBase + (if below then first else first + size)) * 2 ^ 21) body s

/-- FW_START ends (R470): the body moves to firmware's region, the coordinate, the shadow rings and the record's home are
set, and the image region is zero-filled. -/
def execFwStart (s : State) : Host.Outcome State Fault Refusal :=
  .next <|
    if bootState s ≠ 7 then s
    else
      let l := descBytes s
      let home := numAt l 24 8
      let s := placeFirmware s
      let s := (s.setReg Reg.glbCoord (BitVec.ofNat 32 (numAt l 8 4))).setReg Reg.glbAxes (BitVec.ofNat 32 (numAt l 12 4))
      let s := (s.setReg Reg.escShadowBaseLo 0x00200000#32).setReg Reg.escShadowBaseHi 0x100#32
      let s := (s.setFld Reg.rsrRecordLo 31 17 (bits home 31 17)).setFld Reg.rsrRecordHi 11 0 (bits home 43 32)
      let s : State := { s with mem := s.mem.filter (fun e => !inImageRegion e.1),
                                poison := s.poison.filter (fun e => !inImageRegion (16 * e.1)),
                                errs := s.errs.filter (fun e => !inImageRegion (16 * e.1)) }
      enterState 8 (s.modBoot fun b => { b with fwStarted := true })

/-! ## The Riser record and the self-tests (R447, R471 to R473) -/

/-- The entries of a record. -/
def parseRecord (l : List Byte) : List RecEntry :=
  (upFrom 0 (numAt l 2 2)).map fun i =>
    let e := l.drop (64 + 16 * i)
    { kind := numAt e 0 1, fused := numAt e 1 1 % 2 == 1, die := numAt e 2 1, index := numAt e 4 4, detail := numAt e 8 8 }

/-- A Hallmark of KIND RISER of this device for a record (R419). -/
def riserSigned (s : State) (l h : List Byte) : Bool :=
  let key := Config.identityKey ((storage s).seed.getD 0)
  numAt h 2 2 == 6 && cut h 88 32 == keyBytes key && cut h 384 32 == sha256 l
    && Config.slhVerify true key (cut h 0 512) (cut h 512 17088)

/-- The record is accepted (R419, R447). (DEDUCED, log 134.) -/
def recordOk (s : State) (l h : List Byte) : Bool :=
  let es := parseRecord l
  numAt l 0 2 == 1 && numAt l 2 2 ≤ 4096 && l.length == 64 + 16 * numAt l 2 2 && numAt l 8 16 == (serialOf s).toNat
    && s.rgl.entries.all (fun e => es.contains e)
    && ((lifecycle s != 2 && lifecycle s != 3) || riserSigned s l h)

/-- The highest base not above the given one at which firmware's 2 GiB hold no retired page (R470). (DEDUCED, log
93.) -/
def fwBaseFrom (retired : List Nat) : Nat → Nat → Nat
  | 0, b => b
  | n + 1, b => if retired.any fun p => b ≤ p && p < b + 1024 then fwBaseFrom retired n (b - 1) else b

/-- RECORD (R471): the record is checked and applied; it never fails bring-up. (DEDUCED, log 134.) -/
def execRecord (s : State) : Host.Outcome State Fault Refusal :=
  .next <|
    if bootState s ≠ 8 then s
    else
      let l := descBytes s
      let off := numAt l 16 4
      let len := numAt l 20 4
      if off = 0 then enterState 9 s
      else
        let r := bootRead off len s
        if recordOk s r (bootRead (off + len) hallmarkLen s) = false then enterState 9 (s.setFld Reg.rsrStatus 3 2 2)
        else
          let s : State := { s with rgl := { s.rgl with entries := parseRecord r },
                                    assay := { s.assay with riserDigest := sha256 r } }
          let s := (applyRisers (fun e => !e.fused) s).setFld Reg.rsrStatus 3 2 1
          let s := s.setReg Reg.rsrRecordGen (BitVec.ofNat 32 (numAt r 4 4))
          let base := fwBaseFrom s.retired 0x3FC00 s.fwBase
          let moved := s.fwBase - base
          let s := s.setFld Reg.glbXlatRegion 26 0 (s.fld Reg.glbXlatRegion 26 0 - moved)
          enterState 9 { s with fwBase := base }

/-- A slice that the test leaves with two failing banks: one more fails beside its spare, or two do. -/
def secondBank (s : State) : List (Nat × Nat) → Option Nat
  | [] => none
  | e :: t => if s.flag Reg.rsrBanks e.1 || t.any (fun x => x.1 == e.1 && x.2 != e.2) then some e.1 else secondBank s t

/-- MEM_TEST (R472): rows that are soft-repaired as (base die, row), pages retired for want of a repair, banks replaced
as (slice, bank), and a slice with two failing banks. It ends in zeros. -/
def execMemTest (rows : List (Nat × Nat)) (pages : List Nat) (banks : List (Nat × Nat)) (badSlice : Option Nat) (s : State) :
    Host.Outcome State Fault Refusal :=
  .next <|
    let banks := (banks.filter fun e => e.1 < 16 && e.2 < sliceBanks).eraseDups
    if bootState s ≠ 9 then s
    else match badSlice <|> secondBank s banks with
      | some i => bootFail 0x0A i s
      | none =>
        let new := pages.eraseDups.filter fun p => p < 2 ^ 18 && !s.retired.contains p
        let full := (upFrom 0 8).find? fun k => 512 < (retiredOf s k).length + (new.filter fun p => p / 2 ^ 15 == k).length
        match full with
        | some k => bootFail 0x09 k s
        | none =>
          let s := forEach (fun (e : Nat × Nat) s => softRepair e.1 e.2 s) (rows.filter fun e => e.1 < 8) s
          let s := forEach retirePage new s
          let s := forEach (fun (e : Nat × Nat) s =>
            newEntry 6 (storeDie e.1) e.2 0 (s.setFlag Reg.rsrBanks e.1)) banks s
          let s := s.modBoot fun b => { b with newRetired := new.length }
          enterState 0xA { s with mem := s.mem.filter (fun e => inFirmware s e.1),
                                  poison := s.poison.filter (fun e => inFirmware s (16 * e.1)),
                                  errs := s.errs.filter (fun e => inFirmware s (16 * e.1)) }

/-- A failed row or column of an array, as a self-test at bring-up finds it: compute die, core by physical index on it,
number, and whether it is a column. -/
abbrev Cell := Nat × Nat × Nat × Bool

/-- The array of a core has more failed rows or columns than spares (R129). -/
def arrayLost (s : State) (cells : List Cell) (die core : Nat) : Bool :=
  let new (col : Bool) : Nat := (cells.filter fun e => e.1 == die && e.2.1 == core && e.2.2.2 == col).length
  4 < mxeUsed s die core 3 + new false || 4 < mxeUsed s die core 4 + new true

/-- Cores of a compute die out of service by physical index: failed, or CORE_LOST in the record (R473), or without spares for
their arrays (R129). (DEDUCED, log 138.) -/
def deadCores (s : State) (failed : List (Nat × Nat)) (cells : List Cell) (die : Nat) : List Nat :=
  let lost := (s.rgl.entries.filter fun e => e.kind == 2 && e.die == die).map (·.index)
  let bad := (upFrom 0 9).filter (arrayLost s cells die)
  (((failed.filter fun p => p.1 == die).map (·.2) ++ lost ++ bad).filter (· < 9)).eraseDups

/-- Slots of a die (R8, R473): the first eight cores in service have them, a ninth is the spare. -/
def assignSlots (die n : Nat) (s : State) : State :=
  let slots := min n 8
  let s := s.setFld (Reg.rsrCore (die / 4)) (8 * (die % 4) + 7) (8 * (die % 4) + 7) (b2n (n < 9))
  let s := s.setFld (Reg.rsrCore (die / 4)) (8 * (die % 4) + 6) (8 * (die % 4) + 4) (min (8 - slots) 7)
  forEach (fun c s =>
    if c % 8 < slots then
      (s.setFlag (Reg.glbCoreMap (c / 32)) (c % 32)).setCore c {}
    else (s.clearFlag (Reg.glbCoreMap (c / 32)) (c % 32)).setCore c { mode := .outOfService }) (upFrom (8 * die) 8) s

/-- Cores in service. -/
def coresActive (s : State) : Nat := ((upFrom 0 256).filter (coreInService s)).length

/-- CORE_TEST (R473): cores that fail as (die, physical index), and failed rows or columns, which are replaced in the cores
that stay (R129). -/
def execCoreTest (failed : List (Nat × Nat)) (cells : List Cell) (s : State) : Host.Outcome State Fault Refusal :=
  .next <|
    if bootState s ≠ 0xA then s
    else
      let dead (die : Nat) : List Nat := deadCores s failed cells die
      let s := forEach (fun die s =>
        if s.boot.excluded.getLsbD die then s else assignSlots die (9 - (dead die).length) s) (upFrom 0 32) s
      let s := s.setFld Reg.glbCap0 8 0 (coresActive s)
      if coresActive s = 0 then bootFail 0x0B 0 s
      else
        let s := forEach (fun (e : Cell) s => mxeIn (if e.2.2.2 then 4 else 3) e.1 e.2.1 (e.2.2.1 % 256) s)
          (cells.filter fun e => e.1 < 32 && e.2.1 < 9 && !(dead e.1).contains e.2.1) s
        enterState 0xB s

/-- The port map and the job set that firmware writes, and the links it enables (R475). -/
def startLinks (s : State) : State :=
  let own := ownId s
  let all := (upFrom 0 4).map fun x => axisSize s x - 1
  let m (i : Nat) : Nat := all.getD i 0
  let s := s.setReg Reg.runJobSet (BitVec.ofNat 32 (m 0 <<< 3 + m 1 <<< 9 + m 2 <<< 16 + m 3 <<< 23))
  forEach (fun p s =>
    let x := p / 4
    let n := axisSize s x
    let c := coordOf own x
    let peer := withCoord own x (if p % 4 < 2 then (c + 1) % n else (c + n - 1) % n)
    let s := s.setReg (Reg.runPortmap p) (BitVec.ofNat 32 (peer + p <<< 16))
    if n = 1 then s.setFld (Reg.runLinkStatus p) 31 30 3
    else (s.setFlag (Reg.runLinkCtl p) 0).setFld (Reg.runLinkStatus p) 31 30 1) (upFrom 0 16) s

/-- CHARACTERISE (R474): dies without positive margin at 0.90 V, and the supply and rate chosen for the others. -/
def execCharacterise (noMargin : List Nat) (dies : List (Nat × Nat × Nat)) (s : State) : Host.Outcome State Fault Refusal :=
  .next <|
    if bootState s ≠ 0xB ∨ dies.all (supplyFits s dies) = false then s
    else match noMargin.find? fun d => 32 ≤ d with
      | some d => bootFail 0x0C d s
      | none =>
        let s := forEach excludeDie (noMargin.eraseDups.filter fun d => !s.boot.excluded.getLsbD d) s
        let s := s.setFld Reg.glbCap0 8 0 (coresActive s)
        let s := forEach setSupply dies s
        enterState 0xC ((startLinks s).modBoot fun b => { b with waitSince := s.beat })

/-- LINKS (R475): every enabled link is up or has failed, or 500 ms have passed; the device is READY. -/
def execLinks (s : State) : Host.Outcome State Fault Refusal :=
  .next <|
    let waiting := (upFrom 0 16).any fun l => s.fld (Reg.runLinkStatus l) 31 30 == 1
    if bootState s ≠ 0xC ∨ (waiting = true ∧ (s.beat - s.boot.waitSince).toNat < 500000000) then s
    else
      let down (l : Nat) (s : State) : State :=
        if s.fld (Reg.runLinkStatus l) 31 30 = 1 then s.setFld (Reg.runLinkStatus l) 31 30 0 else s
      enterState 0xD (forEach down (upFrom 0 16) s)

end Sys2Proof.Machine
end

