-- ==== Sys2Proof/Machine/CoreRows.lean ====
section
/-! DEFINITION. The instructions of a tile core, one meaning per row of the table: the issue of the word at the core's
 program counter, under the checks of R191 to R194. -/

namespace Sys2Proof.Machine

/-- NOP (R204). -/
def execNop (c : Nat) (w : W64) (s : State) : Host.Outcome State Fault Refusal :=
  .next (issue .nop bodyNop c w 0 s)
/-- INT_ALU (R204). -/
def execIntAlu (c : Nat) (w : W64) (s : State) : Host.Outcome State Fault Refusal :=
  .next (issue .intAlu bodyIntAlu c w 0 s)
/-- INT_ALU_IMM (R204). -/
def execIntAluImm (c : Nat) (w : W64) (s : State) : Host.Outcome State Fault Refusal :=
  .next (issue .intAluImm bodyIntAluImm c w 0 s)
/-- LI (R204). -/
def execLi (c : Nat) (w : W64) (s : State) : Host.Outcome State Fault Refusal :=
  .next (issue .li bodyLi c w 0 s)
/-- LUI (R204). -/
def execLui (c : Nat) (w : W64) (s : State) : Host.Outcome State Fault Refusal :=
  .next (issue .lui bodyLui c w 0 s)
/-- LID (R204). -/
def execLid (c : Nat) (w e : W64) (s : State) : Host.Outcome State Fault Refusal :=
  .next (issue .lid bodyLid c w e s)
/-- PCMP (R204). -/
def execPcmp (c : Nat) (w : W64) (s : State) : Host.Outcome State Fault Refusal :=
  .next (issue .pcmp bodyPcmp c w 0 s)
/-- PREDICATE_LOGIC (R204). -/
def execPredicateLogic (c : Nat) (w : W64) (s : State) : Host.Outcome State Fault Refusal :=
  .next (issue .predicateLogic bodyPredicateLogic c w 0 s)
/-- PGET (R204). -/
def execPget (c : Nat) (w : W64) (s : State) : Host.Outcome State Fault Refusal :=
  .next (issue .pget bodyPget c w 0 s)
/-- PSET (R204). -/
def execPset (c : Nat) (w : W64) (s : State) : Host.Outcome State Fault Refusal :=
  .next (issue .pset bodyPset c w 0 s)
/-- SEL (R204). -/
def execSel (c : Nat) (w : W64) (s : State) : Host.Outcome State Fault Refusal :=
  .next (issue .sel bodySel c w 0 s)
/-- SCALAR_FLOAT_OP (R204). -/
def execScalarFloatOp (c : Nat) (w : W64) (s : State) : Host.Outcome State Fault Refusal :=
  .next (issue .scalarFloatOp bodyScalarFloatOp c w 0 s)
/-- FCVT_F_X (R204). -/
def execFcvtFX (c : Nat) (w : W64) (s : State) : Host.Outcome State Fault Refusal :=
  .next (issue .fcvtFX bodyFcvtFX c w 0 s)
/-- FCVT_X_F (R204). -/
def execFcvtXF (c : Nat) (w : W64) (s : State) : Host.Outcome State Fault Refusal :=
  .next (issue .fcvtXF bodyFcvtXF c w 0 s)
/-- FMV_X_F (R204). -/
def execFmvXF (c : Nat) (w : W64) (s : State) : Host.Outcome State Fault Refusal :=
  .next (issue .fmvXF bodyFmvXF c w 0 s)
/-- FMV_F_X (R204). -/
def execFmvFX (c : Nat) (w : W64) (s : State) : Host.Outcome State Fault Refusal :=
  .next (issue .fmvFX bodyFmvFX c w 0 s)
/-- FCMP (R204). -/
def execFcmp (c : Nat) (w : W64) (s : State) : Host.Outcome State Fault Refusal :=
  .next (issue .fcmp bodyFcmp c w 0 s)
/-- FLI (R204). -/
def execFli (c : Nat) (w : W64) (s : State) : Host.Outcome State Fault Refusal :=
  .next (issue .fli bodyFli c w 0 s)
/-- BR (R196). -/
def execBr (c : Nat) (w : W64) (s : State) : Host.Outcome State Fault Refusal :=
  .next (issue .br bodyBr c w 0 s)
/-- BP (R204). -/
def execBp (c : Nat) (w : W64) (s : State) : Host.Outcome State Fault Refusal :=
  .next (issue .bp bodyBp c w 0 s)
/-- BPN (R204). -/
def execBpn (c : Nat) (w : W64) (s : State) : Host.Outcome State Fault Refusal :=
  .next (issue .bpn bodyBpn c w 0 s)
/-- JMP (R204). -/
def execJmp (c : Nat) (w : W64) (s : State) : Host.Outcome State Fault Refusal :=
  .next (issue .jmp bodyJmp c w 0 s)
/-- CALL (R204). -/
def execCallInst (c : Nat) (w : W64) (s : State) : Host.Outcome State Fault Refusal :=
  .next (issue .callInst bodyCallInst c w 0 s)
/-- JR (R204). -/
def execJr (c : Nat) (w : W64) (s : State) : Host.Outcome State Fault Refusal :=
  .next (issue .jr bodyJr c w 0 s)
/-- KERNEL_END (R181). -/
def execKernelEnd (c : Nat) (w : W64) (s : State) : Host.Outcome State Fault Refusal :=
  .next (issue .kernelEnd bodyKernelEnd c w 0 s)
/-- TEND (R181). -/
def execTend (c : Nat) (w : W64) (s : State) : Host.Outcome State Fault Refusal :=
  .next (issue .tend bodyTend c w 0 s)
/-- LD (R205). -/
def execLd (c : Nat) (w : W64) (s : State) : Host.Outcome State Fault Refusal :=
  .next (issue .ld bodyLd c w 0 s)
/-- ST (R205). -/
def execSt (c : Nat) (w : W64) (s : State) : Host.Outcome State Fault Refusal :=
  .next (issue .st bodySt c w 0 s)
/-- VLD (R205). -/
def execVld (c : Nat) (w : W64) (s : State) : Host.Outcome State Fault Refusal :=
  .next (issue .vld bodyVld c w 0 s)
/-- VST (R205). -/
def execVst (c : Nat) (w : W64) (s : State) : Host.Outcome State Fault Refusal :=
  .next (issue .vst bodyVst c w 0 s)
/-- DLD (R201). -/
def execDld (c : Nat) (w : W64) (s : State) : Host.Outcome State Fault Refusal :=
  .next (issue .dld bodyDld c w 0 s)
/-- DST (R201). -/
def execDst (c : Nat) (w : W64) (s : State) : Host.Outcome State Fault Refusal :=
  .next (issue .dst bodyDst c w 0 s)
/-- DSET (R203). -/
def execDset (c : Nat) (w : W64) (s : State) : Host.Outcome State Fault Refusal :=
  .next (issue .dset bodyDset c w 0 s)
/-- DGET (R201). -/
def execDget (c : Nat) (w : W64) (s : State) : Host.Outcome State Fault Refusal :=
  .next (issue .dget bodyDget c w 0 s)
/-- DMA (R206). -/
def execDma (c : Nat) (w : W64) (s : State) : Host.Outcome State Fault Refusal :=
  .next (issue .dma bodyDma c w 0 s)
/-- PUT (R207). -/
def execPut (c : Nat) (w : W64) (s : State) : Host.Outcome State Fault Refusal :=
  .next (issue .put bodyPut c w 0 s)
/-- DWAIT (R205). -/
def execDwait (c : Nat) (w : W64) (s : State) : Host.Outcome State Fault Refusal :=
  .next (issue .dwait bodyDwait c w 0 s)
/-- FENCE_L (R205). -/
def execFenceL (c : Nat) (w : W64) (s : State) : Host.Outcome State Fault Refusal :=
  .next (issue .fenceL bodyFenceL c w 0 s)
/-- FENCE_A (R205). -/
def execFenceA (c : Nat) (w : W64) (s : State) : Host.Outcome State Fault Refusal :=
  .next (issue .fenceA bodyFenceA c w 0 s)
/-- FENCE_R (R301). -/
def execFenceR (c : Nat) (w : W64) (s : State) : Host.Outcome State Fault Refusal :=
  .next (issue .fenceR bodyFenceR c w 0 s)
/-- MM (R208). -/
def execMm (c : Nat) (w : W64) (s : State) : Host.Outcome State Fault Refusal :=
  .next (issue .mm bodyMm c w 0 s)
/-- PLOAD (R210). -/
def execPload (c : Nat) (w : W64) (s : State) : Host.Outcome State Fault Refusal :=
  .next (issue .pload bodyPload c w 0 s)
/-- TEPI (R210). -/
def execTepi (c : Nat) (w : W64) (s : State) : Host.Outcome State Fault Refusal :=
  .next (issue .tepi bodyTepi c w 0 s)
/-- VTGET (R210). -/
def execVtget (c : Nat) (w : W64) (s : State) : Host.Outcome State Fault Refusal :=
  .next (issue .vtget bodyVtget c w 0 s)
/-- VTPUT (R210). -/
def execVtput (c : Nat) (w : W64) (s : State) : Host.Outcome State Fault Refusal :=
  .next (issue .vtput bodyVtput c w 0 s)
/-- ATTN (R211). -/
def execAttn (c : Nat) (w e : W64) (s : State) : Host.Outcome State Fault Refusal :=
  .next (issue .attn bodyAttn c w e s)
/-- VECTOR_ARITH (R213). -/
def execVectorArith (c : Nat) (w : W64) (s : State) : Host.Outcome State Fault Refusal :=
  .next (issue .vectorArith bodyVectorArith c w 0 s)
/-- VECTOR_DIV_SQRT (R213). -/
def execVectorDivSqrt (c : Nat) (w : W64) (s : State) : Host.Outcome State Fault Refusal :=
  .next (issue .vectorDivSqrt bodyVectorDivSqrt c w 0 s)
/-- VECTOR_FUNCTION (R213). -/
def execVectorFunction (c : Nat) (w : W64) (s : State) : Host.Outcome State Fault Refusal :=
  .next (issue .vectorFunction bodyVectorFunction c w 0 s)
/-- VECTOR_BITWISE (R213). -/
def execVectorBitwise (c : Nat) (w : W64) (s : State) : Host.Outcome State Fault Refusal :=
  .next (issue .vectorBitwise bodyVectorBitwise c w 0 s)
/-- VMOV (R213). -/
def execVmov (c : Nat) (w : W64) (s : State) : Host.Outcome State Fault Refusal :=
  .next (issue .vmov bodyVmov c w 0 s)
/-- VCMP (R213). -/
def execVcmp (c : Nat) (w : W64) (s : State) : Host.Outcome State Fault Refusal :=
  .next (issue .vcmp bodyVcmp c w 0 s)
/-- VSEL (R213). -/
def execVsel (c : Nat) (w : W64) (s : State) : Host.Outcome State Fault Refusal :=
  .next (issue .vsel bodyVsel c w 0 s)
/-- VBCAST (R213). -/
def execVbcast (c : Nat) (w : W64) (s : State) : Host.Outcome State Fault Refusal :=
  .next (issue .vbcast bodyVbcast c w 0 s)
/-- VLANE (R213). -/
def execVlane (c : Nat) (w : W64) (s : State) : Host.Outcome State Fault Refusal :=
  .next (issue .vlane bodyVlane c w 0 s)
/-- VRED (R213). -/
def execVred (c : Nat) (w : W64) (s : State) : Host.Outcome State Fault Refusal :=
  .next (issue .vred bodyVred c w 0 s)
/-- VRED_ISUM (R213). -/
def execVredIsum (c : Nat) (w : W64) (s : State) : Host.Outcome State Fault Refusal :=
  .next (issue .vredIsum bodyVredIsum c w 0 s)
/-- VCVT (R214). -/
def execVcvt (c : Nat) (w : W64) (s : State) : Host.Outcome State Fault Refusal :=
  .next (issue .vcvt bodyVcvt c w 0 s)
/-- VQUANT (R214). -/
def execVquant (c : Nat) (w : W64) (s : State) : Host.Outcome State Fault Refusal :=
  .next (issue .vquant bodyVquant c w 0 s)
/-- VDEQ (R214). -/
def execVdeq (c : Nat) (w : W64) (s : State) : Host.Outcome State Fault Refusal :=
  .next (issue .vdeq bodyVdeq c w 0 s)
/-- SRSEED (R214). -/
def execSrseed (c : Nat) (w : W64) (s : State) : Host.Outcome State Fault Refusal :=
  .next (issue .srseed bodySrseed c w 0 s)
/-- EREC (R215). -/
def execErec (c : Nat) (w : W64) (s : State) : Host.Outcome State Fault Refusal :=
  .next (issue .erec bodyErec c w 0 s)
/-- EWAIT (R215). -/
def execEwait (c : Nat) (w : W64) (s : State) : Host.Outcome State Fault Refusal :=
  .next (issue .ewait bodyEwait c w 0 s)
/-- MWAIT (R215). -/
def execMwait (c : Nat) (w : W64) (s : State) : Host.Outcome State Fault Refusal :=
  .next (issue .mwait bodyMwait c w 0 s)
/-- NPOST (R215). -/
def execNpost (c : Nat) (w : W64) (s : State) : Host.Outcome State Fault Refusal :=
  .next (issue .npost bodyNpost c w 0 s)
/-- NPOP (R215). -/
def execNpop (c : Nat) (w : W64) (s : State) : Host.Outcome State Fault Refusal :=
  .next (issue .npop bodyNpop c w 0 s)
/-- TSTAMP (R216). -/
def execTstamp (c : Nat) (w : W64) (s : State) : Host.Outcome State Fault Refusal :=
  .next (issue .tstamp bodyTstamp c w 0 s)
/-- TSTAMP_T (R216). -/
def execTstampT (c : Nat) (w : W64) (s : State) : Host.Outcome State Fault Refusal :=
  .next (issue .tstampT bodyTstampT c w 0 s)
/-- CNTR (R216). -/
def execCntr (c : Nat) (w : W64) (s : State) : Host.Outcome State Fault Refusal :=
  .next (issue .cntr bodyCntr c w 0 s)
/-- TAKE (R178). -/
def execTake (c : Nat) (w : W64) (s : State) : Host.Outcome State Fault Refusal :=
  .next (issue .take bodyTake c w 0 s)
/-- AMO_ADD (R216). -/
def execAmoAdd (c : Nat) (w : W64) (s : State) : Host.Outcome State Fault Refusal :=
  .next (issue .amoAdd bodyAmoAdd c w 0 s)
/-- AMO_FADD (R216). -/
def execAmoFadd (c : Nat) (w : W64) (s : State) : Host.Outcome State Fault Refusal :=
  .next (issue .amoFadd bodyAmoFadd c w 0 s)
/-- AMO_CAS (R216). -/
def execAmoCas (c : Nat) (w : W64) (s : State) : Host.Outcome State Fault Refusal :=
  .next (issue .amoCas bodyAmoCas c w 0 s)
/-- RACC (R217). -/
def execRacc (c : Nat) (w : W64) (s : State) : Host.Outcome State Fault Refusal :=
  .next (issue .racc bodyRacc c w 0 s)
/-- SQRES (R218). -/
def execSqres (c : Nat) (w : W64) (s : State) : Host.Outcome State Fault Refusal :=
  .next (issue .sqres bodySqres c w 0 s)
/-- SQPUB (R76). -/
def execSqpub (c : Nat) (w : W64) (s : State) : Host.Outcome State Fault Refusal :=
  .next (issue .sqpub bodySqpub c w 0 s)
/-- SQPOP (R218). -/
def execSqpop (c : Nat) (w : W64) (s : State) : Host.Outcome State Fault Refusal :=
  .next (issue .sqpop bodySqpop c w 0 s)
/-- SQREL (R77). -/
def execSqrel (c : Nat) (w : W64) (s : State) : Host.Outcome State Fault Refusal :=
  .next (issue .sqrel bodySqrel c w 0 s)
/-- KSET (R219). -/
def execKset (c : Nat) (w : W64) (s : State) : Host.Outcome State Fault Refusal :=
  .next (issue .kset bodyKset c w 0 s)
/-- KGET (R219). -/
def execKget (c : Nat) (w : W64) (s : State) : Host.Outcome State Fault Refusal :=
  .next (issue .kget bodyKget c w 0 s)
/-- TRAPEN (R219). -/
def execTrapen (c : Nat) (w : W64) (s : State) : Host.Outcome State Fault Refusal :=
  .next (issue .trapen bodyTrapen c w 0 s)
/-- FLAGS (R219). -/
def execFlags (c : Nat) (w : W64) (s : State) : Host.Outcome State Fault Refusal :=
  .next (issue .flags bodyFlags c w 0 s)

end Sys2Proof.Machine
end

