-- ==== Sys2Proof/Machine/CrucibleRows.lean ====
section
/-! DEFINITION. The Crucible's commands and events (R49 to R88, R491 to R493), apart from scrubbing. -/

namespace Sys2Proof.Machine

/-- PARTITION_CHANGE. -/
def execPartitionChange (rq : Requester) (v : W32) (s : State) : Host.Outcome State Fault Refusal :=
  .next (writeGate rq Reg.cruPartition v (partitionWrite v) s)

/-- FLUSH. -/
def execFlush (rq : Requester) (s : State) : Host.Outcome State Fault Refusal :=
  .next (writeGate rq Reg.cruCacheCtl 1 (cacheCtlWrite 1) s)

/-- INVAL. -/
def execInval (rq : Requester) (s : State) : Host.Outcome State Fault Refusal :=
  .next (writeGate rq Reg.cruCacheCtl 2 (cacheCtlWrite 2) s)

/-- FLUSH_DONE. -/
def execFlushDone (s : State) : Host.Outcome State Fault Refusal :=
  .next (if s.flag Reg.cruStatus 3 then finishFlush s else s)

/-- CRU_WIPE. -/
def execCruWipe (rq : Requester) (s : State) : Host.Outcome State Fault Refusal :=
  .next (writeGate rq Reg.cruWipe 1 (cruWipeWrite 1) s)

/-- WC_STATE_WRITE. -/
def execWcStateWrite (rq : Requester) (n : Nat) (reg : WcReg) (v : W32) (s : State) : Host.Outcome State Fault Refusal :=
  .next (within n 1024 (writeGate rq (wcReg n reg) v (wcStateWrite (wcReg n reg) n v)) s)

/-- WC_CTL_WRITE. -/
def execWcCtlWrite (rq : Requester) (n : Nat) (v : W32) (s : State) : Host.Outcome State Fault Refusal :=
  .next (within n 1024 (writeGate rq (Reg.wcCtl n) v (wcCtlWrite n v)) s)

/-- NQ_CTL_WRITE. -/
def execNqCtlWrite (rq : Requester) (n : Nat) (v : W32) (s : State) : Host.Outcome State Fault Refusal :=
  .next (within n 64 (writeGate rq (Reg.nqCtl n) v (nqCtlWrite n .none v)) s)

/-- NQ_FLUSH: FLUSH is written beside the register's present fields; `popping` tells who pops at that instant.
(DEDUCED, log 80.) -/
def execNqFlush (rq : Requester) (n : Nat) (popping : Popper) (s : State) : Host.Outcome State Fault Refusal :=
  let v := s.reg (Reg.nqCtl n) ||| 2
  .next (within n 64 (writeGate rq (Reg.nqCtl n) v (nqCtlWrite n popping v)) s)

/-- NQ_BASE_WRITE. -/
def execNqBaseWrite (rq : Requester) (n : Nat) (hi : Bool) (v : W32) (s : State) : Host.Outcome State Fault Refusal :=
  .next (within n 64 (writeGate rq (if hi then Reg.nqBaseHi n else Reg.nqBaseLo n) v (nqBaseWrite n hi v)) s)

/-- NOTICE_POST: an entry reaches its queue's slice; what becomes of it is the poster's answer (Table 6.15). -/
def execNoticePost (n : Nat) (source : W16) (sw : Bool) (entry : W256) (s : State) : Host.Outcome State Fault Refusal :=
  .next <|
    if 64 ≤ n then s
    else if cruHolds s then hold (.post n source.toNat sw (noticeType entry) (noticePrio entry) (entry.toNat >>> 128)) s
    else
      let r := nqPost n source.toNat sw (noticeType entry) (noticePrio entry) (entry.toNat >>> 128) s
      { r.1 with rdata := r.2.code.setWidth 256 }

/-- NQ_PORT_READ. -/
def execNqPortRead (rq : Requester) (n : Nat) (s : State) : Host.Outcome State Fault Refusal :=
  .next (within n 64 (nqPortRead rq 0 n) s)

/-- NQ_STALE_TIMEOUT. -/
def execNqStaleTimeout (n : Nat) (s : State) : Host.Outcome State Fault Refusal := .next (within n 64 (nqStale n) s)

/-- SQ_CTL_WRITE. -/
def execSqCtlWrite (rq : Requester) (n : Nat) (v : W32) (s : State) : Host.Outcome State Fault Refusal :=
  .next (within n 256 (writeGate rq (Reg.sqCtl n) v (sqCtlWrite n v)) s)

/-- CACHE_FILL: a fill arrives and its merged requests are served in order (R56); `bad` are stored words in which an
error has arisen by now (R83). A line whose hold at the companion is not settled yet, or whose stack is in a window, has no fill. -/
def execCacheFill (line : Nat) (bad : List (Nat × WordState)) (s : State) : Host.Outcome State Fault Refusal :=
  .next <|
    let s := upsetWords bad s
    match s.win.misses.find? fun m => m.line == line with
    | none => s
    | some m =>
      if cruHolds s = true ∨ lineSettled s line = false ∨ stackHeld s (line * 128) = true then s else fillArrives m s

end Sys2Proof.Machine
end

