-- ==== Sys2Proof/Machine/RglRows.lean ====
section
/-! DEFINITION. The Regulator's events, repair windows and the resets as commands (R86, R423 to R446, R449 to R452). -/

namespace Sys2Proof.Machine

/-! ## Scrubbing (R86) -/

/-- The key of a scrubbed word in `State.errs`, when its unit holds it: a slice holds its scratch and the window's lines, a
base die its stack. -/
def scrubKey (s : State) (unit addr : Nat) : Option Nat :=
  let a := addr / 16 * 16
  if unit < 16 then
    match place s a with
    | .scratch k => if (k - 0x018000000000) / 2 ^ 29 = unit then some (k / 16) else none
    | .hbm a => if (s.wline a).valid && sliceHash a == unit then some (copyKey a) else none
    | .companion a => if inWindow s a && sliceHash a == unit then some (copyKey a) else none
    | _ => none
  else if unit < 24 ∧ a / 2 ^ 36 = unit - 16 ∧ a < 2 ^ 39 ∧ pageRetired s a = false then some (a / 16)
  else none

/-- The scrub checks a word, and writes back a corrected one. -/
def scrubWord (unit addr k : Nat) (s : State) : State :=
  let fixes := s.wordState k == .corrected
  let s := if unit < 16 then checkWord addr s else checkHbmWord addr s
  if fixes then s.setWordState k .clean else s

/-- SCRUB: the interval of a unit has passed and one word is checked; `bad` are storage errors that have arisen by now.
(DESIGN CHOICE, log 10.) -/
def execScrub (unit addr : Nat) (bad : List (Nat × WordState)) (s : State) : Host.Outcome State Fault Refusal :=
  .next <|
    let interval := (s.reg (scrubReg unit)).toNat
    let s := upsetWords bad s
    match scrubKey s unit addr with
    | none => s
    | some k =>
      if interval = 0 ∨ (s.beat - Tab.get 0 s.scrubbed unit).toNat < interval then s
      else scrubWord unit addr k { s with scrubbed := Tab.set 0 s.scrubbed unit s.beat }

/-! ## Samples, decisions and power -/

/-- REGULATOR_SAMPLE (R435): what the sensors show, and the package draw. -/
def execRegulatorSample (watts : Nat) (dies : List (Nat × DieSample)) (s : State) : Host.Outcome State Fault Refusal :=
  .next <|
    let one (e : Nat × DieSample) (s : State) : State :=
      if 64 ≤ e.1 then s
      else
        let tele := Tab.modify {} s.rgl.tele e.1 fun t =>
          { t with junction := e.2.junction, current := e.2.current, corrected := e.2.corrected, margin := e.2.margin,
                   wear := e.2.wear }
        { s with rgl := { s.rgl with tele := tele } }
    forEach one dies (s.setFld Reg.rglPower 12 0 watts)

/-- REGULATOR_DECIDE (R436 to R440): supplies as (die, mV, M steps/s), whether the power cap and TJ_TARGET bind, and what
the checkers have found. The Riser record is written when a change is due (R446). -/
def execRegulatorDecide (supplies : List (Nat × Nat × Nat)) (power temp : Bool) (finds : List RglFind) (ext : Ext)
    (s : State) : Host.Outcome State Fault Refusal :=
  .next <|
    if (s.beat - s.rgl.decided).toNat < 1000000 ∨ supplies.all (supplyOk s supplies) = false then s
    else
      let s : State := { s with rgl := { s.rgl with decided := s.beat } }
      let s := forEach setSupply supplies s
      let s := if power then s.setFlag Reg.rglStatus 2 else s.clearFlag Reg.rglStatus 2
      let s := if temp then s.setFlag Reg.rglStatus 3 else s.clearFlag Reg.rglStatus 3
      let s := forEach (actOn ext) finds s
      recordIfDue ext (forEach noteRate (upFrom 0 64) s)

/-- THERMAL_TRIP (R438, R484). -/
def execThermalTrip (die junction : Nat) (ext : Ext) (s : State) : Host.Outcome State Fault Refusal :=
  .next <|
    if 64 ≤ die ∨ junction < junctionMax die ∨ s.rgl.dark.contains die = true then s
    else
      let s := (powerOff die s).setFlag Reg.rglStatus 4
      uncontained ext 5 die (rglNotice 0x79 3 (die + junction <<< 16) s)

/-- IDLE_GATE (R438): the die's cores have been IDLE for IDLE_GATE_US. -/
def execIdleGate (die : Nat) (s : State) : Host.Outcome State Fault Refusal :=
  .next <|
    match Tab.get none s.rgl.idleSince die with
    | none => s
    | some b =>
      if policyFlag s 2 = true ∧ die < 32 ∧ dieIdle s die = true ∧ s.rgl.dark.contains die = false
          ∧ 1000 * policyWord s 7 ≤ (s.beat - b).toNat then powerOff die s
      else s

/-- A dispatch waits for a core of a die. -/
def dieWanted (s : State) (die : Nat) : Bool :=
  s.disps.any fun e => e.2.live && e.2.set.any fun c => dieOf c == die && !e.2.started.contains c

/-- DIE_POWER_RESTORED (R438): power returns for a dispatch; the die's Beat copy starts reloading (R344). -/
def execDiePowerRestored (die : Nat) (s : State) : Host.Outcome State Fault Refusal :=
  .next <|
    if s.rgl.dark.contains die = false ∨ 32 ≤ die ∨ s.flag Reg.rglStatus 4 = true ∨ dieWanted s die = false then s
    else
      { s with rgl := { s.rgl with dark := s.rgl.dark.filter (· != die), idleSince := Tab.set none s.rgl.idleSince die none },
               reloading := s.reloading ++ [(die, s.beat)] }

/-! ## Memory and store Risers -/

/-- BANK_SPARE_DONE (R431): the bank's address is switched to the spare. -/
def execBankSpareDone (slice : Nat) (s : State) : Host.Outcome State Fault Refusal :=
  .next <|
    match s.rgl.copying.find? fun p => p.1 == slice with
    | none => s
    | some p =>
      let s : State := { s.setFlag Reg.rsrBanks slice with
        rgl := { s.rgl with copying := s.rgl.copying.filter fun q => q.1 != slice } }
      riserIn 6 (storeDie slice) p.2 s

/-- RETIRE_REQUEST_TIMEOUT (R429): 10 s after the request the page is retired. -/
def execRetireRequestTimeout (page : Nat) (s : State) : Host.Outcome State Fault Refusal :=
  .next <|
    match s.rgl.pagesDue.find? fun p => p.1 == page with
    | none => s
    | some p => if 10 * second ≤ (s.beat - p.2).toNat then retirePage page s else s

/-- GATE_WIRE_FAIL (R22, R432): one of the group's four spare wires takes the place of the wire with this number on its
die, or the gate leaves service. (DEDUCED, log 74; DESIGN CHOICE, log 189.) -/
def execGateWireFail (die wire : Nat) (ext : Ext) (s : State) : Host.Outcome State Fault Refusal :=
  .next <|
    let group := wire / groupWires
    if 64 ≤ die then s
    else if 4 ≤ wiresUsed s die group then
      uncontained ext 0 die (errLog 0x43 0x900 (die + (group % 256) <<< 8 + 1 <<< 16) s)
    else if policyFlag s 0 then wireIn die wire s
    else advise 12 die wire s

/-! ## Repair windows -/

/-- WINDOW_GRANT (R442): a write of RGL_WINDOW with a duration. -/
def execWindowGrant (rq : Requester) (v : W32) (s : State) : Host.Outcome State Fault Refusal :=
  .next (if v.toNat % 2 ^ 16 = 0 then s else writeGate rq Reg.rglWindow v (windowWrite v) s)

/-- WINDOW_END_REQUEST (R444): a write of RGL_WINDOW with the active id and 0. -/
def execWindowEndRequest (rq : Requester) (id : Nat) (s : State) : Host.Outcome State Fault Refusal :=
  let v : W32 := BitVec.ofNat 32 (id % 2 ^ 16 * 2 ^ 16)
  .next (writeGate rq Reg.rglWindow v (windowWrite v) s)

/-- WINDOW_BEGIN (R443): the oldest grant's unit is quiet and no window is active. (DESIGN CHOICE, log 141.) -/
def execWindowBegin (s : State) : Host.Outcome State Fault Refusal :=
  .next <|
    match s.rgl.grants with
    | [] => s
    | g :: t =>
      if (activeWindow s).isSome = true ∨ unitQuiet s g.req = false then s
      else
        let b : RepairWindow := { g with ends := some (s.beat + BitVec.ofNat 64 (1000000 * g.ms)) }
        let s : State := { s with rgl := { s.rgl with grants := b :: t } }
        (s.setFlag Reg.rglStatus 6).setFld Reg.rglWindowStatus 31 16 g.req.id

/-- REPAIR_DONE (R444): the repair of the active window ends, as done or failed. -/
def execRepairDone (ok : Bool) (rows cols : List Nat) (ext : Ext) (s : State) : Host.Outcome State Fault Refusal :=
  .next <|
    match activeWindow s with
    | none => s
    | some g => if ok then endWindow g 1 (repairDone ext g.req rows cols s) else endWindow g 4 s

/-- WINDOW_EXPIRE (R444). -/
def execWindowExpire (s : State) : Host.Outcome State Fault Refusal :=
  .next <|
    match activeWindow s with
    | none => s
    | some g =>
      match g.ends with
      | some b => if b.toNat ≤ s.beat.toNat then endWindow g 2 s else s
      | none => s

/-- RECORD_RETRY (R446). -/
def execRecordRetry (ext : Ext) (s : State) : Host.Outcome State Fault Refusal := .next (recordIfDue ext s)

/-! ## Resets and the flood -/

/-- COMPUTE_RESET (R449): a write of RSR_RESET with COMPUTE. -/
def execComputeReset (rq : Requester) (ext : Ext) (s : State) : Host.Outcome State Fault Refusal :=
  .next (writeGate rq Reg.rsrReset 1 (computeReset ext) s)

/-- COMPUTE_RESET_DONE. (DEDUCED, log 117.) -/
def execComputeResetDone (s : State) : Host.Outcome State Fault Refusal :=
  .next (if s.flag Reg.rsrStatus 8 then errLog 0x48 0x900 1 (s.clearFlag Reg.rsrStatus 8) else s)

/-- DEVICE_RESET (R450): a write of RSR_RESET with DEVICE. -/
def execDeviceReset (rq : Requester) (ext : Ext) (s : State) : Host.Outcome State Fault Refusal :=
  .next (writeGate rq Reg.rsrReset 2 (deviceReset ext) s)

/-- FLOOD_START (R452): a write of 1 to RSR_FLOOD.START. -/
def execFloodStart (rq : Requester) (ext : Ext) (s : State) : Host.Outcome State Fault Refusal :=
  .next (writeGate rq Reg.rsrFlood 1 (beginFlood ext 0) s)

end Sys2Proof.Machine
end

