-- ==== Sys2Proof/Machine/RegSpace.lean ====
section
/-! DEFINITION. The whole register space as a requester sees it: the value that each register shows, and what a write
of each register does (R9 to R13, R247 to R256, R363 to R366, R451). -/

namespace Sys2Proof.Machine

/-! ## Recording and replay (RR_CTL) -/

/-- The start of the log region. -/
def rrBase (s : State) : Nat := s.fld Reg.rrBaseHi 15 0 * 2 ^ 32 + s.fld Reg.rrBaseLo 31 21 * 2 ^ 21

/-- A field of the log record at a position, in 32-byte units. -/
def recField (s : State) (pos off n : Nat) : Nat := ofBytes ((upFrom (rrBase s + 32 * pos + off) n).map s.byte)

/-- The Beat of a log record, with its epoch (Table 11.8). -/
def recBeat (s : State) (pos : Nat) : W64 := BitVec.ofNat 64 (recField s pos 8 8)

/-- The record at RR_START lets a replay begin: a MARK, with every ring DISABLED and no chain (R366). A log that has gone
round the region may end before it starts (R365). (DEDUCED, log 150.) -/
def replayOk (s : State) : Bool :=
  let start := (s.reg Reg.rrStart).toNat
  let size := s.fld Reg.rrSize 15 0 * 65536
  ringsOff s && s.chain.isNone && recField s start 0 1 == 7 && start < size && (s.reg Reg.rrEnd).toNat ≤ size

/-- Where the record after that at `pos` stands: behind it, or at the start of the region where the writer went round,
which its RSEQ tells (R365, R366). -/
def recAfter (s : State) (pos : Nat) : Nat :=
  let n := pos + max 1 (recField s pos 2 2)
  let size := s.fld Reg.rrSize 15 0 * 65536
  let round := (s.reg Reg.rrEnd).toNat ≤ (s.reg Reg.rrStart).toNat
  if round = true ∧ n ≠ (s.reg Reg.rrEnd).toNat
      ∧ (size ≤ n ∨ recField s n 4 4 ≠ (recField s pos 4 4 + 1) % 2 ^ 32) then 0
  else n

/-- Replay ends; rings stay out of service until a compute reset. -/
def endReplay (s : State) : State :=
  if s.fld Reg.rrCtl 1 0 = 2 then
    { s.clearFlag Reg.beatStatus 2 with replay := { s.replay with stale := true } }
  else s

/-- Replay begins at the MARK: the Beat takes its value (R366). -/
def enterReplay (s : State) : State :=
  let start := (s.reg Reg.rrStart).toNat
  let s := s.setFlag Reg.beatStatus 2
  { s with beat := recBeat s start, drift := [], replay := { next := recAfter s start } }

/-- A change of MODE: 0 OFF, 1 RECORD, 2 REPLAY. (DEDUCED, log 149.) -/
def rrMode (mode : Nat) (s : State) : State :=
  let s := endReplay (stopRecording s)
  let s := (s.setFld Reg.rrCtl 1 0 mode).setFld Reg.rrStatus 3 0 mode
  match mode with
  | 1 => logMark 0 0 (s.setReg Reg.rrPos 0)
  | 2 => enterReplay s
  | _ => s

/-- A write of RR_CTL (R363 to R366): beside a change of MODE and MARK nothing is accepted while MODE is not OFF (Table
11.11). (DEDUCED, log 149.) -/
def rrCtlWrite (v : W32) (s : State) : State :=
  let mode := v.toNat % 4
  let was := s.fld Reg.rrCtl 1 0
  if mode = 3 then rangeDrop s
  else if mode = was ∧ was ≠ 0 ∧ v.getLsbD 4 ≠ s.flag Reg.rrCtl 4 then
    (if v.getLsbD 5 then logMark 2 0 s else s).setFlag Reg.rrStatus 4
  else if mode = 2 ∧ was ≠ 2 ∧ replayOk s = false then s.setFlag Reg.rrStatus 4
  else
    let s := storeReg Reg.rrCtl (BitVec.ofNat 32 (putBits v.toNat 1 0 was)) s
    let s := if mode = was then s else rrMode mode s
    if v.getLsbD 5 then logMark 2 0 s else s

/-! ## Values that a register shows -/

/-- What a count shows under seal (R387). -/
def shownCount (s : State) (v : W32) : W32 := if s.sealed then BitVec.ofNat 32 (coarseN v.toNat) else v

/-- CORE_STATUS.STATE (Table 5.9); `reset` while a life-cycle transition holds the cores in reset (R401). -/
def coreStateCode (reset : Bool) (k : Core) : Nat :=
  match k.mode with
  | .idle => if reset then 4 else 0
  | .running => match k.hold with
    | some h => if h.markT then 2 else 1
    | none => 1
  | .trapped => 3
  | .resetting => 4
  | .outOfService => 5

/-- A register of a core's block. -/
def coreView (s : State) (c sub : Nat) : W32 :=
  let k := s.core c
  match sub with
  | 0x00 =>
    BitVec.ofNat 32 (coreStateCode s.assay.lcHold k + 256 * b2n k.det + 512 * b2n k.nanIn + 1024 * b2n k.nv + 2048 * b2n k.ov
      + 4096 * b2n k.sat)
  | 0x04 => BitVec.ofNat 32 (k.trapCause % 256 + 2 ^ 31 * b2n k.trapValid)
  | 0x08 => k.trapPc
  | 0x0C => k.tileLo
  | 0x10 => k.tileHi
  | 0x14 => shownCount s k.nonfinite
  | _ => shownCount s k.flushed

/-- Aperture lines of a stack that the companion holds in a state. -/
def dirLines (s : State) (k : Nat) (c : Coherence) : Nat :=
  (s.spr.dir.filter fun e => e.2 == c && e.1 * 64 / 2 ^ 36 == k).length

/-- All banks of a stack are refreshed at once: during its self-test and a wipe (Table 2.6). -/
def allBankRefresh (s : State) : Bool :=
  match s.wiping with
  | some .cru => false
  | some _ => true
  | none => bootState s == 9

/-- A register of a stack's block. The temperature shown is the one last measured at its base die; above 85 °C the
refresh interval is shortened (Table 16.4). (DEDUCED, log 154.) -/
def hbmView (s : State) (k sub : Nat) (stored : W32) : W32 :=
  let busy := match activeWindow s with
    | some g => g.req.die == 48 + k
    | none => false
  let temp := (Tab.get {} s.rgl.tele (48 + k)).junction / 16
  if sub = 0 then
    BitVec.ofNat 32 (putBits (stored.toNat ||| b2n busy <<< 8 ||| b2n (decide (85 < temp)) <<< 4 ||| b2n (allBankRefresh s) <<< 2)
      31 24 temp)
  else if sub = 0x10 then BitVec.ofNat 32 (dirLines s k .s)
  else if sub = 0x14 then BitVec.ofNat 32 (dirLines s k .e)
  else if sub = 0x18 then BitVec.ofNat 32 (dirLines s k .m)
  else if 0x1000 ≤ sub then
    match (retiredOf s k)[(sub - 0x1000) / 4]? with
    | some p => BitVec.ofNat 32 (2 ^ 31 + p)
    | none => 0
  else stored

/-- NQ_FILL. -/
def nqFill (s : State) (q : Nat) : W32 :=
  BitVec.ofNat 32 ((s.nq q).entries.length + b2n (s.nq q).gap.isSome <<< 24)

/-- SQ_STATUS. -/
def sqStatus (s : State) (q : Nat) : W32 :=
  let k := s.sq q
  let sum (l : List SqEntry) : Nat := (l.map (·.count)).sum
  BitVec.ofNat 32 (sqCredits s q % 128 + (sum k.visible % 128) <<< 8 + (sum k.reserved % 128) <<< 16)

/-- RUN_RED_STATUS. -/
def redStatus (s : State) : W32 :=
  let n (x : RecState) : Nat := recCount s fun r => r.state == x
  BitVec.ofNat 32 (n .closing % 1024 + (n .pending % 1024) <<< 10 + (n .opened % 4096) <<< 20)

/-- RSR_PAGES[k]. -/
def pagesView (s : State) (k : Nat) : W32 :=
  let due := (s.rgl.pagesDue.filter fun p => p.1 / 2 ^ 15 == k).length
  BitVec.ofNat 32 ((retiredOf s k).length % 1024 + (due % 1024) <<< 16)

/-- RGL_REQ_LO and RGL_REQ_HI: the oldest pending request. -/
def reqView (s : State) (hi : Bool) : W32 :=
  match s.rgl.reqs with
  | [] => 0
  | q :: _ =>
    BitVec.ofNat 32
      (if hi then q.index % 2 ^ 16 + (q.est % 2 ^ 16) <<< 16
       else q.kind % 16 + (q.die % 256) <<< 8 + (q.id % 2 ^ 16) <<< 16)

/-- A posted write to the block of an offset is in progress. -/
def postedIn (s : State) (off : Nat) : Bool := s.posted.any fun p => blockOf p.1 == blockOf off

/-- A register of ring `r`, or the doorbell that is another name of it. -/
def ringView (s : State) (r sub : Nat) (stored : W32) : W32 :=
  match sub with
  | 0x10 => ringHead s r
  | 0x14 => (s.ring r).pos.seq
  | 0x18 => ringStatus s r
  | _ => stored

/-- The value a register shows now, without the effects of reading it. -/
def regView (s : State) (off : Nat) : W32 :=
  let v := s.reg off
  let set (b : Nat) (x : Bool) : W32 := if x then v ||| (1#32 <<< b) else v
  if 0x1000000 ≤ off ∧ off < 0x2000000 then coreView s ((off - 0x1000000) / 0x10000) (off % 0x10000)
  else if 0x0210000 ≤ off ∧ off < 0x0214000 then ringView s ((off - 0x210000) / 0x100) (off % 0x100) v
  else if 0x0280000 ≤ off ∧ off < 0x02C0000 then
    let r := (off - 0x280000) / 0x1000
    match off % 0x1000 with
    | 0x4 => s.reg (Reg.ringCqHead r)
    | 0x8 => s.reg (Reg.ringCqTail r)
    | 0xC => ringStatus s r
    | _ => 0
  else if 0x0300000 ≤ off ∧ off < 0x0301000 then if off % 0x40 = 0x14 then nqFill s ((off - 0x300000) / 0x40) else v
  else if 0x0420000 ≤ off ∧ off < 0x0422000 then if off % 0x20 = 0x10 then sqStatus s ((off - 0x420000) / 0x20) else v
  else if 0x0600000 ≤ off ∧ off < 0x0800000 then hbmView s ((off - 0x600000) / 0x40000) (off % 0x40000) v
  else if 0x0C00100 ≤ off ∧ off < 0x0C00200 then rglDie s ((off - 0xC00100) / 4)
  else if 0x0D00060 ≤ off ∧ off < 0x0D00080 then pagesView s ((off - 0xD00060) / 4)
  else if 0x0E20000 ≤ off ∧ off < 0x0E30000 then BitVec.ofNat 32 (ofBytes ((s.assay.out.drop (off - 0xE20000)).take 4))
  else if off = Reg.beatStatus then set 3 (!s.reloading.isEmpty)
  else if off = Reg.escStatus then escStatus s
  else if off = Reg.cruStatus then set 0 (bits v.toNat 3 1 != 0 || postedIn s off)
  else if off = Reg.runStatus ∨ off = Reg.sprStatus then set 0 (postedIn s off)
  else if off = Reg.rglStatus then set 8 (postedIn s off)
  else if off = Reg.rglReqLo then reqView s false
  else if off = Reg.rglReqHi then reqView s true
  else if off = Reg.runRedStatus then redStatus s
  else if off = Reg.runDropCount then shownCount s v
  else if off = Reg.trnStatus ∧ s.sealed = true then BitVec.ofNat 32 (putBits v.toNat 11 8 0)
  else v

/-! ## Parity (R13, R253, R451) -/

/-- A mismatch is found at a register; the first one begins a flood. -/
def parityFault (ext : Ext) (off : Nat) (s : State) : State :=
  let first := s.flag Reg.glbFault 0 = false ∧ s.parityDirty = false
  let s := raiseFault 0 (s.setReg Reg.glbParityAddr (BitVec.ofNat 32 off))
  let s := errLog 0x45 0x900 off { s with parityDirty := true }
  if first then beginFlood ext 5 s else s

/-- No DISPATCH is admitted until GLB_FAULT has been read and a sweep has found no mismatch (R451). -/
def parityHolds (s : State) : Bool := s.flag Reg.glbFault 0 || s.parityDirty

/-! ## Reading and writing -/

/-- A name of a register that stands for another: DB_CQ_HEAD for RING_CQ_HEAD (R257). -/
def aliasOf (off : Nat) : Nat :=
  if 0x0280000 ≤ off ∧ off < 0x02C0000 ∧ off % 0x1000 = 4 then Reg.ringCqHead ((off - 0x280000) / 0x1000) else off

/-- A read of a register: RC bits are returned and cleared in one step (R249), the mailbox follows R255, and a read of
GLB_ACCESS_STATUS arms the recording of denials (R254). -/
def regRead (ext : Ext) (off : Nat) (s : State) : W32 × State :=
  let s := if s.parityBad.contains (aliasOf off) then parityFault ext (aliasOf off) s else s
  if 0x108010 ≤ off ∧ off < 0x108020 then mbxRead ((off - 0x108010) / 4) s
  else
    let v := regView s off
    match regAt off with
    | none => (0, s)
    | some d =>
      let s := if d.rc = 0 then s else s.setReg off (s.reg off &&& ~~~(BitVec.ofNat 32 d.rc))
      (v, if off = Reg.glbAccessStatus then { s with denyArmed := true } else s)

/-- Registers whose stated range has a lower or an upper bound (R251): the field's bounds and its limits. -/
def regRange (off : Nat) : Option (Nat × Nat × Nat × Nat) :=
  if off = Reg.sprReqTimeout ∨ off = Reg.sprSnpTimeout then some (31, 0, 10, 1000000)
  else if off = Reg.beatSyncInterval then some (15, 0, 100, 10000)
  else if off = Reg.rsrCtl then some (31, 16, 100, 10000)
  else if off = Reg.asyInLen then some (16, 0, 0, 65536)
  else if 0x2000100 ≤ off ∧ off < 0x2000300 ∧ off % 0x40 = 0x14 then some (4, 0, 6, 24)
  else none

/-- A write of RSR_RESET: DEVICE takes COMPUTE with it. (DEDUCED, log 79.) -/
def resetWrite (ext : Ext) (v : W32) (s : State) : State :=
  let s := freshParity Reg.rsrReset s
  if v.getLsbD 1 then deviceReset ext s else if v.getLsbD 0 then computeReset ext s else s

/-- A register that no unit gives a meaning of its own. -/
def plainWrite (off : Nat) (v : W32) (s : State) : State :=
  match regRange off with
  | some (hi, lo, least, most) =>
    if bits v.toNat hi lo < least ∨ most < bits v.toNat hi lo then rangeDrop s else storeReg off v s
  | none => storeReg off v s

/-- The registers of the record log that are written only while MODE is OFF (Table 11.11). -/
def rrFixed : List Nat :=
  [Reg.rrBaseLo, Reg.rrBaseHi, Reg.rrSize, Reg.rrVcMask, Reg.rrStart, Reg.rrEnd, Reg.rrSideLo, Reg.rrSideHi]

/-- A register that stands once in the space. -/
def oneWrite (ext : Ext) (good off : Nat) (v : W32) (s : State) : State :=
  if off = Reg.glbXlatCmd then s
  else if off = Reg.mbxSel then mbxSelect v s
  else if off = Reg.beatSsSendHi then strikeSetSend v s
  else if off = Reg.escEvtHi then evtHiWrite v s
  else if off = Reg.escChainLo ∨ off = Reg.rglCap then postWrite off v s
  else if off = Reg.escChainHi then chainStart v s
  else if off = Reg.cruPartition then partitionWrite v s
  else if off = Reg.cruWipe then cruWipeWrite v s
  else if off = Reg.cruCacheCtl then cacheCtlWrite v s
  else if off = Reg.runJobSet then jobSetWrite v s
  else if off = Reg.trnCtl then trnCtlWrite ext v s
  else if 0x0900800 ≤ off ∧ off < 0x0900840 then trnWrite off v s
  else if off = Reg.sprApCtl then apCtlWrite v s
  else if off = Reg.sprApBase then apBaseWrite v s
  else if off = Reg.sprIntEoi then intEoi v s
  else if off = Reg.rglWindow then windowWrite v s
  else if off = Reg.rsrReset then resetWrite ext v s
  else if rrFixed.contains off = true ∧ s.fld Reg.rrCtl 1 0 ≠ 0 then s.setFlag Reg.rrStatus 4
  else if off = Reg.rsrFlood then (if v.getLsbD 0 then beginFlood ext 0 s else s)
  else if off = Reg.asyCmd then asyCommand ext good v s
  else if off = Reg.cntLatchHi then latchArm v s
  else if off = Reg.rrCtl then rrCtlWrite v s
  else plainWrite off v s

/-- ASY_IN is not written while an operation reads it (R416). (DEDUCED, log 147.) -/
def asyInBusy (s : State) (off : Nat) : Bool := s.flag Reg.asyStatus 0 && 0xE10000 ≤ off && off < 0xE20000

/-- A write that reaches its register. `good` is how many programming steps of Assay storage a life-cycle operation
would see succeed (ASY_CMD). (DEDUCED, log 156.) -/
def regPut (rq : Requester) (ext : Ext) (good off : Nat) (v : W32) (s : State) : State :=
  if off = Reg.glbXlatCmd then xlatStart (isHostSide s rq) v s
  else if asyInBusy s off then s.setFlag Reg.glbAccessStatus 4
  else if 0x0210000 ≤ off ∧ off < 0x0214000 then ringRegWrite ext ((off - 0x210000) / 0x100) off v s
  else if 0x0280000 ≤ off ∧ off < 0x02C0000 then
    let r := (off - 0x280000) / 0x1000
    match off % 0x1000 with
    | 0x0 => ringTailWrite r v s
    | 0x4 => cqHeadWrite ext r v s
    | _ => s
  else if 0x0300000 ≤ off ∧ off < 0x0301000 then
    let q := (off - 0x300000) / 0x40
    match off % 0x40 with
    | 0x0 => nqCtlWrite q .none v s
    | 0x4 => nqBaseWrite q false v s
    | 0x8 => nqBaseWrite q true v s
    | _ => storeReg off v s
  else if 0x0410000 ≤ off ∧ off < 0x0414000 then
    let n := (off - 0x410000) / 0x10
    if off % 0x10 = 0xC then wcCtlWrite n v s else wcStateWrite off n v s
  else if 0x0420000 ≤ off ∧ off < 0x0422000 ∧ off % 0x20 = 0 then sqCtlWrite ((off - 0x420000) / 0x20) v s
  else if 0x0800000 ≤ off ∧ off < 0x0900000 ∧ off % 0x10000 = 4 then postWrite off v s
  else if 0x0900100 ≤ off ∧ off < 0x0900200 then substWrite off v s
  else if 0x0A00020 ≤ off ∧ off < 0x0A00040 then intMaskWrite ((off - 0xA00020) / 4) v s
  else oneWrite ext good off v s

/-- A write of any register by a requester. -/
def regWrite (rq : Requester) (ext : Ext) (good off : Nat) (v : W32) (s : State) : State :=
  writeGate rq off v (regPut rq ext good off v) s

/-- Posted writes with an event of their own do not end by RWP_WRITE_DONE; that of an aperture's disable is the last
snoop answer (R234). -/
def ownDone (s : State) (off : Nat) : Bool :=
  off == Reg.glbXlatCmd || off == Reg.escChainHi || off == Reg.cruPartition || (off == Reg.sprApCtl && s.flag Reg.sprApCtl 0)

/-- What a posted write does when it takes effect. -/
def postedApply (ext : Ext) (off : Nat) (v : W32) (s : State) : State :=
  if off = Reg.sprApCtl then apCtlApply v s
  else if 0x0800000 ≤ off ∧ off < 0x0900000 ∧ off % 0x10000 = 4 then linkCtlApply ext ((off - 0x800000) / 0x10000) v s
  else storeReg off v s

/-- A posted write takes effect (R252). -/
def postedDone (ext : Ext) (off : Nat) (s : State) : State :=
  if ownDone s off then s
  else
    match s.posted.find? fun p => p.1 == off with
    | none => s
    | some p => postedApply ext off p.2 { s with posted := eraseFirst (fun q => q.1 == off) s.posted }

end Sys2Proof.Machine
end

