-- ==== Sys2Proof/Machine/DebugRows.lean ====
section
/-! DEFINITION. The debug port's instructions (R394, R395, R397, Tables 12.11 and 12.12). -/

namespace Sys2Proof.Machine

/-! ## The standard instructions -/

/-- What an instruction of the port answers. -/
def portAnswer (v : W256) (s : State) : State := { s with rdata := v }

/-- IDCODE (R394): the port's identification register, whose value the spec does not give. (PRESUMED, log 177.) -/
def execIdcode (s : State) : Host.Outcome State Fault Refusal := .next (portAnswer (Config.idcode.setWidth 256) s)

/-- BYPASS (R394): the bypass bit captures 0. (PRESUMED, log 177.) -/
def execBypass (s : State) : Host.Outcome State Fault Refusal := .next (portAnswer 0 s)

/-- Boundary scan is admitted: in Provisioned and Owned only in device reset (R394). -/
def boundaryOpen (s : State) : Bool := !(lifecycle s == 2 || lifecycle s == 3) || !s.boot.resetN

/-- An instruction of the boundary register, whose cells the spec does not lay out: it answers a free value.
(PRESUMED, log 177.) -/
def boundary1149 (s : State) : State :=
  if boundaryOpen s then
    let d := s.draw
    portAnswer (d.1.setWidth 256) d.2
  else s

/-- SAMPLE (R394). -/
def execSample (s : State) : Host.Outcome State Fault Refusal := .next (boundary1149 s)
/-- EXTEST (R394). -/
def execExtest (s : State) : Host.Outcome State Fault Refusal := .next (boundary1149 s)

/-! ## DBG_ACCESS -/

/-- The bits of a core's entry, read whole. -/
def coreEntry (k : Core) (file : CoreFile) (i part : Nat) : Nat :=
  match file with
  | .x => (k.xr i).toNat
  | .f => (k.fr i).toNat
  | .v => (k.vr i).toNat >>> (256 * part)
  | .p => (k.pr i).toNat
  | .d => (k.dr i).toNat >>> (256 * part)
  | .k => (k.kr i).m.toNat + (k.kr i).n.toNat <<< 32 + (k.kr i).k.toNat <<< 64
  | .acc => ((upFrom 0 8).map fun j => (Tab.get 0 (k.tile i).vals (8 * part + j)).toNat <<< (32 * j)).sum
  | .ob => ofBytes ((upFrom i 32).map k.obByte)
  | .pc => k.pc.toNat

/-- Writes a core's entry. -/
def putEntry (file : CoreFile) (i part : Nat) (v : W256) (k : Core) : Core :=
  let n := v.toNat
  match file with
  | .x => k.setX (i % 32) (BitVec.ofNat 64 n)
  | .f => k.setF (i % 32) (BitVec.ofNat 32 n)
  | .v => k.setV (i % 32) (BitVec.ofNat 2048 (putBits (k.vr (i % 32)).toNat (256 * (part % 8) + 255) (256 * (part % 8)) n))
  | .p => k.setP (i % 8) (BitVec.ofNat 64 n)
  | .d => k.setD (i % 16) (BitVec.ofNat 512 (putBits (k.dr (i % 16)).toNat (256 * (part % 2) + 255) (256 * (part % 2)) n))
  | .k => k.setK (i % 8) { m := BitVec.ofNat 32 n, n := BitVec.ofNat 32 (n >>> 32), k := BitVec.ofNat 32 (n >>> 64) }
  | .acc =>
    let t := k.tile (i % 4)
    let put (l : Tab W32) (j : Nat) : Tab W32 := Tab.set 0 l (8 * (part % 2048) + j) (BitVec.ofNat 32 (n >>> (32 * j)))
    k.setTile (i % 4) { t with vals := (upFrom 0 8).foldl put t.vals }
  | .ob => (upFrom 0 32).foldl (fun k j => k.setObByte ((i + j) % 0x100000) (BitVec.ofNat 8 (n >>> (8 * j)))) k
  | .pc => { k with pc := BitVec.ofNat 64 n }

/-- The scope bit that an access needs. -/
def dbgScope : DbgOp → Nat
  | .halt _ | .resume _ | .step _ | .coreRead _ _ _ _ | .coreWrite _ _ _ _ _ => 0
  | .regRead _ | .regWrite _ _ _ | .memRead _ _ | .memWrite _ _ => 1
  | .scan => 2
  | .linkTest _ _ => 3
  | .loadFirmware _ => 1

/-- A core that the port may reach: one in service and in no reset. -/
def coreReach (s : State) (c : Nat) : Bool := coreInService s c && (s.core c).mode != .resetting

/-- Which cores are halted and stepping. -/
def setHalts (halted stepping : List Nat) (s : State) : State :=
  { s with dbg := { s.dbg with halted := halted, stepping := stepping } }

/-- Firmware is loaded through the port where no root key admits an image (R407): the boot descriptor is taken as GO
takes it, and the loaded image starts with no Hallmark's digest of its own. (DESIGN CHOICE, log 178.) -/
def portLoad (desc : W512) (s : State) : State :=
  if bootState s = 5 ∧ lifecycle s ≤ 1 then
    let s : State := { s with boot := { s.boot with desc := desc }, assay := { s.assay with fwHead := [] } }
    enterState 7 (bootWrite 0 (toBytes 64 desc.toNat) s)
  else s

/-- What an access within its scope does. (DESIGN CHOICE, log 178.) -/
def debugDo (ext : Ext) (op : DbgOp) (s : State) : State :=
  let h := s.dbg.halted
  let t := s.dbg.stepping
  match op with
  | .halt c => if coreReach s c = true ∧ h.contains c = false then setHalts (h ++ [c]) t s else s
  | .resume c => setHalts (h.filter (· != c)) (t.filter (· != c)) s
  | .step c => if h.contains c = true ∧ t.contains c = false then setHalts h (t ++ [c]) s else s
  | .coreRead c file i part =>
    if coreReach s c then portAnswer (BitVec.ofNat 256 (coreEntry (s.core c) file i part)) s else s
  | .coreWrite c file i part v => if coreReach s c then s.modCore c (putEntry file i part v) else s
  | .regRead off =>
    let x := readAccess .debug off (regRead ext off) s
    portAnswer (x.1.setWidth 256) x.2
  | .regWrite off v good => regWrite .debug ext good off v s
  | .memRead a n =>
    if cruHolds s then s
    else match readPhys ext {} a (min n 32) s with
      | (.ok l, s) => portAnswer (BitVec.ofNat 256 (ofBytes l)) s
      | (.error _, s) => portAnswer 0 s
  | .memWrite a data => if cruHolds s then s else (writePhys ext {} (fun _ => true) a data s).2
  | .scan =>
    let d := s.draw
    portAnswer (d.1.setWidth 256) d.2
  | .linkTest l on =>
    let v := s.reg (Reg.runLinkCtl l)
    if l < 16 then linkCtlApply ext l (if on then v ||| 4 else v &&& ~~~4#32) s else s
  | .loadFirmware desc => portLoad desc s

/-- DBG_ACCESS (R397): an access within the unlocked scope; any other does nothing. -/
def execDbgAccess (op : DbgOp) (ext : Ext) (s : State) : Host.Outcome State Fault Refusal :=
  .next (if debugScope s (dbgScope op) then debugDo ext op s else s)

end Sys2Proof.Machine
end

