-- ==== Sys2Proof/Machine/EscAdmit.lean ====
section
/-! DEFINITION. The admission of ring commands: what is checked of each, when one may be admitted, what the seal refuses,
and conditions, loops and calls (R242, R262 to R264, R267, R271 to R274, R277, R378, Tables 8.2 to 8.7 and 12.5). -/

namespace Sys2Proof.Machine

namespace Cb
def mode (b : W512) : Nat := at_ b 40 4
def bytes (b : W512) : Nat := at_ b 32 8
def core1 (b : W512) : Nat := at_ b 36 1
def size (b : W512) : Nat := at_ b 32 1
/-- BARRIER: ID, SCOPE, COUNT and AXES. -/
def barId (b : W512) : Nat := at_ b 16 4
def scope (b : W512) : Nat := at_ b 20 1
def count (b : W512) : Nat := at_ b 21 1
def axes (b : W512) : Nat := at_ b 22 1 % 16
/-- IF and LOOP: SOURCE, CMP, EVENT, ADDR, VALUE and MASK; LOOP: MODE and COUNT. -/
def source (b : W512) : Nat := at_ b 16 1
def cmp (b : W512) : Nat := at_ b 17 1
def condEvent (b : W512) : Nat := at_ b 18 2 % 4096
def condAddr (b : W512) : Nat := at_ b 32 8
def condValue (b : W512) : Nat := at_ b 40 8
def mask (b : W512) : Nat := at_ b 48 8
def loopMode (b : W512) : Nat := at_ b 20 1
def loopCount (b : W512) : Nat := at_ b 24 4
/-- CALL: ENTRIES. -/
def entries (b : W512) : Nat := at_ b 24 4
end Cb

/-! ## The checks of R264 -/

/-- The register-space offset that a 64-bit address names on this device. -/
def regOffset (s : State) (a : Nat) : Option Nat :=
  match fabric s (BitVec.ofNat 64 a) with
  | .loc va => if 0x020000000000 ≤ va ∧ va < 0x020010000000 then some (va - 0x020000000000) else none
  | _ => none

/-- Reserved bytes from an offset on, as a check. -/
def zeros (b : W512) (off n : Nat) : Nat × Bool := (off, Cb.at_ b off n != 0)

/-- The checks of a command's body in order of offset: each field's offset, and whether the field offends. -/
def bodyChecks (s : State) (b : W512) : List (Nat × Bool) :=
  let f := Cb.at_ b
  match Cb.opcode b with
  | 0x00 | 0x09 | 0x0A | 0x0D => [zeros b 16 48]
  | 0x01 =>
    [(16, f 16 8 % 128 != 0), (36, 1 < f 36 1), zeros b 37 3, (40, f 36 1 == 0 && f 40 8 != 0), zeros b 48 16]
  | 0x02 => [(40, 8 ≤ f 40 4), zeros b 44 20]
  | 0x03 => [zeros b 24 40]
  | 0x04 => [(16, 4096 ≤ f 16 2), (18, 1 < f 18 1), zeros b 19 5, zeros b 32 32]
  | 0x05 => [(16, 4096 ≤ f 16 2), zeros b 18 6, zeros b 32 32]
  | 0x06 =>
    [(20, 1 < f 20 1), (21, f 20 1 == 0 && (f 21 1 < 2 || 64 < f 21 1)),
     (22, 16 ≤ f 22 1 || (f 20 1 == 1 && f 22 1 == 0)), zeros b 23 41]
  | 0x07 => [zeros b 24 40]
  | 0x08 =>
    [(16, 1 < f 16 1), (17, 3 < f 17 1), (18, 4096 ≤ f 18 2), zeros b 20 12, zeros b 56 8]
  | 0x0B =>
    [(16, 1 < f 16 1), (17, 3 < f 17 1), (18, 4096 ≤ f 18 2), (20, 1 < f 20 1), zeros b 21 3, zeros b 28 4, zeros b 56 8]
  | 0x0C => [(16, f 16 8 % 64 != 0), (24, f 24 4 == 0 || 65536 < f 24 4), zeros b 28 36]
  | 0x0E => [(16, f 16 8 % 8 != 0), zeros b 24 40]
  | 0x0F => [(16, 64 ≤ f 16 1), (17, f 17 1 < 0x10 || 0x3F < f 17 1), (18, 4 ≤ f 18 1), zeros b 19 13, zeros b 48 16]
  | _ =>
    [(16, (f 32 1 == 4 || f 32 1 == 8) && f 16 8 % f 32 1 != 0),
     (32, (f 32 1 != 4 && f 32 1 != 8) || (f 32 1 == 8 && (regOffset s (f 16 8)).isSome)), zeros b 33 31]

/-- The byte offset of a command's first offending field (R264), if there is one. (DEDUCED, log 157; DEDUCED, log
164.) -/
def cmdOffence (s : State) (b : W512) : Option Nat :=
  let op := Cb.opcode b
  let head : List (Nat × Bool) :=
    [(0, 0x10 < op), (1, 64 ≤ Cb.flags b || (Cb.det b && op != 0x01)), zeros b 2 2]
  ((head ++ bodyChecks s b).find? (·.2)).map (·.1)

/-! ## What the seal refuses (Table 12.5) -/

/-- Of each page that a range of bytes touches, whether it lies in device memory or in a sealed range. -/
def jobParts (s : State) (a n : Nat) : List Bool :=
  match fabric s (BitVec.ofNat 64 a) with
  | .loc va => (pieces va n).map fun p => inDevice s p.1 || inSealed s p.1
  | _ => [false]

/-- Some byte of a range lies in device memory or in a sealed range. -/
def meetsJobStore (s : State) (a n : Nat) : Bool := (jobParts s a n).any id

/-- A whole range lies in device memory or in sealed ranges. -/
def inJobStore (s : State) (a n : Nat) : Bool := (jobParts s a n).all id

/-- An end of a COPY is in device memory, in a sealed range or, at another device, in the job set. -/
def copyEndOk (s : State) (a n : Nat) : Bool :=
  match fabric s (BitVec.ofNat 64 a) with
  | .loc _ => inJobStore s a n
  | .peer id _ => inJobSet s id
  | .bad => false

/-- A command that the seal refuses. (DEDUCED, log 87; DEDUCED, log 165.) -/
def sealRefuses (s : State) (r : Nat) (b : W512) : Bool :=
  let host := !isJobRing s r
  s.sealed &&
    match Cb.opcode b with
    | 0x02 => Cb.bytes b != 0 && !((bit (Cb.mode b) 2 || copyEndOk s (Cb.addr b) (Cb.bytes b)) && copyEndOk s (Cb.value b) (Cb.bytes b))
    | 0x08 | 0x0B => host && Cb.source b == 1 && meetsJobStore s (Cb.condAddr b) 8
    | 0x0C =>
      let n := 64 * Cb.entries b
      if host then meetsJobStore s (Cb.addr b) n else !inJobStore s (Cb.addr b) n
    | 0x0E => host && Cb.addr b != 0 && meetsJobStore s (Cb.addr b) 8
    | 0x10 => host && meetsJobStore s (Cb.addr b) (Cb.size b)
    | _ => false

/-! ## When a command may be admitted (R262) -/

/-- A ring may admit: ACTIVE, no entry waiting for room, no open gate, fewer than 32 commands running. A reset, a wipe, a
partition change, a life-cycle transition, or an uncontained fault holds every ring (R393, R401, R433, R460). -/
def canAdmit (s : State) (r : Nat) : Bool :=
  let k := s.ring r
  k.state == .active && k.waitCq.isEmpty && k.gate.isNone && k.running.length < 32
    && !s.flag Reg.rsrStatus 1 && !s.flag Reg.rsrStatus 8 && !s.assay.lcHold && s.wiping.isNone && !cruHolds s && isReady s

/-- Whether a command waits for every earlier command of its ring: its SERIAL flag is set, or Table 8.3 makes it
serial. -/
def isSerial (s : State) (r : Nat) (b : W512) : Bool :=
  let top := (s.ring r).frames.head?
  Cb.serial b || match Cb.opcode b with
  | 0x04 | 0x08 => true
  | 0x0A =>
    match top with
    | some f => f.kind == .loopF && Cb.loopMode f.cmd.body == 1
    | none => false
  | 0x0B => Cb.loopMode b == 1
  | _ => false

/-- A command that must wait now: a serial one behind running commands, or a DISPATCH behind a parity fault (R451). -/
def mustHold (s : State) (r : Nat) (b : W512) : Bool :=
  (isSerial s r b && !(s.ring r).running.isEmpty) || (Cb.opcode b == 0x01 && parityHolds s)

/-- The iteration of a ring's innermost loop (R274). -/
def innerIter (s : State) (r : Nat) : Nat :=
  match (s.ring r).frames.find? fun f => f.kind == .loopF with
  | some f => f.iter
  | none => 0

/-- A command at a ring's position, as it will run. -/
def newCmd (s : State) (r : Nat) (b : W512) : Cmd :=
  let p := (s.ring r).pos
  let limit := if Cb.timeout b = 0 then (s.reg (Reg.ringTimeout r)).toNat else Cb.timeout b
  { uid := s.nextUid, seq := p.seq, sub := if p.inBuf then p.idx + 1 else 0, iter := innerIter s r, body := b,
    start := s.beat, limit := limit, snap := if Cb.ext b then extSnap s r else [] }

/-- A fetch that fails (Table 8.12): FETCH_FAULT, and HALTED_ERR with no completion entry. -/
def fetchFault (r : Nat) (e : MemErr) (s : State) : State :=
  let p := (s.ring r).pos
  let a := posAddr s r p
  let s := (ringErr r 3 s).modRing r fun k => { k with state := .haltedErr }
  escNotice 0x63 3 (r + e.faultByte <<< 8 + p.seq.toNat <<< 32 + (a % 2 ^ 64) <<< 64) s

/-- Reads the command at a ring's position. -/
def fetchCmd (ext : Ext) (r : Nat) (s : State) : Except MemErr W512 × State :=
  let p := (s.ring r).pos
  let a := posAddr s r p
  match (if p.inBuf then escReadAt (hostRing s r) ext a 64 s else escRead (hostRing s r) ext a 64 s) with
  | (.ok l, s) => (.ok (BitVec.ofNat 512 (ofBytes l)), s)
  | (.error e, s) => (.error e, s)

/-! ## Frames (R272, R273) -/

/-- Opens a frame, unless it would be the ninth. -/
def pushFrame (r : Nat) (f : Frame) (s : State) : Option State :=
  if 8 ≤ (s.ring r).frames.length then none
  else some (s.modRing r fun k => { k with frames := f :: k.frames })

/-- Closes the innermost frame. -/
def popFrame (r : Nat) (s : State) : State := s.modRing r fun k => { k with frames := k.frames.drop 1 }

/-- Moves a ring's position. -/
def setPos (r : Nat) (p : Pos) (s : State) : State := s.modRing r fun k => k.goTo p

/-- A second completion of a command that has opened a frame: BAD_COMMAND (R273). -/
def badAgain (ext : Ext) (r : Nat) (c : Cmd) (s : State) : State := commit ext r c 0x15 0 0 s

/-- Frames from the innermost CALL outwards, with those inside it. -/
def callFrame (s : State) (r : Nat) : Option (List Frame × Frame × List Frame) :=
  let fs := (s.ring r).frames
  let inner := fs.takeWhile fun f => f.kind != .callF
  match fs.drop inner.length with
  | [] => none
  | f :: rest => some (inner, f, rest)

/-- RETURN pops to the innermost CALL and resumes after it; false outside a call. -/
def doReturn (r : Nat) (s : State) : Bool × State :=
  match callFrame s r with
  | none => (false, s)
  | some (_, f, rest) => (true, s.modRing r fun k => { k.goTo f.pos with frames := rest })

/-- The end of a called buffer acts as RETURN; an IF or LOOP left open makes its CALL complete with BAD_COMMAND.
(DEDUCED, log 158; DEDUCED, log 162.) -/
def endOfBuffer (ext : Ext) (r : Nat) : Nat → State → State
  | 0, s => s
  | fuel + 1, s =>
    let p := (s.ring r).pos
    if p.inBuf = true ∧ p.entries ≤ p.idx ∧ (s.ring r).skip = none then
      match callFrame s r with
      | none => s
      | some (inner, f, _) =>
        let s := (doReturn r s).2
        endOfBuffer ext r fuel (if inner = [] then s else badAgain ext r f.cmd s)
    else s

/-- A LOOP on the ring whose END has not been found within N − 1 commands after it (R273): its frames are closed and it
completes with BAD_COMMAND. (DEDUCED, log 162.) -/
def loopLimit (ext : Ext) (r : Nat) (s : State) : State :=
  let k := s.ring r
  let far (f : Frame) : Bool :=
    f.kind == .loopF && f.cmd.sub == 0 && !k.pos.inBuf && ringN s r - 1 < (k.pos.seq - f.cmd.seq).toNat
  match k.frames.reverse.find? far with
  | none => s
  | some f =>
    let keep := (k.frames.reverse.takeWhile fun g => !far g).reverse
    badAgain ext r f.cmd (s.modRing r fun k => { k with frames := keep })

/-! ## Skipped commands (R272) -/

/-- The running command that skips is committed, and the skip ends. -/
def endSkip (ext : Ext) (r : Nat) (k : Skip) (status : Nat) (s : State) : State :=
  let s := s.modRing r fun k => { k with skip := none }
  match findCmd s k.uid with
  | some (r, c) => commit ext r c status 0 0 s
  | none => s

/-- A skip meets its ELSE: an IF frame opens, and the IF completes. -/
def skipElse (ext : Ext) (r : Nat) (k : Skip) (s : State) : State :=
  match findCmd s k.uid with
  | none => s.modRing r fun k => { k with skip := none }
  | some (_, c) =>
    match pushFrame r { kind := .ifF, cmd := c, iter := 0, pos := (s.ring r).pos } s with
    | some s => endSkip ext r k 0 s
    | none => endSkip ext r k 0x15 s

/-- A waiting command that an abort has named. -/
def isDoomed (s : State) (r : Nat) : Bool :=
  let k := s.ring r
  !k.pos.inBuf && k.doomed.contains k.pos.seq

/-- A ring's position moves behind its next command. -/
def passOne (r : Nat) (s : State) : State :=
  let p := (s.ring r).pos
  s.modRing r fun k => { k.goTo p.next with doomed := if p.inBuf then k.doomed else k.doomed.filter (· != p.seq) }

/-- One skipped command: only its opcode is read. One that an abort has named is committed as ABORTED. -/
def skipOne (ext : Ext) (r : Nat) (k : Skip) (b : W512) (s : State) : State :=
  let doomed := isDoomed s r
  let c := newCmd s r b
  let s := passOne r s
  let on (k : Skip) : State := s.modRing r fun g => { g with skip := some { k with passed := k.passed + 1 } }
  let s := match Cb.opcode b with
    | 0x08 | 0x0B => on { k with depth := k.depth + 1 }
    | 0x09 => if k.wantElse = true ∧ k.depth = 0 then skipElse ext r k s else on k
    | 0x0A => if k.depth = 0 then endSkip ext r k 0 s else on { k with depth := k.depth - 1 }
    | _ => on k
  if doomed then commit ext r c 0x10 0 0 { s with nextUid := s.nextUid + 1 } else s

/-- The skip of an ELSE ends at the END of its depth, which runs. -/
def stopsHere (k : Skip) (b : W512) : Bool := k.before && k.depth == 0 && Cb.opcode b == 0x0A

/-- A ring passes over the available commands of a skip. The command that skips completes with BAD_COMMAND where its
buffer ends first, or where a LOOP has passed N − 1 commands of the ring. -/
def runSkip (ext : Ext) (r : Nat) : Nat → State → State
  | 0, s => s
  | fuel + 1, s =>
    match (s.ring r).skip with
    | none => s
    | some k =>
      let p := (s.ring r).pos
      if (s.ring r).state ≠ .active then s
      else if (p.inBuf = true ∧ p.entries ≤ p.idx) ∨ (k.loop = true ∧ ringN s r - 1 ≤ k.passed) then endSkip ext r k 0x15 s
      else if available s r p = false then s
      else match fetchCmd ext r s with
        | (.error e, s) => fetchFault r e s
        | (.ok b, s) => if stopsHere k b then endSkip ext r k 0 s else runSkip ext r fuel (skipOne ext r k b s)

/-- Starts a skip for a running command: of an IF to its ELSE or past its END, of an ELSE to its END, of a LOOP past its
END. -/
def startSkip (ext : Ext) (r : Nat) (c : Cmd) (s : State) : State :=
  let k : Skip :=
    { uid := c.uid, before := Cb.opcode c.body == 0x09, wantElse := Cb.opcode c.body == 0x08,
      loop := Cb.opcode c.body == 0x0B && c.sub == 0 }
  runSkip ext r 65600 (s.modRing r fun g => { g with skip := some k, gate := some c.uid })

/-- What a ring does by itself before its next command: it goes on with a skip, and returns from buffers that have
ended. (DEDUCED, log 158.) -/
def ringProceeds (ext : Ext) (r : Nat) (s : State) : State :=
  if (s.ring r).skip.isSome then endOfBuffer ext r 9 (runSkip ext r 65600 s)
  else if canAdmit s r then loopLimit ext r (endOfBuffer ext r 9 s)
  else s

/-! ## Conditions (R271) -/

/-- A register access by a command of a ring is denied (R11). -/
def ringDenied (s : State) (r off : Nat) (v : W32) (write : Bool) : Bool :=
  match regPresent s off with
  | none => false
  | some d =>
    !badSize off && (wipeDenies s off write || !admits s (.ring r) d.cls || (write && sealDenies s (.ring r) off v))

/-- The operand of a condition: an event, a register read with the ring's class, or an 8-byte word. -/
def condOperand (ext : Ext) (r : Nat) (b : W512) (s : State) : Except Nat Nat × State :=
  if Cb.source b = 0 then (.ok (s.event (Cb.condEvent b)).toNat, s)
  else match regOffset s (Cb.condAddr b) with
    | some off =>
      let no := ringDenied s r off 0 false
      let x := readAccess (.ring r) off (regRead ext off) s
      (if no then .error 0x16 else .ok x.1.toNat, x.2)
    | none =>
      match escReadAt (hostRing s r) ext (Cb.condAddr b) 8 s with
      | (.ok l, s) => (.ok (ofBytes l), s)
      | (.error e, s) => (.error e.status, s)

/-- The comparison of a condition. -/
def condTest (b : W512) (x : Nat) : Bool :=
  let y := Nat.land x (Cb.mask b)
  match Cb.cmp b with
  | 0 => y == Cb.condValue b
  | 1 => y != Cb.condValue b
  | 2 => Cb.condValue b ≤ y
  | _ => y < Cb.condValue b

/-- Evaluates a condition: an error is the status of the command. (DEDUCED, log 166.) -/
def condition (ext : Ext) (r : Nat) (b : W512) (s : State) : Except Nat Bool × State :=
  match condOperand ext r b s with
  | (.ok x, s) => (.ok (condTest b x), s)
  | (.error e, s) => (.error e, s)

/-! ## Control flow (R272) -/

/-- A frame opens and its command completes; a ninth frame is BAD_COMMAND. (DEDUCED, log 161.) -/
def openFrame (ext : Ext) (r : Nat) (c : Cmd) (kind : FrameKind) (go : State → State) (s : State) : State :=
  match pushFrame r { kind := kind, cmd := c, iter := 0, pos := (s.ring r).pos } s with
  | some s => commit ext r c 0 0 0 (go s)
  | none => commit ext r c 0x15 0 0 s

/-- IF. (DEDUCED, log 159.) -/
def runIf (ext : Ext) (r : Nat) (c : Cmd) (s : State) : State :=
  match condition ext r c.body s with
  | (.error e, s) => commit ext r c e 0 0 s
  | (.ok true, s) => openFrame ext r c .ifF id s
  | (.ok false, s) => startSkip ext r c s

/-- ELSE: the taken branch ends here, and its END closes the frame. (DEDUCED, log 159.) -/
def runElse (ext : Ext) (r : Nat) (c : Cmd) (s : State) : State :=
  match (s.ring r).frames.head? with
  | some f => if f.kind = .ifF then startSkip ext r c s else commit ext r c 0x15 0 0 s
  | none => commit ext r c 0x15 0 0 s

/-- LOOP. (DEDUCED, log 159.) -/
def runLoop (ext : Ext) (r : Nat) (c : Cmd) (s : State) : State :=
  let enter := if Cb.loopMode c.body = 0 then (.ok (Cb.loopCount c.body != 0), s) else condition ext r c.body s
  match enter with
  | (.error e, s) => commit ext r c e 0 0 s
  | (.ok true, s) => openFrame ext r c .loopF id s
  | (.ok false, s) => startSkip ext r c s

/-- The END of a LOOP: it repeats after the LOOP, or leaves. -/
def endLoop (ext : Ext) (r : Nat) (c : Cmd) (f : Frame) (s : State) : State :=
  let n := f.iter + 1
  let again := if Cb.loopMode f.cmd.body = 0 then (.ok (decide (n < Cb.loopCount f.cmd.body)), s) else condition ext r f.cmd.body s
  match again with
  | (.error e, s) => commit ext r c e 0 0 (popFrame r s)
  | (.ok true, s) =>
    commit ext r c 0 0 0 (s.modRing r fun k => { k.goTo f.pos with frames := { f with iter := n } :: k.frames.drop 1 })
  | (.ok false, s) => commit ext r c 0 0 0 (popFrame r s)

/-- END. -/
def runEnd (ext : Ext) (r : Nat) (c : Cmd) (s : State) : State :=
  match (s.ring r).frames.head? with
  | none => commit ext r c 0x15 0 0 s
  | some f =>
    match f.kind with
    | .callF => commit ext r c 0x15 0 0 s
    | .ifF => commit ext r c 0 0 0 (popFrame r s)
    | .loopF => endLoop ext r c f s

/-- CALL: the buffer's entries run under the CALL's sequence number. (DEDUCED, log 160.) -/
def runCall (ext : Ext) (r : Nat) (c : Cmd) (s : State) : State :=
  openFrame ext r c .callF
    (setPos r { inBuf := true, seq := c.seq, addr := Cb.addr c.body, entries := Cb.entries c.body, idx := 0 }) s

/-- RETURN. -/
def runReturn (ext : Ext) (r : Nat) (c : Cmd) (s : State) : State :=
  match doReturn r s with
  | (true, s) => commit ext r c 0 0 0 s
  | (false, s) => commit ext r c 0x15 0 0 s

/-! ## Admission -/

/-- What a command does once it is admitted and well formed. -/
abbrev CmdBody := Nat → Cmd → State → State

/-- Admits the command at a ring's position. One that an abort has named is committed as ABORTED, a malformed one as
BAD_COMMAND with the offset of its first offending field, and one that the seal refuses as ACCESS_DENIED. -/
def admitCmd (ext : Ext) (go : CmdBody) (r : Nat) (b : W512) (s : State) : State :=
  let c := newCmd s r b
  let doomed := isDoomed s r
  let det := 2 * b2n (Cb.opcode b == 0x01 && Cb.det b)
  let s : State := { passOne r s with nextUid := s.nextUid + 1 }
  let s := mwNote (s.modRing r fun k => { k with running := k.running ++ [c], last := s.beat })
  let s := traceCommand r (Cb.opcode b) 0 0 c.seq s
  if doomed then commit ext r c 0x10 0 det s
  else match cmdOffence s b with
    | some off => commit ext r c 0x15 off det s
    | none => if sealRefuses s r b then commit ext r c 0x16 0 0 s else go r c s

/-- A ring's next command is admitted, if `takes` says that it is the row's and nothing holds it (R262). -/
def admitRow (ext : Ext) (takes : State → W512 → Bool) (go : CmdBody) (r : Nat) (s : State) : State :=
  if 64 ≤ r then s
  else
    let s := ringProceeds ext r s
    if canAdmit s r = false ∨ (s.ring r).skip.isSome = true ∨ available s r (s.ring r).pos = false then s
    else match fetchCmd ext r s with
      | (.error e, s) => fetchFault r e s
      | (.ok b, s') =>
        if takes s b = false ∨ mustHold s r b = true then s
        else endOfBuffer ext r 9 (admitCmd ext go r b s')

/-- A row takes the commands of its opcode, and an opcode of no row. (DEDUCED, log 163.) -/
def ofOpcode (op : Nat) (_ : State) (b : W512) : Bool := Cb.opcode b == op || 0x10 < Cb.opcode b

/-- A row takes the commands of its opcode that a further test accepts, and an opcode of no row. -/
def ofOpcodeIf (op : Nat) (p : State → W512 → Bool) (s : State) (b : W512) : Bool :=
  (Cb.opcode b == op && p s b) || 0x10 < Cb.opcode b

end Sys2Proof.Machine
end

