-- ==== Sys2Proof/Machine/EscCmds.lean ====
section
/-! DEFINITION. The commands of a ring other than DISPATCH: their admission and what ends them (R266 to R277, R303, R349
to R351, R377). Each row of admission takes the ring and the companion's bytes; a row that ends a running command names
it by its place in the ring's admission order. -/

namespace Sys2Proof.Machine

/-! ## Puts of the Escapement (R242, R298, R301) -/

/-- Sends bytes to a peer for a command, as PUT messages of at most 4,096 bytes; the last asks for a WACK. Poison goes as
poison (R85, R293). (DEDUCED, log 167.) -/
def escPut (r : Nat) (c : Cmd) (id : Nat) : Nat → Nat → Blob → State → State
  | 0, _, _, s => s
  | fuel + 1, va, data, s =>
    let last := data.data.length ≤ 4096
    let part := data.slice 0 4096
    let sq := isSqData s id va
    let m : RunMsg :=
      { opc := if sq then 0x03 else 0x01, vc := if sq then 3 else dataVc (ownId s) id, ackReq := decide last && !sq,
        dest := id, src := ownId s, stream := (Config.ringStream r).toNat, addr := va, ring := r, seq := c.seq.toNat,
        data := part.data, poison := part.mask }
    let s := if m.ackReq then modCmd r c.uid (fun c => { c with acks := c.acks + 1 }) s else s
    let s := runSend m s
    if last then s else escPut r c id fuel (va + 4096) (data.slice 4096 data.data.length) s

/-- Writes bytes where a command's 64-bit address says; an error is the status. -/
def cmdStore (ext : Ext) (r : Nat) (c : Cmd) (a : Nat) (data : List Byte) (s : State) : Except Nat Unit × State :=
  match fabric s (BitVec.ofNat 64 a) with
  | .bad => (.error 0x16, s)
  | .loc va =>
    match escWrite (hostRing s r) ext va data s with
    | (.ok _, s) => (.ok (), s)
    | (.error e, s) => (.error e.status, s)
  | .peer id va =>
    if s.sealed && !inJobSet s id then (.error 0x16, s)
    else (.ok (), escPut r c id (data.length / 4096 + 1) va { data := data } s)

/-- Commits a command with DONE and a DETAIL, or with the status of an error. -/
def commitOr (ext : Ext) (r : Nat) (c : Cmd) (detail : Nat) (x : Except Nat Unit × State) : State :=
  match x with
  | (.ok _, s) => commit ext r c 0 detail 0 s
  | (.error e, s) => commit ext r c e 0 0 s

/-! ## NOP, RECORD, TIMESTAMP, NOTICE, WRITE -/

/-- CMD_NOP (R264). -/
def execCmdNop (r : Nat) (ext : Ext) (s : State) : Host.Outcome State Fault Refusal :=
  .next (admitRow ext (ofOpcode 0x00) (fun r c s => commit ext r c 0 0 0 s) r s)

/-- RECORD's OP (R268). -/
def recordOp (op : Nat) (_ : State) (b : W512) : Bool := Cb.at_ b 18 1 == op || 1 < Cb.at_ b 18 1

/-- A RECORD changes its slot and completes with the slot's value. -/
def runRecord (ext : Ext) (update : Nat → W64 → State → State) : CmdBody := fun r c s =>
  let slot := Cb.event c.body
  let s := update slot (BitVec.ofNat 64 (Cb.value c.body)) s
  commit ext r c 0 (s.event slot).toNat 0 s

/-- RECORD_MAX (R268). -/
def execRecordMax (r : Nat) (ext : Ext) (s : State) : Host.Outcome State Fault Refusal :=
  .next (admitRow ext (ofOpcodeIf 0x04 (recordOp 0)) (runRecord ext eventMax) r s)

/-- RECORD_ADD (R268). -/
def execRecordAdd (r : Nat) (ext : Ext) (s : State) : Host.Outcome State Fault Refusal :=
  .next (admitRow ext (ofOpcodeIf 0x04 (recordOp 1)) (runRecord ext eventAdd) r s)

/-- A TIMESTAMP reads the master Beat, writes it unless ADDR is 0, and returns it (R267). -/
def runTimestamp (ext : Ext) : CmdBody := fun r c s =>
  let a := Cb.addr c.body
  let x := if a = 0 then (.ok (), s) else cmdStore ext r c a (toBytes 8 s.beat.toNat) s
  commitOr ext r c s.beat.toNat x

/-- TIMESTAMP (R267). -/
def execTimestamp (r : Nat) (ext : Ext) (s : State) : Host.Outcome State Fault Refusal :=
  .next (admitRow ext (ofOpcode 0x0E) (runTimestamp ext) r s)

/-- A NOTICE posts with SOURCE 0x0100: a refused post is BAD_COMMAND, a dropped one shows in DETAIL (R267). A queue whose
ring lies in the cache window's range refuses the access (R51). -/
def runNotice (ext : Ext) : CmdBody := fun r c s =>
  let f := Cb.at_ c.body
  let q := f 16 1 % 64
  let window := nqRefuses s q
  match nqPost q 0x100 true (f 17 1) (f 18 1 % 4) (f 32 16) s with
  | (s, .refused) => commit ext r c 0x15 0 0 s
  | (s, .dropped) => if window then commit ext r c 0x16 0 0 s else commit ext r c 0 1 0 s
  | (s, .accepted) => commit ext r c 0 0 0 s

/-- NOTICE (R267). -/
def execNotice (r : Nat) (ext : Ext) (s : State) : Host.Outcome State Fault Refusal :=
  .next (admitRow ext (ofOpcode 0x0F) (runNotice ext) r s)

/-- A WRITE of a register with the ring's class, or of a word (R267). One whose write has reset or aborted its own ring
is no longer running. (DEDUCED, log 172.) -/
def runWrite (ext : Ext) (good : Nat) : CmdBody := fun r c s =>
  let v := Cb.value c.body
  match regOffset s (Cb.addr c.body) with
  | some off =>
    let no := ringDenied s r off (BitVec.ofNat 32 v) true
    let s := regWrite (.ring r) ext good off (BitVec.ofNat 32 v) s
    match findCmd s c.uid with
    | some (r, c) => commit ext r c (if no then 0x16 else 0) 0 0 s
    | none => s
  | none => commitOr ext r c 0 (cmdStore ext r c (Cb.addr c.body) (toBytes (Cb.size c.body) v) s)

/-- WRITE (R267); `good` is how many programming steps of Assay storage succeed where the register is ASY_CMD. -/
def execWrite (r good : Nat) (ext : Ext) (s : State) : Host.Outcome State Fault Refusal :=
  .next (admitRow ext (ofOpcode 0x10) (runWrite ext good) r s)

/-! ## COPY (R266) -/

/-- Bytes in a piece of a COPY. -/
def pieceBytes : Nat := 2 ^ 21

/-- Pieces of a COPY. -/
def pieceCount (b : W512) : Nat := (Cb.bytes b + pieceBytes - 1) / pieceBytes

/-- An end of a COPY that is refused before any byte moves: outside the system, in register space, or a source at
another device. -/
def copyEndBad (s : State) (source : Bool) (a n : Nat) : Bool :=
  let inRegs (va : Nat) : Bool := va < 0x020010000000 && 0x020000000000 < va + n
  match fabric s (BitVec.ofNat 64 a) with
  | .bad => true
  | .loc va => inRegs va
  | .peer _ va => source || inRegs va

/-- A COPY is handed to the copy engines. (DEDUCED, log 169.) -/
def runCopy (ext : Ext) : CmdBody := fun r c s =>
  let b := c.body
  let n := Cb.bytes b
  if n = 0 then commit ext r c 0 0 0 s
  else if (!bit (Cb.mode b) 2 && copyEndBad s true (Cb.addr b) n) || copyEndBad s false (Cb.value b) n then
    commit ext r c 0x16 0 0 s
  else s

/-- COPY (R266). -/
def execCopy (r : Nat) (ext : Ext) (s : State) : Host.Outcome State Fault Refusal :=
  .next (admitRow ext (ofOpcode 0x02) (runCopy ext) r s)

/-- The bytes that a COPY writes at one piece. Where source and destination overlap, a byte that lies in the overlap or
comes from it is a free value. (DEDUCED, log 168.) -/
def overlapBytes (src dst n off : Nat) (data : List Byte) (s : State) : List Byte × State :=
  if src < dst + n ∧ dst < src + n then
    let inside (a lo : Nat) : Bool := lo ≤ a && a < lo + n
    (data.zipIdx.map fun p =>
      if inside (dst + off + p.2) src || inside (src + off + p.2) dst then (Config.freeWord (s.free + p.2)).setWidth 8 else p.1,
      { s with free := s.free + data.length })
  else (data, s)

/-- Reads a piece's source, poison as poison. -/
def pieceRead (ext : Ext) (b : W512) (off len : Nat) (s : State) : Except Nat Blob × State :=
  if bit (Cb.mode b) 2 then (.ok { data := List.replicate len 0 }, s)
  else match fabric s (BitVec.ofNat 64 (Cb.addr b)) with
    | .loc va =>
      match fetchVirt ext { noalloc := bit (Cb.mode b) 0 } (va + off) len (settleFills s) with
      | (.error e, s) => (.error e.status, s)
      | (.ok l, s) =>
        match fabric s (BitVec.ofNat 64 (Cb.value b)) with
        | .loc d => let o := overlapBytes va d (Cb.bytes b) off l.1 s; (.ok { data := o.1, bad := l.2 }, o.2)
        | _ => (.ok { data := l.1, bad := l.2 }, s)
    | _ => (.error 0x16, s)

/-- Writes a piece's destination. -/
def pieceWrite (ext : Ext) (r : Nat) (c : Cmd) (off : Nat) (l : Blob) (s : State) : Except Nat Unit × State :=
  match fabric s (BitVec.ofNat 64 (Cb.value c.body)) with
  | .loc va =>
    match storeVirt ext { noalloc := bit (Cb.mode c.body) 1 } (fun _ => true) (inParts l.bad) (va + off) l.data
        (settleFills s) with
    | (.ok _, s) => (.ok (), s)
    | (.error e, s) => (.error e.status, s)
  | .peer id va => (.ok (), escPut r c id (l.data.length / 4096 + 1) (va + off) l s)
  | .bad => (.error 0x16, s)

/-- One piece of a COPY is performed; the COPY completes after its last piece, or with the first failure. One that moved
poison completes with MEMORY_UNCORRECTABLE (R85). (DEDUCED, log 167.) -/
def copyPiece (ext : Ext) (r : Nat) (c : Cmd) (k : Nat) (s : State) : State :=
  let b := c.body
  let off := k * pieceBytes
  let len := min pieceBytes (Cb.bytes b - off)
  if pieceCount b ≤ k ∨ c.pieces.contains k = true then s
  else match pieceRead ext b off len s with
    | (.error e, s) => endCommand ext r c e s
    | (.ok l, s) =>
      match pieceWrite ext r c off l s with
      | (.error e, s) => endCommand ext r c e s
      | (.ok _, s) =>
        let written := c.written + len
        let bad := c.poisoned || l.any
        if c.pieces.length + 1 = pieceCount b then commit ext r c (if bad then 0x17 else 0) (written % 2 ^ 48) 0 s
        else modCmd r c.uid (fun c => { c with pieces := c.pieces ++ [k], written := written, poisoned := bad }) s

/-- Acts on the running command at a place of a ring, if it has the opcode. (DESIGN CHOICE, log 2.) -/
def onRunning (op r n : Nat) (go : Cmd → State → State) (s : State) : State :=
  match runningAt s r n with
  | some c => if Cb.opcode c.body = op then go c s else s
  | none => s

/-- A piece of a COPY reaches a stack whose window is active (R443). -/
def pieceHeld (s : State) (b : W512) (k : Nat) : Bool :=
  let off := k * pieceBytes
  let at_ (a : Nat) : Bool := match fabric s (BitVec.ofNat 64 a) with
    | .loc va => rangeHeld s (va + off) (min pieceBytes (Cb.bytes b - off))
    | _ => false
  (!bit (Cb.mode b) 2 && at_ (Cb.addr b)) || at_ (Cb.value b)

/-- COPY_PIECE_DONE (R266): piece `k` of a COPY; accesses wait while the Crucible or the window of a stack holds them. -/
def execCopyPieceDone (r n k : Nat) (ext : Ext) (s : State) : Host.Outcome State Fault Refusal :=
  .next (if cruHolds s then s else onRunning 0x02 r n (fun c s => if pieceHeld s c.body k then s else copyPiece ext r c k s) s)

/-! ## WAIT (R269) -/

/-- A WAIT holds its ring's gate until its slot's value has been at least VALUE. -/
def runWait : CmdBody := fun r c s =>
  let met := decide (Cb.value c.body ≤ (s.event (Cb.event c.body)).toNat)
  (modCmd r c.uid (fun c => { c with met := met }) s).modRing r fun k => { k with gate := some c.uid }

/-- WAIT (R269). -/
def execWait (r : Nat) (ext : Ext) (s : State) : Host.Outcome State Fault Refusal :=
  .next (admitRow ext (ofOpcode 0x05) runWait r s)

/-- WAIT_WAKE (R269): the condition has held at some instant, and the WAIT completes with the slot's value. -/
def execWaitWake (r n : Nat) (ext : Ext) (s : State) : Host.Outcome State Fault Refusal :=
  .next <| onRunning 0x05 r n (fun c s =>
    if c.met then commit ext r c 0 (s.event (Cb.event c.body)).toNat 0 s else s) s

/-! ## BARRIER (R267, R306) -/

/-- Running local BARRIERs of a slot with their rings, in ring order. -/
def localBars (s : State) (id : Nat) : List (Nat × Cmd) :=
  s.rings.flatMap fun e =>
    (e.2.running.filter fun d => Cb.opcode d.body == 0x06 && Cb.scope d.body == 0 && Cb.barId d.body % 64 == id % 64).map
      fun d => (e.1, d)

/-- A local BARRIER arrives; when COUNT run at once all of them complete. (DEDUCED, log 170.) -/
def runLocalBar (ext : Ext) : CmdBody := fun r c s =>
  let id := Cb.barId c.body
  let n := Cb.count c.body
  let s := s.modRing r fun k => { k with gate := some c.uid }
  let all := localBars s id
  if all.any fun e => Cb.barId e.2.body != id || Cb.count e.2.body != n then commit ext r c 0x15 0 0 s
  else if n ≤ all.length then forEach (fun e s => commit ext e.1 e.2 0 0 0 s) all s
  else s

/-- BARRIER's SCOPE. -/
def barScope (x : Nat) (_ : State) (b : W512) : Bool := Cb.scope b == x || 1 < Cb.scope b

/-- BARRIER_LOCAL (R267). -/
def execBarrierLocal (r : Nat) (ext : Ext) (s : State) : Host.Outcome State Fault Refusal :=
  .next (admitRow ext (ofOpcodeIf 0x06 (barScope 0)) (runLocalBar ext) r s)

/-- A fabric BARRIER sends its arrival up the tree. -/
def runFabricBar (ext : Ext) : CmdBody := fun r c s =>
  joinBar ext r c (Cb.barId c.body) (Cb.axes c.body) (s.modRing r fun k => { k with gate := some c.uid })

/-- BARRIER_FABRIC (R306). -/
def execBarrierFabric (r : Nat) (ext : Ext) (s : State) : Host.Outcome State Fault Refusal :=
  .next (admitRow ext (ofOpcodeIf 0x06 (barScope 1)) (runFabricBar ext) r s)

/-! ## STRIKE (R349 to R351) -/

/-- A STRIKE commits: its trace record, its log record, and what a replay checks (Tables 11.6 and 11.8, R366). -/
def commitStrike (ext : Ext) (r : Nat) (c : Cmd) (target : W64) (late : Bool) (s : State) : State :=
  let s := traceEmit 0x86 (ctrlDie s) 0x100 none (c.seq.toNat + r <<< 32 + b2n late <<< 40) s
  let s := logRecord 17 5 0 s.beat (toBytes 8 target.toNat ++ toBytes 4 c.seq.toNat ++ toBytes 1 r ++ toBytes 1 (b2n late)
    ++ toBytes 2 0) s
  let s : State :=
    if replaying s then { s with replay := { s.replay with strikes := s.replay.strikes ++ [(r, c.seq, target)] } } else s
  commit ext r c 0 0 (b2n late) s

/-- A STRIKE waits for its Beat; one admitted after it commits at once as late. (DEDUCED, log 171.) -/
def runStrike (ext : Ext) : CmdBody := fun r c s =>
  let t : Option W64 := if Cb.addr c.body = 0 then s.bt.strike else some (BitVec.ofNat 64 (Cb.addr c.body))
  match t with
  | none => commit ext r c 0x15 0 0 s
  | some t =>
    if t.toNat < s.beat.toNat then commitStrike ext r c t true (s.count 0x004 1)
    else (modCmd r c.uid (fun c => { c with target := t }) s).modRing r fun k => { k with gate := some c.uid }

/-- STRIKE (R350). -/
def execStrike (r : Nat) (ext : Ext) (s : State) : Host.Outcome State Fault Refusal :=
  .next (admitRow ext (ofOpcode 0x07) (runStrike ext) r s)

/-- STRIKE_FIRE (R349): the master Beat has reached the target. -/
def execStrikeFire (r n : Nat) (ext : Ext) (s : State) : Host.Outcome State Fault Refusal :=
  .next <| onRunning 0x07 r n (fun c s =>
    if c.target.toNat ≤ s.beat.toNat then commitStrike ext r c c.target false s else s) s

/-! ## Control flow (R271 to R273) -/

/-- IF (R271). -/
def execCmdIf (r : Nat) (ext : Ext) (s : State) : Host.Outcome State Fault Refusal :=
  .next (admitRow ext (ofOpcode 0x08) (fun r c s => runIf ext r c s) r s)
/-- ELSE (R272). -/
def execCmdElse (r : Nat) (ext : Ext) (s : State) : Host.Outcome State Fault Refusal :=
  .next (admitRow ext (ofOpcode 0x09) (fun r c s => runElse ext r c s) r s)
/-- END (R272). -/
def execCmdEnd (r : Nat) (ext : Ext) (s : State) : Host.Outcome State Fault Refusal :=
  .next (admitRow ext (ofOpcode 0x0A) (fun r c s => runEnd ext r c s) r s)

/-- LOOP's MODE. -/
def loopIs (m : Nat) (_ : State) (b : W512) : Bool := Cb.loopMode b == m || 1 < Cb.loopMode b

/-- LOOP_COUNT (R272). -/
def execLoopCount (r : Nat) (ext : Ext) (s : State) : Host.Outcome State Fault Refusal :=
  .next (admitRow ext (ofOpcodeIf 0x0B (loopIs 0)) (fun r c s => runLoop ext r c s) r s)
/-- LOOP_CONDITION (R272). -/
def execLoopCondition (r : Nat) (ext : Ext) (s : State) : Host.Outcome State Fault Refusal :=
  .next (admitRow ext (ofOpcodeIf 0x0B (loopIs 1)) (fun r c s => runLoop ext r c s) r s)
/-- CMD_CALL (R272). -/
def execCmdCall (r : Nat) (ext : Ext) (s : State) : Host.Outcome State Fault Refusal :=
  .next (admitRow ext (ofOpcode 0x0C) (fun r c s => runCall ext r c s) r s)
/-- RETURN (R272). -/
def execCmdReturn (r : Nat) (ext : Ext) (s : State) : Host.Outcome State Fault Refusal :=
  .next (admitRow ext (ofOpcode 0x0D) (fun r c s => runReturn ext r c s) r s)

/-! ## COLLECTIVE (R303) -/

/-- A COLLECTIVE whose descriptor asks for an operation, or whose descriptor cannot be read or asks for none.
(DEDUCED, log 163.) -/
def collIs (ext : Ext) (op : Nat) (s : State) (b : W512) : Bool :=
  match descOp s ext b with
  | some o => o == op || o == 0 || 8 < o || Cb.addr b % 128 != 0
  | none => true

/-- A COLLECTIVE with a given operation is handed to the engine. -/
def collRow (ext : Ext) (op r : Nat) (s : State) : State :=
  admitRow ext (ofOpcodeIf 0x03 (collIs ext op)) (fun r c s => startCollective ext r c s) r s

/-- REDUCE_OPEN (R307). -/
def execReduceOpen (r : Nat) (ext : Ext) (s : State) : Host.Outcome State Fault Refusal := .next (collRow ext 1 r s)
/-- REDUCE_SEND (R304). -/
def execReduceSend (r : Nat) (ext : Ext) (s : State) : Host.Outcome State Fault Refusal := .next (collRow ext 2 r s)
/-- RING_REDUCE_SCATTER (R317). -/
def execRingReduceScatter (r : Nat) (ext : Ext) (s : State) : Host.Outcome State Fault Refusal :=
  .next (collRow ext 3 r s)
/-- RING_ALL_REDUCE (R304). -/
def execRingAllReduce (r : Nat) (ext : Ext) (s : State) : Host.Outcome State Fault Refusal := .next (collRow ext 4 r s)
/-- ALL_GATHER (R305). -/
def execAllGather (r : Nat) (ext : Ext) (s : State) : Host.Outcome State Fault Refusal := .next (collRow ext 5 r s)
/-- MULTICAST (R305). -/
def execMulticast (r : Nat) (ext : Ext) (s : State) : Host.Outcome State Fault Refusal := .next (collRow ext 6 r s)
/-- PARAM_COMMIT (R312). -/
def execParamCommit (r : Nat) (ext : Ext) (s : State) : Host.Outcome State Fault Refusal := .next (collRow ext 7 r s)
/-- CHECKPOINT (R304). -/
def execCheckpoint (r : Nat) (ext : Ext) (s : State) : Host.Outcome State Fault Refusal := .next (collRow ext 8 r s)

/-- A message of a running COLLECTIVE still waits to be sent. -/
def stillSends (s : State) (uid : Nat) : Bool :=
  match findCmd s uid with
  | some (r, c) => sendsWait s r c.seq
  | none => false

/-- The work of a REDUCE_SEND, MULTICAST or PARAM_COMMIT is done: a residual is written, and the COLLECTIVE commits. -/
def sendAccepted (ext : Ext) (uid : Nat) (k : Coll) (s : State) : State :=
  if k.desc.op ≠ 2 ∧ k.desc.op ≠ 6 ∧ k.desc.op ≠ 7 then s
  else if stillSends s uid then s
  else if k.resid = [] then collDone ext uid s
  else match collWrite ext k.desc.resid k.resid s with
    | (.ok _, s) => collDone ext uid s
    | (.error e, s) => collCommit ext uid e s

/-- COLLECTIVE_SEND_ACCEPTED (R304, Table 9.6): the Crucible has accepted the last message. -/
def execCollectiveSendAccepted (r n : Nat) (ext : Ext) (s : State) : Host.Outcome State Fault Refusal :=
  .next <| onRunning 0x03 r n (fun c s =>
    match s.coll c.uid with
    | some k => if cruHolds s then s else sendAccepted ext c.uid k s
    | none => s) s

/-! ## Timeouts and mutual waits (R275, R277) -/

/-- COMMAND_TIMEOUT (R275): the elapsed time has exceeded the command's limit; control flow has no timer. -/
def execCommandTimeout (r n : Nat) (ext : Ext) (s : State) : Host.Outcome State Fault Refusal :=
  .next <|
    match runningAt s r n with
    | none => s
    | some c =>
      let timed := !([0x00, 0x08, 0x09, 0x0A, 0x0B, 0x0C, 0x0D].contains (Cb.opcode c.body))
      if timed = true ∧ 1000 * c.limit < (s.beat - c.start).toNat then timeoutCommand ext r c s else s

/-- The conditions of a mutual wait have held for 1 ms (R276). -/
def mwDue (s : State) : Bool :=
  match s.mwSince with
  | none => false
  | some b => s.flag Reg.escCtl 0 && !s.mwBroken && mwHolds s && 1000000 ≤ (s.beat - b).toNat

/-- A mutual wait is declared (R277): its registers and notice, and the waits of the blocked rings end in ring order. -/
def declareMutual (ext : Ext) (s : State) : State :=
  let rings := allRings.filter (blocked s)
  let mask := (rings.map fun r => 2 ^ r).sum
  let s := (s.setReg Reg.escMwMaskLo (BitVec.ofNat 32 mask)).setReg Reg.escMwMaskHi (BitVec.ofNat 32 (mask / 2 ^ 32))
  let s := (s.setFld Reg.escStatus 15 8 rings.length).count 0x031 1
  let s := escNotice 0x60 3 mask s
  let s := forEach (fun r s => endCommands ext r 0x13 (stuckCmd s) s) rings s
  { s with mwSince := none }

/-- MUTUAL_WAIT (R277). (DEDUCED, log 173.) -/
def execMutualWait (ext : Ext) (s : State) : Host.Outcome State Fault Refusal :=
  .next (if mwDue s then declareMutual ext s else s)

end Sys2Proof.Machine
end

