-- ==== Sys2Proof/Machine/EscChain.lean ====
section
/-! DEFINITION. The chain runner (R286, Tables 8.11 and 8.12). -/

namespace Sys2Proof.Machine

/-! ## Descriptors (Table 8.11) -/

namespace Cd
def kind (d : W512) : Nat := Cb.at_ d 0 1
def notify (d : W512) : Bool := bit (Cb.at_ d 1 1) 0
def timeout (d : W512) : Nat := if Cb.at_ d 4 4 = 0 then 10000000 else Cb.at_ d 4 4
def next (d : W512) : Nat := Cb.at_ d 8 8
/-- ARG0 to ARG3. -/
def arg (d : W512) (i : Nat) : Nat := Cb.at_ d (16 + 8 * i) 8
/-- A reserved bit or byte is set, or KIND is not assigned. -/
def bad (d : W512) : Bool :=
  kind d == 0 || 6 < kind d || 2 ≤ Cb.at_ d 1 1 || Cb.at_ d 3 1 != 0 || Cb.at_ d 56 8 != 0
end Cd

/-- Changes the running chain. -/
def modChain (f : Chain → Chain) (s : State) : State := { s with chain := s.chain.map f }

/-- The chain ends at a descriptor (R286): its status and address, the notice, and ESC_CHAIN_HI can be read back.
(DEDUCED, log 89.) -/
def chainEnd (a status : Nat) (s : State) : State :=
  let s := s.setReg Reg.escChainStatus (BitVec.ofNat 32 status)
  let s := s.setReg Reg.escChainFailLo (BitVec.ofNat 32 (a / 64 * 64))
  let s := s.setReg Reg.escChainFailHi (BitVec.ofNat 32 (a / 2 ^ 32 % 2 ^ 16))
  let s := escNotice 0x64 2 (status + (a % 2 ^ 64) <<< 64) s
  let s := match s.posted.find? fun p => p.1 == Reg.escChainHi with
    | some p => storeReg Reg.escChainHi p.2 s
    | none => s
  { s with chain := none, posted := s.posted.filter fun p => p.1 != Reg.escChainHi }

/-- A descriptor ends: STATUS and END_BEAT are written, then the descriptor at NEXT starts or the chain ends.
(DESIGN CHOICE, log 176.) -/
def descriptorEnd (ext : Ext) (c : Chain) (status : Nat) (s : State) : State :=
  let w := escWrite false ext (c.addr + 2) (toBytes 1 status) s
  let s := w.2
  let w2 := escWrite false ext (c.addr + 48) (toBytes 8 s.beat.toNat) s
  let s := w2.2
  let status := if 0x10 ≤ status then status else
    match w.1, w2.1 with
    | .error e, _ => e.status
    | _, .error e => e.status
    | _, _ => status
  let s := if Cd.notify c.desc then escNotice 0x65 0 ((c.addr % 2 ^ 64) <<< 64) s else s
  if 0x10 ≤ status ∨ Cd.next c.desc = 0 then chainEnd c.addr status s
  else { s with chain := some { addr := Cd.next c.desc, desc := 0, start := s.beat, work := .fetch } }

/-- The chain's present descriptor begins, if it is of the row's KIND. One that cannot be read ends the chain; a
malformed one completes with BAD_COMMAND. (DESIGN CHOICE, log 176.) -/
def chainRow (ext : Ext) (kind : Nat) (go : Chain → State → State) (s : State) : State :=
  match s.chain with
  | none => s
  | some c =>
    if c.work ≠ .fetch ∨ cruHolds s = true then s
    else if c.addr % 64 ≠ 0 then chainEnd c.addr 0x15 s
    else match escReadAt false ext c.addr 64 s with
      | (.error e, s) => chainEnd c.addr e.status s
      | (.ok l, s') =>
        let d : W512 := BitVec.ofNat 512 (ofBytes l)
        let c := { c with desc := d, start := s.beat }
        if Cd.bad d then modChain (fun _ => { c with work := .done 0x15 }) s'
        else if Cd.kind d ≠ kind then s
        else go c s'

/-- The descriptor's work goes on. -/
def chainWorks (w : ChainWork) (c : Chain) (s : State) : State := modChain (fun _ => { c with work := w }) s

/-! ## The rows -/

/-- CHAIN_START (R286): a write of ESC_CHAIN_HI. -/
def execChainStart (rq : Requester) (v : W32) (s : State) : Host.Outcome State Fault Refusal :=
  .next (writeGate rq Reg.escChainHi v (chainStart v) s)

/-- CHAIN_COPY: the bytes are copied by the time the descriptor is done. -/
def execChainCopy (ext : Ext) (s : State) : Host.Outcome State Fault Refusal :=
  .next (chainRow ext 1 (chainWorks .copy) s)

/-- CHAIN_FILL. -/
def execChainFill (ext : Ext) (s : State) : Host.Outcome State Fault Refusal :=
  .next (chainRow ext 2 (chainWorks .fill) s)

/-- Writes bytes at a local address for the chain: the status. -/
def chainStore (ext : Ext) (a : Nat) (l : List Byte) (s : State) : Nat × State :=
  match fabric s (BitVec.ofNat 64 a) with
  | .loc va =>
    match escWrite false ext va l s with
    | (.ok _, s) => (0, s)
    | (.error e, s) => (e.status, s)
  | _ => (0x16, s)

/-- A register write of the chain is denied. -/
def chainDenied (s : State) (off : Nat) : Bool :=
  match regPresent s off with
  | none => false
  | some d => !badSize off && (wipeDenies s off true || !admits s .chain d.cls)

/-- A WRITE descriptor: a register, or an 8-byte word. -/
def chainPut (ext : Ext) (good : Nat) (c : Chain) (s : State) : State :=
  let v := Cd.arg c.desc 2
  match regOffset s (Cd.arg c.desc 1) with
  | some off =>
    let no := chainDenied s off
    chainWorks (.done (if no then 0x16 else 0)) c (regWrite .chain ext good off (BitVec.ofNat 32 v) s)
  | none =>
    let x := chainStore ext (Cd.arg c.desc 1) (toBytes 8 v) s
    chainWorks (.done x.1) c x.2

/-- CHAIN_WRITE; `good` as for REGISTER_WRITE. -/
def execChainWrite (good : Nat) (ext : Ext) (s : State) : Host.Outcome State Fault Refusal :=
  .next (chainRow ext 3 (chainPut ext good) s)

/-- CHAIN_POLL. -/
def execChainPoll (ext : Ext) (s : State) : Host.Outcome State Fault Refusal :=
  .next (chainRow ext 4 (chainWorks .poll) s)

/-- The polled word: a match, or a word that cannot be read, ends the work. -/
def pollWord (ext : Ext) (c : Chain) (s : State) : State :=
  match escReadAt false ext (Cd.arg c.desc 1) 8 s with
  | (.error e, s) => chainWorks (.done e.status) c s
  | (.ok l, s') =>
    if Nat.land (ofBytes l) (Cd.arg c.desc 2) = Cd.arg c.desc 3 then chainWorks (.done 0) c s' else s

/-- CHAIN_POLL_MATCH. -/
def execChainPollMatch (ext : Ext) (s : State) : Host.Outcome State Fault Refusal :=
  .next <|
    match s.chain with
    | some c => if c.work = .poll ∧ cruHolds s = false then pollWord ext c s else s
    | none => s

/-- CHAIN_WIPE: a wipe of the Crucible (R87). -/
def execChainWipe (ext : Ext) (s : State) : Host.Outcome State Fault Refusal :=
  .next (chainRow ext 5 (fun c s => chainWorks .wipe c (cruWipeWrite 1 s)) s)

/-- A NOTICE descriptor posts with SOURCE 0x0100 as software; its priority is not given and is a free value. A queue whose
ring lies in the cache window's range refuses the access (R51). (DESIGN CHOICE, log 176.) -/
def chainPost (c : Chain) (s : State) : State :=
  let d := c.desc
  let x := s.draw
  let window := nqRefuses s (Cd.arg d 2 % 64)
  match nqPost (Cd.arg d 2 % 64) 0x100 true (Cd.arg d 3 % 256) (x.1.toNat % 4) (Cd.arg d 0 + Cd.arg d 1 <<< 64) x.2 with
  | (s, .refused) => chainWorks (.done 0x15) c s
  | (s, .dropped) => chainWorks (.done (if window then 0x16 else 0)) c s
  | (s, .accepted) => chainWorks (.done 0) c s

/-- CHAIN_NOTICE. -/
def execChainNotice (ext : Ext) (s : State) : Host.Outcome State Fault Refusal :=
  .next (chainRow ext 6 chainPost s)

/-- Copies a COPY descriptor's bytes, poison as poison (R85): the status. (DESIGN CHOICE, log 176.) -/
def chainCopyAll (ext : Ext) (d : W512) (s : State) : Nat × State :=
  let n := Cd.arg d 0
  let a := Cd.arg d 1
  match fabric s (BitVec.ofNat 64 a), fabric s (BitVec.ofNat 64 (Cd.arg d 2)) with
  | .loc va, .loc vb =>
    match fetchVirt ext {} va n (settleFills s) with
    | (.error e, s) => (e.status, s)
    | (.ok l, s) =>
      let o := overlapBytes va vb n 0 l.1 s
      match storeVirt ext {} (fun _ => true) (inParts l.2) vb o.1 o.2 with
      | (.ok _, s) => (if l.2.isEmpty then 0 else 0x17, s)
      | (.error e, s) => (e.status, s)
  | _, _ => (0x16, s)

/-- The bytes of a FILL: the pattern repeated. -/
def fillBytes (n pattern : Nat) : List Byte := (upFrom 0 n).map fun i => BitVec.ofNat 8 (pattern / 256 ^ (i % 8))

/-- The status with which a descriptor's work ends, and its effect; none while it has not ended. -/
def chainResult (ext : Ext) (c : Chain) (s : State) : Option (Nat × State) :=
  match c.work with
  | .copy => some (if Cd.arg c.desc 0 = 0 then (0, s) else chainCopyAll ext c.desc s)
  | .fill =>
    let n := Cd.arg c.desc 0
    some (if n = 0 then (0, s) else chainStore ext (Cd.arg c.desc 1) (fillBytes n (Cd.arg c.desc 2)) s)
  | .wipe => if s.wiping.isSome || s.fld Reg.cruStatus 1 1 != 0 then none else some (0, s)
  | .done st => some (st, s)
  | _ => none

/-- CHAIN_DESCRIPTOR_DONE. -/
def execChainDescriptorDone (ext : Ext) (s : State) : Host.Outcome State Fault Refusal :=
  .next <|
    match s.chain with
    | none => s
    | some c =>
      if cruHolds s then s
      else match chainResult ext c s with
        | some (st, s) => descriptorEnd ext c st s
        | none => s

/-- CHAIN_TIMEOUT: the descriptor has exceeded its limit and ends the chain with TIMEOUT. -/
def execChainTimeout (ext : Ext) (s : State) : Host.Outcome State Fault Refusal :=
  .next <|
    match s.chain with
    | none => s
    | some c =>
      if c.work ≠ .fetch ∧ cruHolds s = false ∧ 1000 * Cd.timeout c.desc < (s.beat - c.start).toNat then descriptorEnd ext c 0x12 s else s

end Sys2Proof.Machine
end

