-- ==== Sys2Proof/Machine/EscDispatch.lean ====
section
/-! DEFINITION. DISPATCH (R172 to R177, R189, R190, R262, R265, R375, R427, R443, R451). -/

namespace Sys2Proof.Machine

/-! ## Checks (R174, R265) -/

/-- The core ids of a DISPATCH, lowest first. An error is the status of a mask that cannot be read. -/
def coreSet (ext : Ext) (b : W512) (s : State) : Except Nat (List Nat) × State :=
  if Cb.core1 b = 0 then (.ok (upFrom (Cb.at_ b 32 2) (Cb.at_ b 34 2)), s)
  else match escReadAt false ext (Cb.at_ b 40 8) 32 s with
    | (.ok l, s) => (.ok ((upFrom 0 256).filter fun c => bit (ofBytes l) c), s)
    | (.error e, s) => (.error e.status, s)

/-- The eight shapes of 96 bytes: M, N and K of k0 to k7. -/
def shapesOf (l : List Byte) : List KShape :=
  (upFrom 0 8).map fun i =>
    { m := BitVec.ofNat 32 (bytesAt l (12 * i) 4), n := BitVec.ofNat 32 (bytesAt l (12 * i + 4) 4),
      k := BitVec.ofNat 32 (bytesAt l (12 * i + 8) 4) }

/-- A plan header is malformed (R172): VERSION, or a reserved byte or bit. -/
def badHeader (h : List Byte) : Bool := bytesAt h 0 2 != 1 || 8 ≤ bytesAt h 2 2 || bytesAt h 120 8 != 0

/-- A run-time shape exceeds its planned maximum. -/
def exceedsPlan (rt max : List KShape) : Bool :=
  (rt.zip max).any fun p => decide (p.2.m < p.1.m) || decide (p.2.n < p.1.n) || decide (p.2.k < p.1.k)

/-- The dispatch that passes every check. -/
def newDisp (r : Nat) (c : Cmd) (set : List Nat) (h : List Byte) (rt : List KShape) : Disp :=
  { live := true, ring := r, seq := c.seq, sub := c.sub, set := set, det := Cb.det c.body,
    restartable := bit (bytesAt h 2 2) 0, entry := bytesAt h 8 4, codeBytes := bytesAt h 4 4,
    image := BitVec.ofNat 64 (Cb.addr c.body),
    kv := (rt.zipIdx.foldl (fun t p => Tab.set {} t p.2 p.1) []) }

/-- A core may begin a part of a dispatch now: it is in service and in no dispatch, no repair window or reset holds it,
and its die runs (R176, R262, R424, R438, R443). -/
def coreFree (s : State) (c : Nat) : Bool :=
  let k := s.core c
  (k.mode == .idle || k.mode == .trapped) && k.disp.isNone && !windowHolds s c && coreInService s c
    && !s.rgl.dark.contains (dieOf c)

/-- Starts every core of a set that is free. -/
def startFree (uid : Nat) (set : List Nat) (s : State) : State :=
  forEach (fun c s => if coreFree s c then startCore uid c s else s) set s

/-- A DISPATCH whose image may run is checked and starts on its cores (R174, R265). -/
def checkDispatch (ext : Ext) (r : Nat) (c : Cmd) (s : State) : State :=
  let b := c.body
  let stop (status : Nat) (s : State) : State :=
    commit ext r c status 0 (2 * b2n (Cb.det b)) { s with disps := Tab.erase s.disps c.uid }
  match coreSet ext b s with
  | (.error e, s) => stop e s
  | (.ok set, s) =>
    if set.any fun c => !coreInService s c then stop 0x15 s
    else match escReadAt false ext (Cb.addr b) 128 s with
    | (.error e, s) => stop e.status s
    | (.ok h, s) =>
      match escReadAt false ext (Cb.at_ b 24 8) 96 s with
      | (.error e, s) => stop e.status s
      | (.ok sh, s) =>
        let rt := shapesOf sh
        let k0 := rt.headD {}
        if badHeader h = true ∨ set = [] then stop 0x15 s
        else if exceedsPlan rt (shapesOf (h.drop 16)) then stop 0x14 s
        else if k0.m = 0 ∨ k0.n = 0 then stop 0x01 s
        else startFree c.uid set (s.modDisp c.uid fun _ => newDisp r c set h rt)

/-! ## Images under seal (R375) -/

/-- The admitted image at a DISPATCH's address. -/
def imageOf (s : State) (b : W512) : Option Image :=
  s.manifest.bind fun m => m.images.find? fun i => i.addr == Cb.addr b

/-- A DISPATCH: under seal its image must be an admitted one, which Assay hashes before it first runs. (DEDUCED,
log 174.) -/
def runDispatch (ext : Ext) : CmdBody := fun r c s =>
  let deny (s : State) : State := commit ext r c 0x16 0 (2 * b2n (Cb.det c.body)) s
  if s.sealed = false ∨ s.verified.contains (Cb.addr c.body) = true then checkDispatch ext r c s
  else match imageOf s c.body with
    | none => deny s
    | some _ =>
      s.modDisp c.uid fun _ =>
        { verifying := true, ring := r, seq := c.seq, sub := c.sub, det := Cb.det c.body,
          image := BitVec.ofNat 64 (Cb.addr c.body) }

/-- DISPATCH (R174). -/
def execCmdDispatch (r : Nat) (ext : Ext) (s : State) : Host.Outcome State Fault Refusal :=
  .next (admitRow ext (ofOpcode 0x01) (runDispatch ext) r s)

/-- Firmware clears WRITE in every page that a verified image touches, under every address that maps it. -/
def protectImage (i : Image) (s : State) : State :=
  let pages := (imagePages i).filterMap (mappedTo s)
  let keep (e : W64) : W64 := if pages.contains (bits e.toNat 47 21) then e &&& ~~~2#64 else e
  { s with verified := s.verified ++ [i.addr], xlat := s.xlat.map fun e => (e.1, keep e.2) }

/-- The hash of an image ends: a match verifies it and its DISPATCH goes on; a mismatch denies the DISPATCH. -/
def imageHashed (ext : Ext) (r : Nat) (c : Cmd) (s : State) : State :=
  let stop (status : Nat) (s : State) : State := endCommand ext r c status s
  match imageOf s c.body with
  | none => stop 0x16 s
  | some i =>
    match escReadAt false ext i.addr i.bytes s with
    | (.error e, s) => stop e.status s
    | (.ok l, s) =>
      if BitVec.ofNat 256 (ofBytes (sha256 l)) = i.digest then
        checkDispatch ext r c (if s.verified.contains i.addr then s else protectImage i s)
      else stop 0x16 s

/-- IMAGE_VERIFY_DONE (R375): Assay's hash of the image of a running DISPATCH ends. -/
def execImageVerifyDone (r n : Nat) (ext : Ext) (s : State) : Host.Outcome State Fault Refusal :=
  .next <| onRunning 0x01 r n (fun c s => if (s.disp c.uid).verifying then imageHashed ext r c s else s) s

/-! ## The rest of a dispatch -/

/-- DISPATCH_CORE_START (R262): a core that a running dispatch waits for is free and begins its part. (DEDUCED,
log 175.) -/
def execDispatchCoreStart (r n c : Nat) (s : State) : Host.Outcome State Fault Refusal :=
  .next <| onRunning 0x01 r n (fun d s =>
    let x := s.disp d.uid
    let waits := x.live && x.set.contains c && !x.started.contains c && x.trap.isNone && x.fault.isNone
    if waits && coreFree s c then startCore d.uid c s else s) s

/-- Every core of a dispatch has ended its part or has been stopped (R189, R265): those that a stop kept from starting
have no part. -/
def dispEnded (s : State) (x : Disp) : Bool :=
  x.live && (x.trap.isSome || x.fault.isSome || x.set.all x.started.contains) &&
    x.started.all fun c =>
      let k := s.core c
      k.mode != .running && !(k.mode == .resetting && k.restart)

/-- DISPATCH_COMPLETE (R190): the DISPATCH commits the status that its cores have earned. -/
def execDispatchComplete (r n : Nat) (ext : Ext) (s : State) : Host.Outcome State Fault Refusal :=
  .next <| onRunning 0x01 r n (fun c s =>
    let x := s.disp c.uid
    let s := reachStop x.started s
    if dispEnded s x then
      let st := dispStatus s x
      let d := dispDetail s x st
      releaseCores c.uid (commit ext r c st d.1 d.2 s)
    else s) s

end Sys2Proof.Machine
end

