-- ==== Sys2Proof/Machine/EscRows.lean ====
section
/-! DEFINITION. Writes of the Escapement's registers as commands (R259, R261, R268, R278, R281, R282, R285). -/

namespace Sys2Proof.Machine

/-- A write of ring `r`'s register; there is no ring above 63. -/
def ringRow (rq : Requester) (r off : Nat) (v : W32) (go : State → State) (s : State) : State :=
  if r < 64 then writeGate rq off v go s else s

/-- The number a RING_CMD or RING_ABORT_CTL code is as a written value. -/
def code32 (n : Nat) : W32 := BitVec.ofNat 32 n

/-- RING_CTL_WRITE (R261). -/
def execRingCtlWrite (rq : Requester) (r : Nat) (v : W32) (ext : Ext) (s : State) : Host.Outcome State Fault Refusal :=
  .next (ringRow rq r (Reg.ringCtl r) v (ringCtlWrite ext r v) s)

/-- RING_TAIL_WRITE (R259): RING_TAIL, or DB_TAIL of the doorbell page. -/
def execRingTailWrite (rq : Requester) (r : Nat) (db : Bool) (v : W32) (s : State) : Host.Outcome State Fault Refusal :=
  .next (ringRow rq r (if db then Reg.dbTail r else Reg.ringTail r) v (ringTailWrite r v) s)

/-- TAIL_WORD_WRITE (R259): the Escapement takes what was written in the ring's tail word. (DEDUCED, log 82.) -/
def execTailWordWrite (r : Nat) (ext : Ext) (s : State) : Host.Outcome State Fault Refusal :=
  .next (if r < 64 then tailWordTake ext r s else s)

/-- RESUME (R263, R285). -/
def execResume (rq : Requester) (r : Nat) (ext : Ext) (s : State) : Host.Outcome State Fault Refusal :=
  .next (ringRow rq r (Reg.ringCmd r) 1 (ringCmdWrite ext r 1) s)

/-- PAUSE (R261). -/
def execPause (rq : Requester) (r : Nat) (ext : Ext) (s : State) : Host.Outcome State Fault Refusal :=
  .next (ringRow rq r (Reg.ringCmd r) 2 (ringCmdWrite ext r 2) s)

/-- A host abort: RING_ABORT names the command, then RING_ABORT_CTL gives the MODE (R281). -/
def abortRow (rq : Requester) (r mode : Nat) (seq : W32) (ext : Ext) (s : State) : State :=
  let s := ringRow rq r (Reg.ringAbort r) seq (storeReg (Reg.ringAbort r) seq) s
  ringRow rq r (Reg.ringAbortCtl r) (code32 mode) (ringAbortWrite ext r (code32 mode)) s

/-- ABORT_ONE (R282): MODE 0. -/
def execAbortOne (rq : Requester) (r : Nat) (seq : W32) (ext : Ext) (s : State) : Host.Outcome State Fault Refusal :=
  .next (abortRow rq r 0 seq ext s)

/-- ABORT_ONWARD (R282): MODE 1. -/
def execAbortOnward (rq : Requester) (r : Nat) (seq : W32) (ext : Ext) (s : State) : Host.Outcome State Fault Refusal :=
  .next (abortRow rq r 1 seq ext s)

/-- ABORT_ALL (R282): MODE 2. -/
def execAbortAll (rq : Requester) (r : Nat) (ext : Ext) (s : State) : Host.Outcome State Fault Refusal :=
  .next (ringRow rq r (Reg.ringAbortCtl r) 2 (ringAbortWrite ext r 2) s)

/-- RING_CQ_HEAD_WRITE (R278): RING_CQ_HEAD, or DB_CQ_HEAD of the doorbell page. -/
def execRingCqHeadWrite (rq : Requester) (r : Nat) (db : Bool) (v : W32) (ext : Ext) (s : State) :
    Host.Outcome State Fault Refusal :=
  .next (ringRow rq r (if db then Reg.dbCqHead r else Reg.ringCqHead r) v (cqHeadWrite ext r v) s)

/-- EVENT_SET (R268): a write of ESC_EVT_HI. -/
def execEventSet (rq : Requester) (v : W32) (s : State) : Host.Outcome State Fault Refusal :=
  .next (writeGate rq Reg.escEvtHi v (evtHiWrite v) s)

end Sys2Proof.Machine
end

