-- ==== Sys2Proof/Machine/RegRows.lean ====
section
/-! DEFINITION. Register accesses that have no row of their own, posted writes, and the parity sweep (R73, R230, R247 to
R254, R451). -/

namespace Sys2Proof.Machine

/-- A memory write of the companion is held. -/
def writeHeld : Held → Bool
  | .sprue q => q.opc == 0x12 || q.opc == 0x13
  | _ => false

/-- A requester reads a register; a read of the companion does not pass a memory write that it has sent before (R230). -/
def regReadBy (rq : Requester) (tag off : Nat) (ext : Ext) (s : State) : State :=
  match rq with
  | .sprue k =>
    if sprUp s = true ∧ s.held.any writeHeld = true then hold (.regRd k tag off) (regSeen rq 0x14 tag off 0 s)
    else readGate rq tag off (regRead ext off) s
  | _ => readGate rq tag off (regRead ext off) s

/-- REG_RD (R73, R230, R247): a read of a register, or of a notice queue's pop port. -/
def execRegRd (kernel : Bool) (tag off : Nat) (ext : Ext) (s : State) : Host.Outcome State Fault Refusal :=
  .next <|
    if 0x310000 ≤ off ∧ off < 0x310800 ∧ off % 32 = 0 then nqPortRead (.sprue kernel) tag ((off - 0x310000) / 32) s
    else regReadBy (.sprue kernel) tag off ext s

/-- REG_WR (R247): posted, without a response. -/
def execRegWr (kernel : Bool) (off : Nat) (v : W32) (good : Nat) (ext : Ext) (s : State) :
    Host.Outcome State Fault Refusal :=
  .next (regWrite (.sprue kernel) ext good off v s)

/-- A register has bits of type RC. -/
def isRc (off : Nat) : Bool :=
  match regAt off with
  | some d => d.rc != 0
  | none => false

/-- RC_REGISTER_READ (R249). -/
def execRcRegisterRead (rq : Requester) (off : Nat) (ext : Ext) (s : State) : Host.Outcome State Fault Refusal :=
  .next (if isRc off then regReadBy rq 0 off ext s else s)

/-- GLB_ACCESS_STATUS_READ (R254). -/
def execGlbAccessStatusRead (rq : Requester) (ext : Ext) (s : State) : Host.Outcome State Fault Refusal :=
  .next (regReadBy rq 0 Reg.glbAccessStatus ext s)

/-- REGISTER_WRITE (R251). (DESIGN CHOICE, log 155.) -/
def execRegisterWrite (rq : Requester) (off : Nat) (v : W32) (good : Nat) (ext : Ext) (s : State) :
    Host.Outcome State Fault Refusal :=
  .next (regWrite rq ext good off v s)

/-- RWP_WRITE_DONE (R252). -/
def execRwpWriteDone (off : Nat) (ext : Ext) (s : State) : Host.Outcome State Fault Refusal := .next (postedDone ext off s)

/-- An upset of a register's stored bits: those of type RW and RWP carry parity (R253). The doorbells store nothing of
their own (R257). -/
def upset (off : Nat) (flips : W32) (s : State) : State :=
  match regAt off with
  | none => s
  | some d =>
    let m : W32 := BitVec.ofNat 32 (d.rw + d.rwp)
    if m = 0 ∨ (0x280000 ≤ off ∧ off < 0x2C0000) then s
    else
      let s := s.setReg off (s.reg off ^^^ (flips &&& m))
      { s with parityBad := s.parityBad.filter (· != off) ++ [off] }

/-- PARITY_SWEEP (R253, R450, R451): `bad` are the registers upset since the last sweep with the bits that flipped;
`secure` tells that a register of class S is among the mismatches. (DEDUCED, log 148; DESIGN CHOICE, log 155.) -/
def execParitySweep (bad : List (Nat × W32)) (secure : Bool) (ext : Ext) (s : State) :
    Host.Outcome State Fault Refusal :=
  .next <|
    let s := forEach (fun p s => upset p.1 p.2 s) bad s
    if secure then deviceReset ext s
    else if s.parityBad = [] then { s with parityDirty := false }
    else forEach (parityFault ext) s.parityBad s

end Sys2Proof.Machine
end

