-- ==== Sys2Proof/Machine/Release.lean ====
section
/-! DEFINITION. The end of what makes the Crucible hold accesses: a partition change and the wipes (R52, R88, R374, R376,
R393). -/

namespace Sys2Proof.Machine

/-- One access that was held is performed. -/
def releaseOne (ext : Ext) (h : Held) (s : State) : State :=
  match h with
  | .core c => retryCore c s
  | .sprue q => performReq q s
  | .post q source sw type prio payload => (nqPost q source sw type prio payload s).1
  | .port rq tag q => nqPortPop rq tag q s
  | .tail r => tailWordTake ext r s
  | .stepWord => writeStepWord s
  | .regRd kernel tag off => readAnswer (.sprue kernel) tag off (regRead ext off) s

/-- A ring has completion entries that wait. -/
def cqWaits (s : State) (r : Nat) : Bool := !(s.ring r).waitCq.isEmpty || (s.ring r).marker

/-- Nothing holds accesses any more: those that were held are performed in order of arrival, then the completion entries
and the runner's messages that waited. (DESIGN CHOICE, log 67.) -/
def releaseHeld (ext : Ext) (s : State) : State :=
  if cruHolds s then s
  else
    let s := forEach (releaseOne ext) s.held { s with held := [] }
    let s := forEach (fun r s => if cqWaits s r then cqResume ext r s else s) (s.rings.map (·.1)) s
    forEach drainRx (s.links.map (·.1)) s

/-- PARTITION_DONE: the boundary moves and held accesses are performed. (DEDUCED, log 64.) -/
def execPartitionDone (ext : Ext) (s : State) : Host.Outcome State Fault Refusal :=
  .next <|
    match s.posted.find? (fun p => p.1 == Reg.cruPartition) with
    | none => s
    | some p =>
      let s : State := { s with posted := s.posted.filter fun p => p.1 != Reg.cruPartition }
      releaseHeld ext ((movePartition p.2 s).clearFlag Reg.cruStatus 2)

/-- CRUCIBLE_WIPE_DONE: the wipe ends and held accesses are performed against the zeroed store. -/
def execCrucibleWipeDone (ext : Ext) (s : State) : Host.Outcome State Fault Refusal :=
  .next <|
    if s.wiping = some .cru then
      let s : State := { s with wiping := none }
      releaseHeld ext (s.clearFlag Reg.cruStatus 1)
    else s

/-- SEAL_WIPE_DONE (R374, R376): seal entry installs the keys and sets SEALED; seal exit is over. -/
def execSealWipeDone (ext : Ext) (s : State) : Host.Outcome State Fault Refusal :=
  .next <|
    let ended : State := { s.clearFlag Reg.cruStatus 1 with wiping := none }
    match s.wiping with
    | some (.sealEntry m) =>
      match s.assay.op.bind (·.entering) with
      | some e => releaseHeld ext (sealInstall m e.2.2 ended)
      | none => releaseHeld ext ended
    | some .sealExit => releaseHeld ext ended
    | _ => s

end Sys2Proof.Machine
end

