-- ==== Sys2Proof/Machine/ReplayRows.lean ====
section
/-! DEFINITION. Writes of RR_CTL as commands, and the injection of a recorded log in replay (R363 to R366). -/

namespace Sys2Proof.Machine

/-! ## RR_CTL -/

/-- A write of RR_CTL with a MODE beside a WRAP. -/
def rrRow (rq : Requester) (v : W32) (s : State) : State := writeGate rq Reg.rrCtl v (rrCtlWrite v) s

/-- RR_RECORD_START (R363). -/
def execRrRecordStart (rq : Requester) (wrap : Bool) (s : State) : Host.Outcome State Fault Refusal :=
  .next (rrRow rq (if wrap then 0x11 else 0x01) s)

/-- RR_REPLAY_START (R366). -/
def execRrReplayStart (rq : Requester) (s : State) : Host.Outcome State Fault Refusal := .next (rrRow rq 2 s)

/-- RR_OFF (R366). -/
def execRrOff (rq : Requester) (s : State) : Host.Outcome State Fault Refusal := .next (rrRow rq 0 s)

/-- RR_MARK (R365): MARK is written beside the present MODE and WRAP. -/
def execRrMark (rq : Requester) (s : State) : Host.Outcome State Fault Refusal :=
  .next (rrRow rq (s.reg Reg.rrCtl ||| 0x20) s)

/-! ## Injection -/

/-- Bytes of the log region or of the side area. -/
def logBytes (s : State) (a n : Nat) : List Byte := (upFrom a n).map fun x => (peek s {} x).getD 0

/-- The number in a field of a byte list. -/
def field (l : List Byte) (off n : Nat) : Nat := ofBytes ((l.drop off).take n)

/-- A runner message from its wire form (Table 9.2). (DESIGN CHOICE, log 181.) -/
def unwire (l : List Byte) : RunMsg :=
  let ctl := field l 1 1
  let a := field l 8 8
  let hasExt := bit ctl 4
  let body := l.drop 32
  let last := bits (field l 2 2) 15 13 + 8 * bits (field l 4 2) 14 13
  { opc := field l 0 1, vc := ctl % 8, dateline := bits ctl 3 3, ackReq := bit ctl 5, dest := field l 2 2 % 2 ^ 13,
    src := field l 4 2 % 2 ^ 13, stream := field l 7 1, addr := a % 2 ^ 48, ring := bits a 53 48, hi := bits a 63 54,
    poison := BitVec.ofNat 64 (field l 16 8), seq := field l 28 4,
    ext := if hasExt then some (BitVec.ofNat 256 (field body 0 32)) else none,
    data := ((body.drop (if hasExt then 32 else 0)).take (32 * field l 6 1 - (if last = 0 then 0 else 32 - last))),
    e2eOk := crc32c (zeros l) == field l 24 4 }
where
  /-- The message with its E2E field zero. -/
  zeros (l : List Byte) : List Byte :=
    let n := 32 + (if bit (field l 1 1) 4 then 32 else 0) + 32 * field l 6 1
    (l.take 24 ++ toBytes 4 0 ++ l.drop 28).take n

/-- Bytes that a message takes on the wire, from its header. -/
def wireLen (l : List Byte) : Nat := 32 + (if bit (field l 1 1) 4 then 32 else 0) + 32 * field l 6 1

/-- The position after the present record. -/
def replayNext (s : State) : State :=
  let r := s.replay
  { s with replay := { r with next := recAfter s r.next, inGroup := 0 } }

/-- Replay stops in a state (RR_STATUS.STATE). -/
def replayStop (state : Nat) (s : State) : State := s.setFld Reg.rrStatus 3 0 state

/-- A runner message enters as if it arrived on its link; one that must wait is tried again later. -/
def injectRunner (ext : Ext) (link : Nat) (m : RunMsg) (s : State) : Option State :=
  if m.dest = ownId s ∧ mustWait s m = true then none else some (linkMessage ext false (link % 16) m s)

/-- A message of the companion enters: requests, responses and snoops. A response serves the outstanding request of its
address; without one it waits. (DESIGN CHOICE, log 151.) -/
def injectSprue (ext : Ext) (l : List Byte) (s : State) : Option State :=
  let flags := field l 1 1
  let kernel := bit flags 2
  let hasData := bit flags 3
  let hasMask := bit flags 4
  let tag := field l 2 2
  let status := field l 4 1
  let st : Coherence := match field l 5 1 with
    | 1 => .s
    | 2 => .e
    | 3 => .m
    | _ => .i
  let addr := field l 8 8
  let rest := l.drop 16
  let mask : W64 := BitVec.ofNat 64 (field rest 0 8)
  let data : W512 := BitVec.ofNat 512 (field (rest.drop (if hasMask then 16 else 0)) 0 64)
  let q : SprIn := { opc := field l 0 1, tag := tag, addr := addr, mask := mask, data := data, poison := status == 3 }
  let off := addr % 2 ^ 32
  let byAddr := (liveTags s).find? fun (e : Nat × SprReq) => e.2.addr == addr
  match q.opc with
  | 0x14 =>
    let s := regSeen (.sprue kernel) 0x14 tag off 0 s
    if 0x310000 ≤ off ∧ off < 0x310800 ∧ off % 32 = 0 then
      let r := nqPortAccess (.sprue kernel) ((off - 0x310000) / 32) s
      some (r.2.2.sprSend { opc := 0x31, tag := tag, status := r.2.1, data := some (r.1.setWidth 512) })
    else
      let r := readAccess (.sprue kernel) off (regRead ext off) s
      some (r.2.sprSend { opc := 0x32, tag := tag, addr := r.1.toNat })
  | 0x15 =>
    let v : W32 := BitVec.ofNat 32 (addr / 2 ^ 32)
    some (writeAccess (.sprue kernel) off v (regPut (.sprue kernel) ext 0 off v) (regSeen (.sprue kernel) 0x15 tag off v.toNat s))
  | 0x21 | 0x22 => some (snoopRequest .clear q s)
  | 0x31 => byAddr.map fun e => dataArrives e.1 status st .clear data s
  | 0x32 => byAddr.map fun e => ackArrives e.1 status st .clear s
  | 0x33 => some (snpRspArrives addr st (if hasData then some data else none) (status == 3) s)
  | _ => some (memRequest false kernel .clear hasMask hasData q s)

/-- The messages of a group in the side area: bodies of RUNNER records, one after another. -/
def sideBodies (s : State) : Nat → Nat → List (Nat × List Byte)
  | 0, _ => []
  | n + 1, a =>
    let l := logBytes s (a + 16) (wireLen (logBytes s (a + 16) 32))
    (field (logBytes s a 1) 0 1, l) :: sideBodies s n (a + 16 + l.length)

/-- A GROUP record: its messages are checked against the digest, then enter one by one. (DESIGN CHOICE, log 153.) -/
def injectGroup (ext : Ext) (body : List Byte) (s : State) : Option State :=
  let side := s.fld Reg.rrSideHi 15 0 * 2 ^ 32 + s.fld Reg.rrSideLo 31 5 * 32
  let l := sideBodies s (field body 2 2) (side + s.replay.side)
  if side = 0 then some (replayStop 7 s)
  else if sha256 (l.flatMap (·.2)) ≠ (body.drop 16).take 32 then some (replayStop 6 s)
  else
    match l[s.replay.inGroup]? with
    | none => some (replayNext { s with replay := { s.replay with side := s.replay.side + (l.map fun e => 16 + e.2.length).sum } })
    | some e =>
      (injectRunner ext e.1 (unwire e.2) s).map fun s =>
        { s with replay := { s.replay with inGroup := s.replay.inGroup + 1 } }

/-- The record at the present position enters; none when it cannot be applied now. -/
def injectRecord (ext : Ext) (s : State) : Option State :=
  let r := s.replay
  let units := max 1 (recField s r.next 2 2)
  let body := logBytes s (rrBase s + 32 * r.next + 16) (32 * units - 16)
  match recField s r.next 0 1 with
  | 1 => (injectSprue ext body s).map replayNext
  | 2 => (injectRunner ext (field body 0 1) (unwire (body.drop 16)) s).map replayNext
  | 3 => injectGroup ext body s
  | 4 => some (replayNext (floodArrives ext (field body 3 1) (field body 0 2) (field body 2 1) s))
  | 5 =>
    let x : Nat × W32 × W64 := (field body 12 1, BitVec.ofNat 32 (field body 8 4), BitVec.ofNat 64 (field body 0 8))
    if r.strikes.contains x then
      some (replayNext { s with replay := { r with strikes := eraseFirst (fun y => y == x) r.strikes } })
    else none
  | 6 =>
    let m : RunMsg := { opc := 0x24, dest := ownId s, src := field body 8 2, data := body.take 8 }
    some (replayNext (strikeSetArrives 16 m s))
  | _ => some (replayNext s)

/-- The device replays and the log has not ended. -/
def replayRuns (s : State) : Bool := replaying s && s.fld Reg.rrStatus 3 0 == 2

/-- RR_END has been reached; a log that has gone round the region passes its start on the way. -/
def replayEnded (s : State) : Bool :=
  let first := (s.reg Reg.rrStart).toNat
  let last := (s.reg Reg.rrEnd).toNat
  let n := s.replay.next
  n == last || (if first < last then last ≤ n else last ≤ n && n < first)

/-- REPLAY_INJECT (R366): the next record's Beat is reached and it is injected at its port; a GROUP record takes one event
for each of its messages. At RR_END the state becomes REPLAY_DONE. -/
def execReplayInject (ext : Ext) (s : State) : Host.Outcome State Fault Refusal :=
  .next <|
    if replayRuns s = false then s
    else if replayEnded s then replayStop 4 s
    else if s.beat.toNat < (recBeat s s.replay.next).toNat then s
    else (injectRecord ext s).getD s

/-- REPLAY_DIVERGED (R366): the next input has not been applied within 1 ms after its Beat. -/
def execReplayDiverged (s : State) : Host.Outcome State Fault Refusal :=
  .next <|
    if replayRuns s = true ∧ replayEnded s = false
        ∧ (recBeat s s.replay.next).toNat + 1000000 < s.beat.toNat then replayStop 5 s
    else s

end Sys2Proof.Machine
end

