-- ==== Sys2Proof/Machine/RunnerRows.lean ====
section
/-! DEFINITION. The commands and events of the runner links (R207, R290 to R311, R351, R453, R475, R496). A message row
carries the link `l` on which its message has come in, or 16 for the local path; a message of another opcode than the
row's is no event of the row. -/

namespace Sys2Proof.Machine

/-- A message with one of a row's opcodes arrives. -/
def messageRow (is : RunMsg → Bool) (ext : Ext) (l : Nat) (m : RunMsg) (s : State) : State :=
  if is m then arrive ext l m s else s

/-- The KIND of a MAINT message's data (Table 11.2). -/
def maintKind (m : RunMsg) : Nat := bytesAt m.data 0 1

/-- An event of a link that is in service. (DESIGN CHOICE, log 2.) -/
def linkRow (l : Nat) (p : State → Bool) (go : State → State) (s : State) : State :=
  if l < 16 && p s then go s else s

/-- RUNNER_FRAME_RX (R290). -/
def execRunnerFrameRx (l : Nat) (frame : RunnerFrame) (ext : Ext) (s : State) : Host.Outcome State Fault Refusal :=
  .next (linkRow l (linkUp · l) (runnerFrame ext l frame) s)

/-- RUNNER_ACK_TIMEOUT (R291): 100 µs without ACK advancing while frames are outstanding. -/
def execRunnerAckTimeout (l : Nat) (s : State) : Host.Outcome State Fault Refusal :=
  .next (linkRow l
    (fun s => linkUp s l && !(s.link l).unacked.isEmpty && 100000 ≤ (s.beat - (s.link l).lastAck).toNat)
    (linkRetrain l) s)

/-- RUNNER_RETRAIN_DONE (R291, R292, R432). -/
def execRunnerRetrainDone (l : Nat) (ok : Bool) (failed : List Nat) (ext : Ext) (s : State) :
    Host.Outcome State Fault Refusal :=
  .next (linkRow l (fun s => (s.link l).training && s.fld (Reg.runLinkStatus l) 31 30 == 1) (retrainDone ext l ok failed) s)

/-- RUNNER_PUT. -/
def execRunnerPut (l : Nat) (m : RunMsg) (ext : Ext) (s : State) : Host.Outcome State Fault Refusal :=
  .next (messageRow (fun m => m.opc == 0x01) ext l m s)
/-- PUT_FLAG. -/
def execPutFlag (l : Nat) (m : RunMsg) (ext : Ext) (s : State) : Host.Outcome State Fault Refusal :=
  .next (messageRow (fun m => m.opc == 0x02) ext l m s)
/-- SQ_DATA. -/
def execSqData (l : Nat) (m : RunMsg) (ext : Ext) (s : State) : Host.Outcome State Fault Refusal :=
  .next (messageRow (fun m => m.opc == 0x03) ext l m s)
/-- SQ_PUBLISH. -/
def execSqPublish (l : Nat) (m : RunMsg) (ext : Ext) (s : State) : Host.Outcome State Fault Refusal :=
  .next (messageRow (fun m => m.opc == 0x04) ext l m s)
/-- SQ_CREDIT. -/
def execSqCredit (l : Nat) (m : RunMsg) (ext : Ext) (s : State) : Host.Outcome State Fault Refusal :=
  .next (messageRow (fun m => m.opc == 0x05) ext l m s)
/-- WACK. -/
def execWack (l : Nat) (m : RunMsg) (ext : Ext) (s : State) : Host.Outcome State Fault Refusal :=
  .next (messageRow (fun m => m.opc == 0x06) ext l m s)
/-- RUNNER_RACC. -/
def execRunnerRacc (l : Nat) (m : RunMsg) (ext : Ext) (s : State) : Host.Outcome State Fault Refusal :=
  .next (messageRow (fun m => m.opc == 0x10) ext l m s)
/-- RACC_COMMIT. -/
def execRaccCommit (l : Nat) (m : RunMsg) (ext : Ext) (s : State) : Host.Outcome State Fault Refusal :=
  .next (messageRow (fun m => m.opc == 0x11) ext l m s)
/-- RACC_END. -/
def execRaccEnd (l : Nat) (m : RunMsg) (ext : Ext) (s : State) : Host.Outcome State Fault Refusal :=
  .next (messageRow (fun m => m.opc == 0x12) ext l m s)
/-- RACC_TAINT. -/
def execRaccTaint (l : Nat) (m : RunMsg) (ext : Ext) (s : State) : Host.Outcome State Fault Refusal :=
  .next (messageRow (fun m => m.opc == 0x13) ext l m s)
/-- RING_PART. -/
def execRingPart (l : Nat) (m : RunMsg) (ext : Ext) (s : State) : Host.Outcome State Fault Refusal :=
  .next (messageRow (fun m => m.opc == 0x14) ext l m s)
/-- MCAST. -/
def execMcast (l : Nat) (m : RunMsg) (ext : Ext) (s : State) : Host.Outcome State Fault Refusal :=
  .next (messageRow (fun m => m.opc == 0x18) ext l m s)
/-- BAR_ARRIVE. -/
def execBarArrive (l : Nat) (m : RunMsg) (ext : Ext) (s : State) : Host.Outcome State Fault Refusal :=
  .next (messageRow (fun m => m.opc == 0x20) ext l m s)
/-- BAR_RELEASE. -/
def execBarRelease (l : Nat) (m : RunMsg) (ext : Ext) (s : State) : Host.Outcome State Fault Refusal :=
  .next (messageRow (fun m => m.opc == 0x21) ext l m s)
/-- BAR_WITHDRAW. -/
def execBarWithdraw (l : Nat) (m : RunMsg) (ext : Ext) (s : State) : Host.Outcome State Fault Refusal :=
  .next (messageRow (fun m => m.opc == 0x22) ext l m s)
/-- VETO. -/
def execVeto (l : Nat) (m : RunMsg) (ext : Ext) (s : State) : Host.Outcome State Fault Refusal :=
  .next (messageRow (fun m => m.opc == 0x23) ext l m s)
/-- STRIKE_SET. -/
def execStrikeSet (l : Nat) (m : RunMsg) (ext : Ext) (s : State) : Host.Outcome State Fault Refusal :=
  .next (messageRow (fun m => m.opc == 0x24) ext l m s)
/-- CKPT. -/
def execCkpt (l : Nat) (m : RunMsg) (ext : Ext) (s : State) : Host.Outcome State Fault Refusal :=
  .next (messageRow (fun m => m.opc == 0x30) ext l m s)
/-- SYNC_REQ. -/
def execSyncReq (l : Nat) (m : RunMsg) (ext : Ext) (s : State) : Host.Outcome State Fault Refusal :=
  .next (messageRow (fun m => m.opc == 0x38 && maintKind m == 1) ext l m s)
/-- SYNC_RSP. -/
def execSyncRsp (l : Nat) (m : RunMsg) (ext : Ext) (s : State) : Host.Outcome State Fault Refusal :=
  .next (messageRow (fun m => m.opc == 0x38 && maintKind m == 2) ext l m s)
/-- MAINT: other firmware and management traffic, which changes nothing the spec describes. -/
def execMaint (l : Nat) (m : RunMsg) (ext : Ext) (s : State) : Host.Outcome State Fault Refusal :=
  .next (messageRow (fun m => m.opc == 0x38 && maintKind m != 1 && maintKind m != 2) ext l m s)
/-- NAK. -/
def execNak (l : Nat) (m : RunMsg) (ext : Ext) (s : State) : Host.Outcome State Fault Refusal :=
  .next (messageRow (fun m => m.opc == 0x3E) ext l m s)

/-- FLOOD (R299): a frame header on a link carries a VALID flood value. -/
def execFlood (l job serial : Nat) (ext : Ext) (s : State) : Host.Outcome State Fault Refusal :=
  .next (linkRow l (linkUp · l)
    (fun s => floodArrives ext (s.fld (Reg.runPortmap l) 19 16) (job % 2 ^ 16) (serial % 256) s) s)

/-- FLOOD_RELAY_END (R299). -/
def execFloodRelayEnd (s : State) : Host.Outcome State Fault Refusal :=
  .next <|
    match s.floodOut with
    | some (_, _, b) => if 2000 ≤ (s.beat - b).toNat then { s with floodOut := none } else s
    | none => s

/-- REDUCTION_DEADLINE (R310). -/
def execReductionDeadline (red : Nat) (s : State) : Host.Outcome State Fault Refusal :=
  .next <|
    let r := s.recOf red
    if r.state = .opened ∧ r.det = false ∧ r.deadline ≠ 0 ∧ deadlinePassed s r.deadline = true then closeRec red s else s

/-- REDUCTION_CLOSE_DONE (R311, R312, R314). -/
def execReductionCloseDone (red : Nat) (ext : Ext) (s : State) : Host.Outcome State Fault Refusal :=
  .next (finishClose ext red s)

/-- QUIET_END (R453). -/
def execQuietEnd (s : State) : Host.Outcome State Fault Refusal :=
  .next <|
    if s.flag Reg.rsrStatus 6 = true ∧ 1000 * s.fld Reg.rsrCtl 31 16 ≤ (s.beat - s.quietSince).toNat then
      s.clearFlag Reg.rsrStatus 6
    else s

/-- A write of a link's RUN_LINK_CTL with some bits set: the bus posts it (R252). -/
def linkCtlRow (rq : Requester) (l : Nat) (f : W32 → W32) (s : State) : State :=
  if l < 16 then
    let v := f (s.reg (Reg.runLinkCtl l))
    writeGate rq (Reg.runLinkCtl l) v (postWrite (Reg.runLinkCtl l) v) s
  else s

/-- LINK_ENABLE (R475). -/
def execLinkEnable (rq : Requester) (l : Nat) (on : Bool) (s : State) : Host.Outcome State Fault Refusal :=
  .next (linkCtlRow rq l (fun v => if on then v ||| 1#32 else v &&& ~~~1#32) s)
/-- LINK_RETRAIN (R291). -/
def execLinkRetrain (rq : Requester) (l : Nat) (s : State) : Host.Outcome State Fault Refusal :=
  .next (linkCtlRow rq l (fun v => v ||| 2#32) s)
/-- LINK_LOOPBACK (R302). -/
def execLinkLoopback (rq : Requester) (l : Nat) (on : Bool) (s : State) : Host.Outcome State Fault Refusal :=
  .next (linkCtlRow rq l (fun v => if on then v ||| 4#32 else v &&& ~~~4#32) s)

/-- LINK_TRAIN_DONE (R302, R412): the peer's id and port, the lanes that passed, and its first credits. -/
def execLinkTrainDone (l : Nat) (ok : Bool) (peerId peerPort lanes : Nat) (credits : List Nat) (s : State) :
    Host.Outcome State Fault Refusal :=
  .next (linkRow l
    (fun s => s.fld (Reg.runLinkStatus l) 31 30 == 1 && !(s.link l).training && s.flag (Reg.runLinkCtl l) 0)
    (trainDone l ok peerId peerPort lanes credits) s)

/-- RUN_JOB_SET_WRITE (R496). -/
def execRunJobSetWrite (rq : Requester) (v : W32) (s : State) : Host.Outcome State Fault Refusal :=
  .next (writeGate rq Reg.runJobSet v (jobSetWrite v) s)

end Sys2Proof.Machine
end

