-- ==== Sys2Proof/Machine/Dispatch.lean ====
section
/-! DEFINITION. The one dispatch of a command to its meaning, one arm per constructor. -/

namespace Sys2Proof.Machine

/-- The effect of one command on everything but the queue. (DESIGN CHOICE, log 9.) -/
def exec (i : Instr) (s : State) : Host.Outcome State Fault Refusal :=
  match i with
  | .nop c w => Sys2Proof.Machine.execNop c w s
  | .intAlu c w => Sys2Proof.Machine.execIntAlu c w s
  | .intAluImm c w => Sys2Proof.Machine.execIntAluImm c w s
  | .li c w => Sys2Proof.Machine.execLi c w s
  | .lui c w => Sys2Proof.Machine.execLui c w s
  | .lid c w e => Sys2Proof.Machine.execLid c w e s
  | .pcmp c w => Sys2Proof.Machine.execPcmp c w s
  | .predicateLogic c w => Sys2Proof.Machine.execPredicateLogic c w s
  | .pget c w => Sys2Proof.Machine.execPget c w s
  | .pset c w => Sys2Proof.Machine.execPset c w s
  | .sel c w => Sys2Proof.Machine.execSel c w s
  | .scalarFloatOp c w => Sys2Proof.Machine.execScalarFloatOp c w s
  | .fcvtFX c w => Sys2Proof.Machine.execFcvtFX c w s
  | .fcvtXF c w => Sys2Proof.Machine.execFcvtXF c w s
  | .fmvXF c w => Sys2Proof.Machine.execFmvXF c w s
  | .fmvFX c w => Sys2Proof.Machine.execFmvFX c w s
  | .fcmp c w => Sys2Proof.Machine.execFcmp c w s
  | .fli c w => Sys2Proof.Machine.execFli c w s
  | .br c w => Sys2Proof.Machine.execBr c w s
  | .bp c w => Sys2Proof.Machine.execBp c w s
  | .bpn c w => Sys2Proof.Machine.execBpn c w s
  | .jmp c w => Sys2Proof.Machine.execJmp c w s
  | .callInst c w => Sys2Proof.Machine.execCallInst c w s
  | .jr c w => Sys2Proof.Machine.execJr c w s
  | .kernelEnd c w => Sys2Proof.Machine.execKernelEnd c w s
  | .tend c w => Sys2Proof.Machine.execTend c w s
  | .ld c w => Sys2Proof.Machine.execLd c w s
  | .st c w => Sys2Proof.Machine.execSt c w s
  | .vld c w => Sys2Proof.Machine.execVld c w s
  | .vst c w => Sys2Proof.Machine.execVst c w s
  | .dld c w => Sys2Proof.Machine.execDld c w s
  | .dst c w => Sys2Proof.Machine.execDst c w s
  | .dset c w => Sys2Proof.Machine.execDset c w s
  | .dget c w => Sys2Proof.Machine.execDget c w s
  | .dma c w => Sys2Proof.Machine.execDma c w s
  | .put c w => Sys2Proof.Machine.execPut c w s
  | .dwait c w => Sys2Proof.Machine.execDwait c w s
  | .fenceL c w => Sys2Proof.Machine.execFenceL c w s
  | .fenceA c w => Sys2Proof.Machine.execFenceA c w s
  | .fenceR c w => Sys2Proof.Machine.execFenceR c w s
  | .mm c w => Sys2Proof.Machine.execMm c w s
  | .pload c w => Sys2Proof.Machine.execPload c w s
  | .tepi c w => Sys2Proof.Machine.execTepi c w s
  | .vtget c w => Sys2Proof.Machine.execVtget c w s
  | .vtput c w => Sys2Proof.Machine.execVtput c w s
  | .attn c w e => Sys2Proof.Machine.execAttn c w e s
  | .vectorArith c w => Sys2Proof.Machine.execVectorArith c w s
  | .vectorDivSqrt c w => Sys2Proof.Machine.execVectorDivSqrt c w s
  | .vectorFunction c w => Sys2Proof.Machine.execVectorFunction c w s
  | .vectorBitwise c w => Sys2Proof.Machine.execVectorBitwise c w s
  | .vmov c w => Sys2Proof.Machine.execVmov c w s
  | .vcmp c w => Sys2Proof.Machine.execVcmp c w s
  | .vsel c w => Sys2Proof.Machine.execVsel c w s
  | .vbcast c w => Sys2Proof.Machine.execVbcast c w s
  | .vlane c w => Sys2Proof.Machine.execVlane c w s
  | .vred c w => Sys2Proof.Machine.execVred c w s
  | .vredIsum c w => Sys2Proof.Machine.execVredIsum c w s
  | .vcvt c w => Sys2Proof.Machine.execVcvt c w s
  | .vquant c w => Sys2Proof.Machine.execVquant c w s
  | .vdeq c w => Sys2Proof.Machine.execVdeq c w s
  | .srseed c w => Sys2Proof.Machine.execSrseed c w s
  | .erec c w => Sys2Proof.Machine.execErec c w s
  | .ewait c w => Sys2Proof.Machine.execEwait c w s
  | .ewaitWake c => Sys2Proof.Machine.execEwaitWake c s
  | .mwait c w => Sys2Proof.Machine.execMwait c w s
  | .mwaitWake c => Sys2Proof.Machine.execMwaitWake c s
  | .npost c w => Sys2Proof.Machine.execNpost c w s
  | .npop c w => Sys2Proof.Machine.execNpop c w s
  | .tstamp c w => Sys2Proof.Machine.execTstamp c w s
  | .tstampT c w => Sys2Proof.Machine.execTstampT c w s
  | .cntr c w => Sys2Proof.Machine.execCntr c w s
  | .take c w => Sys2Proof.Machine.execTake c w s
  | .amoAdd c w => Sys2Proof.Machine.execAmoAdd c w s
  | .amoFadd c w => Sys2Proof.Machine.execAmoFadd c w s
  | .amoCas c w => Sys2Proof.Machine.execAmoCas c w s
  | .racc c w => Sys2Proof.Machine.execRacc c w s
  | .sqres c w => Sys2Proof.Machine.execSqres c w s
  | .sqresWake c => Sys2Proof.Machine.execSqresWake c s
  | .sqpub c w => Sys2Proof.Machine.execSqpub c w s
  | .sqpop c w => Sys2Proof.Machine.execSqpop c w s
  | .sqpopWake c => Sys2Proof.Machine.execSqpopWake c s
  | .sqrel c w => Sys2Proof.Machine.execSqrel c w s
  | .kset c w => Sys2Proof.Machine.execKset c w s
  | .kget c w => Sys2Proof.Machine.execKget c w s
  | .trapen c w => Sys2Proof.Machine.execTrapen c w s
  | .flags c w => Sys2Proof.Machine.execFlags c w s
  | .dmaDone c ext => Sys2Proof.Machine.execDmaDone c ext s
  | .mxeDone c => Sys2Proof.Machine.execMxeDone c s
  | .vectorDone c => Sys2Proof.Machine.execVectorDone c s
  | .coreFault c storage rowsOk => Sys2Proof.Machine.execCoreFault c storage rowsOk s
  | .coreHang c => Sys2Proof.Machine.execCoreHang c s
  | .perCoreResetDone c => Sys2Proof.Machine.execPerCoreResetDone c s
  | .partitionChange rq v => Sys2Proof.Machine.execPartitionChange rq v s
  | .partitionDone ext => Sys2Proof.Machine.execPartitionDone ext s
  | .flush rq => Sys2Proof.Machine.execFlush rq s
  | .inval rq => Sys2Proof.Machine.execInval rq s
  | .flushDone => Sys2Proof.Machine.execFlushDone s
  | .cruWipe rq => Sys2Proof.Machine.execCruWipe rq s
  | .crucibleWipeDone ext => Sys2Proof.Machine.execCrucibleWipeDone ext s
  | .wcStateWrite rq n reg v => Sys2Proof.Machine.execWcStateWrite rq n reg v s
  | .wcCtlWrite rq n v => Sys2Proof.Machine.execWcCtlWrite rq n v s
  | .nqCtlWrite rq n v => Sys2Proof.Machine.execNqCtlWrite rq n v s
  | .nqFlush rq n popping => Sys2Proof.Machine.execNqFlush rq n popping s
  | .nqBaseWrite rq n hi v => Sys2Proof.Machine.execNqBaseWrite rq n hi v s
  | .noticePost n source sw entry => Sys2Proof.Machine.execNoticePost n source sw entry s
  | .nqPortRead rq n => Sys2Proof.Machine.execNqPortRead rq n s
  | .nqStaleTimeout n => Sys2Proof.Machine.execNqStaleTimeout n s
  | .sqCtlWrite rq n v => Sys2Proof.Machine.execSqCtlWrite rq n v s
  | .cacheFill line bad => Sys2Proof.Machine.execCacheFill line bad s
  | .scrub unit addr bad => Sys2Proof.Machine.execScrub unit addr bad s
  | .sprueFrameRx frame => Sys2Proof.Machine.execSprueFrameRx frame s
  | .sprueAckTimeout => Sys2Proof.Machine.execSprueAckTimeout s
  | .sprueRetrainDone width failed ext => Sys2Proof.Machine.execSprueRetrainDone width failed ext s
  | .memRd kernel tag addr mark => Sys2Proof.Machine.execMemRd kernel tag addr mark s
  | .memWr kernel tag addr mark data poison => Sys2Proof.Machine.execMemWr kernel tag addr mark data poison s
  | .memWrPartial kernel tag addr mark mask data poison => Sys2Proof.Machine.execMemWrPartial kernel tag addr mark mask data poison s
  | .regRd kernel tag off ext => Sys2Proof.Machine.execRegRd kernel tag off ext s
  | .regWr kernel off v good ext => Sys2Proof.Machine.execRegWr kernel off v good ext s
  | .apRdShared kernel tag addr => Sys2Proof.Machine.execApRdShared kernel tag addr s
  | .apRdOwn kernel tag addr => Sys2Proof.Machine.execApRdOwn kernel tag addr s
  | .apWbDirty kernel tag addr data poison => Sys2Proof.Machine.execApWbDirty kernel tag addr data poison s
  | .apEvict kernel tag addr => Sys2Proof.Machine.execApEvict kernel tag addr s
  | .snpInv tag addr mark => Sys2Proof.Machine.execSnpInv tag addr mark s
  | .snpShare tag addr mark => Sys2Proof.Machine.execSnpShare tag addr mark s
  | .rspData tag status st mark data => Sys2Proof.Machine.execRspData tag status st mark data s
  | .rspAck tag status st mark => Sys2Proof.Machine.execRspAck tag status st mark s
  | .snpRsp addr st data poison => Sys2Proof.Machine.execSnpRsp addr st data poison s
  | .sprueReqTimeout tag => Sys2Proof.Machine.execSprueReqTimeout tag s
  | .sprueSnpTimeout addr => Sys2Proof.Machine.execSprueSnpTimeout addr s
  | .sprIntEoi rq v => Sys2Proof.Machine.execSprIntEoi rq v s
  | .sprIntMaskWrite rq n v => Sys2Proof.Machine.execSprIntMaskWrite rq n v s
  | .sprApCtlWrite rq v => Sys2Proof.Machine.execSprApCtlWrite rq v s
  | .xlatMap rq v => Sys2Proof.Machine.execXlatMap rq v s
  | .unmap rq v => Sys2Proof.Machine.execUnmap rq v s
  | .protect rq v => Sys2Proof.Machine.execProtect rq v s
  | .invalidateAll rq v => Sys2Proof.Machine.execInvalidateAll rq v s
  | .xlatDone => Sys2Proof.Machine.execXlatDone s
  | .mbxSel rq v => Sys2Proof.Machine.execMbxSel rq v s
  | .mbxSampleDone => Sys2Proof.Machine.execMbxSampleDone s
  | .mbxData3Read rq => Sys2Proof.Machine.execMbxData3Read rq s
  | .rcRegisterRead rq off ext => Sys2Proof.Machine.execRcRegisterRead rq off ext s
  | .glbAccessStatusRead rq ext => Sys2Proof.Machine.execGlbAccessStatusRead rq ext s
  | .registerWrite rq off v good ext => Sys2Proof.Machine.execRegisterWrite rq off v good ext s
  | .rwpWriteDone off ext => Sys2Proof.Machine.execRwpWriteDone off ext s
  | .paritySweep bad secure ext => Sys2Proof.Machine.execParitySweep bad secure ext s
  | .ringCtlWrite rq r v ext => Sys2Proof.Machine.execRingCtlWrite rq r v ext s
  | .ringTailWrite rq r db v => Sys2Proof.Machine.execRingTailWrite rq r db v s
  | .tailWordWrite r ext => Sys2Proof.Machine.execTailWordWrite r ext s
  | .resume rq r ext => Sys2Proof.Machine.execResume rq r ext s
  | .pause rq r ext => Sys2Proof.Machine.execPause rq r ext s
  | .abortOne rq r seq ext => Sys2Proof.Machine.execAbortOne rq r seq ext s
  | .abortOnward rq r seq ext => Sys2Proof.Machine.execAbortOnward rq r seq ext s
  | .abortAll rq r ext => Sys2Proof.Machine.execAbortAll rq r ext s
  | .ringCqHeadWrite rq r db v ext => Sys2Proof.Machine.execRingCqHeadWrite rq r db v ext s
  | .eventSet rq v => Sys2Proof.Machine.execEventSet rq v s
  | .cmdNop r ext => Sys2Proof.Machine.execCmdNop r ext s
  | .cmdDispatch r ext => Sys2Proof.Machine.execCmdDispatch r ext s
  | .dispatchCoreStart r n c => Sys2Proof.Machine.execDispatchCoreStart r n c s
  | .dispatchComplete r n ext => Sys2Proof.Machine.execDispatchComplete r n ext s
  | .copy r ext => Sys2Proof.Machine.execCopy r ext s
  | .copyPieceDone r n k ext => Sys2Proof.Machine.execCopyPieceDone r n k ext s
  | .recordMax r ext => Sys2Proof.Machine.execRecordMax r ext s
  | .recordAdd r ext => Sys2Proof.Machine.execRecordAdd r ext s
  | .wait r ext => Sys2Proof.Machine.execWait r ext s
  | .waitWake r n ext => Sys2Proof.Machine.execWaitWake r n ext s
  | .barrierLocal r ext => Sys2Proof.Machine.execBarrierLocal r ext s
  | .barrierFabric r ext => Sys2Proof.Machine.execBarrierFabric r ext s
  | .strike r ext => Sys2Proof.Machine.execStrike r ext s
  | .strikeFire r n ext => Sys2Proof.Machine.execStrikeFire r n ext s
  | .cmdIf r ext => Sys2Proof.Machine.execCmdIf r ext s
  | .cmdElse r ext => Sys2Proof.Machine.execCmdElse r ext s
  | .cmdEnd r ext => Sys2Proof.Machine.execCmdEnd r ext s
  | .loopCount r ext => Sys2Proof.Machine.execLoopCount r ext s
  | .loopCondition r ext => Sys2Proof.Machine.execLoopCondition r ext s
  | .cmdCall r ext => Sys2Proof.Machine.execCmdCall r ext s
  | .cmdReturn r ext => Sys2Proof.Machine.execCmdReturn r ext s
  | .timestamp r ext => Sys2Proof.Machine.execTimestamp r ext s
  | .notice r ext => Sys2Proof.Machine.execNotice r ext s
  | .write r good ext => Sys2Proof.Machine.execWrite r good ext s
  | .commandTimeout r n ext => Sys2Proof.Machine.execCommandTimeout r n ext s
  | .mutualWait ext => Sys2Proof.Machine.execMutualWait ext s
  | .chainStart rq v => Sys2Proof.Machine.execChainStart rq v s
  | .chainCopy ext => Sys2Proof.Machine.execChainCopy ext s
  | .chainFill ext => Sys2Proof.Machine.execChainFill ext s
  | .chainWrite good ext => Sys2Proof.Machine.execChainWrite good ext s
  | .chainPoll ext => Sys2Proof.Machine.execChainPoll ext s
  | .chainPollMatch ext => Sys2Proof.Machine.execChainPollMatch ext s
  | .chainWipe ext => Sys2Proof.Machine.execChainWipe ext s
  | .chainNotice ext => Sys2Proof.Machine.execChainNotice ext s
  | .chainDescriptorDone ext => Sys2Proof.Machine.execChainDescriptorDone ext s
  | .chainTimeout ext => Sys2Proof.Machine.execChainTimeout ext s
  | .reduceOpen r ext => Sys2Proof.Machine.execReduceOpen r ext s
  | .reduceSend r ext => Sys2Proof.Machine.execReduceSend r ext s
  | .ringReduceScatter r ext => Sys2Proof.Machine.execRingReduceScatter r ext s
  | .ringAllReduce r ext => Sys2Proof.Machine.execRingAllReduce r ext s
  | .allGather r ext => Sys2Proof.Machine.execAllGather r ext s
  | .multicast r ext => Sys2Proof.Machine.execMulticast r ext s
  | .paramCommit r ext => Sys2Proof.Machine.execParamCommit r ext s
  | .checkpoint r ext => Sys2Proof.Machine.execCheckpoint r ext s
  | .runnerFrameRx l frame ext => Sys2Proof.Machine.execRunnerFrameRx l frame ext s
  | .runnerAckTimeout l => Sys2Proof.Machine.execRunnerAckTimeout l s
  | .runnerRetrainDone l ok failed ext => Sys2Proof.Machine.execRunnerRetrainDone l ok failed ext s
  | .runnerPut l m ext => Sys2Proof.Machine.execRunnerPut l m ext s
  | .putFlag l m ext => Sys2Proof.Machine.execPutFlag l m ext s
  | .sqData l m ext => Sys2Proof.Machine.execSqData l m ext s
  | .sqPublish l m ext => Sys2Proof.Machine.execSqPublish l m ext s
  | .sqCredit l m ext => Sys2Proof.Machine.execSqCredit l m ext s
  | .wack l m ext => Sys2Proof.Machine.execWack l m ext s
  | .runnerRacc l m ext => Sys2Proof.Machine.execRunnerRacc l m ext s
  | .raccCommit l m ext => Sys2Proof.Machine.execRaccCommit l m ext s
  | .raccEnd l m ext => Sys2Proof.Machine.execRaccEnd l m ext s
  | .raccTaint l m ext => Sys2Proof.Machine.execRaccTaint l m ext s
  | .ringPart l m ext => Sys2Proof.Machine.execRingPart l m ext s
  | .mcast l m ext => Sys2Proof.Machine.execMcast l m ext s
  | .barArrive l m ext => Sys2Proof.Machine.execBarArrive l m ext s
  | .barRelease l m ext => Sys2Proof.Machine.execBarRelease l m ext s
  | .barWithdraw l m ext => Sys2Proof.Machine.execBarWithdraw l m ext s
  | .veto l m ext => Sys2Proof.Machine.execVeto l m ext s
  | .strikeSet l m ext => Sys2Proof.Machine.execStrikeSet l m ext s
  | .ckpt l m ext => Sys2Proof.Machine.execCkpt l m ext s
  | .syncReq l m ext => Sys2Proof.Machine.execSyncReq l m ext s
  | .syncRsp l m ext => Sys2Proof.Machine.execSyncRsp l m ext s
  | .maint l m ext => Sys2Proof.Machine.execMaint l m ext s
  | .nak l m ext => Sys2Proof.Machine.execNak l m ext s
  | .flood l job serial ext => Sys2Proof.Machine.execFlood l job serial ext s
  | .floodRelayEnd => Sys2Proof.Machine.execFloodRelayEnd s
  | .reductionDeadline red => Sys2Proof.Machine.execReductionDeadline red s
  | .reductionCloseDone red ext => Sys2Proof.Machine.execReductionCloseDone red ext s
  | .quietEnd => Sys2Proof.Machine.execQuietEnd s
  | .linkEnable rq l on => Sys2Proof.Machine.execLinkEnable rq l on s
  | .linkRetrain rq l => Sys2Proof.Machine.execLinkRetrain rq l s
  | .linkLoopback rq l on => Sys2Proof.Machine.execLinkLoopback rq l on s
  | .linkTrainDone l ok peerId peerPort lanes credits => Sys2Proof.Machine.execLinkTrainDone l ok peerId peerPort lanes credits s
  | .runJobSetWrite rq v => Sys2Proof.Machine.execRunJobSetWrite rq v s
  | .gateWireFail die wire ext => Sys2Proof.Machine.execGateWireFail die wire ext s
  | .softwareVeto rq ext => Sys2Proof.Machine.execSoftwareVeto rq ext s
  | .stepGateArrive ext => Sys2Proof.Machine.execStepGateArrive ext s
  | .stepEnd rq ext => Sys2Proof.Machine.execStepEnd rq ext s
  | .beatBroadcast drift => Sys2Proof.Machine.execBeatBroadcast drift s
  | .beatReloadDone die => Sys2Proof.Machine.execBeatReloadDone die s
  | .reloadFail die ext => Sys2Proof.Machine.execReloadFail die ext s
  | .syncInterval => Sys2Proof.Machine.execSyncInterval s
  | .strikeSetSend rq v => Sys2Proof.Machine.execStrikeSetSend rq v s
  | .latchArm rq v => Sys2Proof.Machine.execLatchArm rq v s
  | .latchFire => Sys2Proof.Machine.execLatchFire s
  | .traceSample n => Sys2Proof.Machine.execTraceSample n s
  | .traceRecordAccept n die => Sys2Proof.Machine.execTraceRecordAccept n die s
  | .groupCloseTimeout l v => Sys2Proof.Machine.execGroupCloseTimeout l v s
  | .rrRecordStart rq wrap => Sys2Proof.Machine.execRrRecordStart rq wrap s
  | .rrReplayStart rq => Sys2Proof.Machine.execRrReplayStart rq s
  | .rrOff rq => Sys2Proof.Machine.execRrOff rq s
  | .rrMark rq => Sys2Proof.Machine.execRrMark rq s
  | .replayInject ext => Sys2Proof.Machine.execReplayInject ext s
  | .replayDiverged => Sys2Proof.Machine.execReplayDiverged s
  | .imageVerifyDone r n ext => Sys2Proof.Machine.execImageVerifyDone r n ext s
  | .sealWipeDone ext => Sys2Proof.Machine.execSealWipeDone ext s
  | .fullWipeDone => Sys2Proof.Machine.execFullWipeDone s
  | .idcode => Sys2Proof.Machine.execIdcode s
  | .bypass => Sys2Proof.Machine.execBypass s
  | .sample => Sys2Proof.Machine.execSample s
  | .extest => Sys2Proof.Machine.execExtest s
  | .dbgAccess op ext => Sys2Proof.Machine.execDbgAccess op ext s
  | .dbgChallenge rq => Sys2Proof.Machine.execDbgChallenge rq s
  | .dbgUnlock rq input => Sys2Proof.Machine.execDbgUnlock rq input s
  | .challenge rq => Sys2Proof.Machine.execChallenge rq s
  | .hallmark rq => Sys2Proof.Machine.execHallmark rq s
  | .provision rq good ext => Sys2Proof.Machine.execProvision rq good ext s
  | .enroll rq good ext => Sys2Proof.Machine.execEnroll rq good ext s
  | .transfer rq good ext => Sys2Proof.Machine.execTransfer rq good ext s
  | .release rq good ext => Sys2Proof.Machine.execRelease rq good ext s
  | .retire rq good ext => Sys2Proof.Machine.execRetire rq good ext s
  | .advanceSvn rq good ext => Sys2Proof.Machine.execAdvanceSvn rq good ext s
  | .policy rq => Sys2Proof.Machine.execPolicy rq s
  | .sealOffer rq => Sys2Proof.Machine.execSealOffer rq s
  | .sealEnter rq ext => Sys2Proof.Machine.execSealEnter rq ext s
  | .sealExit rq ext => Sys2Proof.Machine.execSealExit rq ext s
  | .complete rq ext => Sys2Proof.Machine.execComplete rq ext s
  | .assayDone => Sys2Proof.Machine.execAssayDone s
  | .lcPendingTimeout ext => Sys2Proof.Machine.execLcPendingTimeout ext s
  | .entropy => Sys2Proof.Machine.execEntropy s
  | .manufactureProgram serial rootKey debugDigest good => Sys2Proof.Machine.execManufactureProgram serial rootKey debugDigest good s
  | .regulatorSample watts dies => Sys2Proof.Machine.execRegulatorSample watts dies s
  | .regulatorDecide supplies power temp finds ext => Sys2Proof.Machine.execRegulatorDecide supplies power temp finds ext s
  | .thermalTrip die junction ext => Sys2Proof.Machine.execThermalTrip die junction ext s
  | .idleGate die => Sys2Proof.Machine.execIdleGate die s
  | .bankSpareDone slice => Sys2Proof.Machine.execBankSpareDone slice s
  | .retireRequestTimeout page => Sys2Proof.Machine.execRetireRequestTimeout page s
  | .windowGrant rq v => Sys2Proof.Machine.execWindowGrant rq v s
  | .windowBegin => Sys2Proof.Machine.execWindowBegin s
  | .repairDone ok rows cols ext => Sys2Proof.Machine.execRepairDone ok rows cols ext s
  | .windowExpire => Sys2Proof.Machine.execWindowExpire s
  | .windowEndRequest rq id => Sys2Proof.Machine.execWindowEndRequest rq id s
  | .recordRetry ext => Sys2Proof.Machine.execRecordRetry ext s
  | .computeReset rq ext => Sys2Proof.Machine.execComputeReset rq ext s
  | .computeResetDone => Sys2Proof.Machine.execComputeResetDone s
  | .deviceReset rq ext => Sys2Proof.Machine.execDeviceReset rq ext s
  | .floodStart rq ext => Sys2Proof.Machine.execFloodStart rq ext s
  | .resetNRelease good => Sys2Proof.Machine.execResetNRelease good s
  | .ctrlSelect aOk bOk => Sys2Proof.Machine.execCtrlSelect aOk bOk s
  | .dieInit excluded badDie badGate => Sys2Proof.Machine.execDieInit excluded badDie badGate s
  | .hbmInit badStack => Sys2Proof.Machine.execHbmInit badStack s
  | .bootGo => Sys2Proof.Machine.execBootGo s
  | .fwVerify => Sys2Proof.Machine.execFwVerify s
  | .fwTimeout => Sys2Proof.Machine.execFwTimeout s
  | .fwStart => Sys2Proof.Machine.execFwStart s
  | .record => Sys2Proof.Machine.execRecord s
  | .memTest rows pages banks badSlice => Sys2Proof.Machine.execMemTest rows pages banks badSlice s
  | .coreTest failed cells => Sys2Proof.Machine.execCoreTest failed cells s
  | .characterise noMargin dies => Sys2Proof.Machine.execCharacterise noMargin dies s
  | .links => Sys2Proof.Machine.execLinks s
  | .sprueLock => Sys2Proof.Machine.execSprueLock s
  | .sprueAlign => Sys2Proof.Machine.execSprueAlign s
  | .sprueMap failed => Sys2Proof.Machine.execSprueMap failed s
  | .sprueUp credits => Sys2Proof.Machine.execSprueUp credits s
  | .sprueTrainTimeout lanes => Sys2Proof.Machine.execSprueTrainTimeout lanes s
  | .resetNLow ext => Sys2Proof.Machine.execResetNLow ext s
  | .railFault => Sys2Proof.Machine.execRailFault s
  | .refclkLoss => Sys2Proof.Machine.execRefclkLoss s
  | .thermtrip => Sys2Proof.Machine.execThermtrip s
  | .bmiRead off => Sys2Proof.Machine.execBmiRead off s
  | .collectiveSendAccepted r n ext => Sys2Proof.Machine.execCollectiveSendAccepted r n ext s
  | .railsInRange => Sys2Proof.Machine.execRailsInRange s
  | .diePowerRestored die => Sys2Proof.Machine.execDiePowerRestored die s

end Sys2Proof.Machine
end

