-- ==== Sys2Proof/Machine/Tick.lean ====
section
/-! DEFINITION. One Beat without a command: what the Beat alone changes (R276, R338, R341, R387, R438). -/

namespace Sys2Proof.Machine

/-- Some ring runs a command that a test accepts. -/
def anyRunning (s : State) (p : Cmd → Bool) : Bool := s.rings.any fun e => e.2.running.any p

/-- The counter that an idle core's Beat is charged to (R338, Table 10.7, Table 11.4): a running core is busy unless it
waits in one of the first three rows, a core that the Crucible holds being stalled on memory; for any other core the first
of the later rows that applies. (DEDUCED, log 175.) -/
def coreCause (s : State) (c : Nat) : Nat :=
  let k := s.core c
  let bar (local_ : Bool) (d : Cmd) : Bool := Cb.opcode d.body == 0x06 && (Cb.scope d.body == 0) == local_
  if k.mode == .running then
    match k.hold with
    | none => 0x010
    | some h =>
      if s.held.contains (.core c) then 0x010
      else match bits h.w.toNat 62 56 with
      | 0x73 => 0x011
      | 0x71 => 0x012
      | 0x61 | 0x62 => 0x013
      | _ => 0x010
  else if windowHolds s c then 0x014
  else if k.mode == .resetting || s.flag Reg.rsrStatus 8 || s.assay.lcHold then 0x015
  else if s.disps.any fun e => !e.2.set.contains c then 0x016
  else if anyRunning s fun d => Cb.opcode d.body == 0x03 || bar false d then 0x017
  else if anyRunning s fun d => Cb.opcode d.body == 0x07 then 0x018
  else if anyRunning s fun d => Cb.opcode d.body == 0x05 || bar true d then 0x019
  else 0x01A

/-- Every core in service is charged for a Beat. -/
def chargeCores (s : State) : State :=
  forEach (fun c s => s.count (coreCause s c) 1) ((upFrom 0 256).filter (coreInService s)) s

/-- A core that waits for a granule stalls for its die's steps of this Beat (Table 11.4). (DEDUCED, log 21.) -/
def stallCores (s : State) : State :=
  forEach (fun e s =>
    match e.2.hold with
    | some h =>
      if h.granule then
        s.modCore e.1 fun k => { k with stalled := k.stalled + (Tab.get {} s.rgl.tele (e.1 / 8)).rate }
      else s
    | none => s) s.cores s

/-- A link has traffic that only credits keep from going (Table 11.4). -/
def lacksCredit (s : State) (l : Nat) : Bool :=
  linkUp s l && (s.link l).unacked.length < 1024 && !(s.link l).waiting.isEmpty
    && (s.link l).waiting.all fun m => !canSend s l m

/-- What the runner links do with time: late contributions stay unsent (R310), messages that waited for room are taken
(R308), and a link without credit counts the Beat. -/
def tickLinks (s : State) : State :=
  forEach (fun e s =>
    let s := drainRx e.1 s
    if lacksCredit s e.1 then s.count (0x100 + 8 * e.1 + 5) 1 else s) s.links (dropLate s)

/-- The log's waiting records are written (R365). -/
def tickLog (s : State) : State := if cruHolds s then s else drainLog s

/-- Keeps the time counts when the Beat, which was `old`, has reached a multiple of 2³⁰ (R387). -/
def keepTimes (old : W64) (s : State) : State :=
  if old.toNat / 2 ^ 30 ≠ s.beat.toNat / 2 ^ 30 then
    { s with ctrT := Tab.set 0 (Tab.set 0 s.ctrT 0x011 (Tab.get 0 s.ctr 0x011)) 0x012 (Tab.get 0 s.ctr 0x012) }
  else s

/-- The 1 ms of a mutual wait runs while its conditions hold; a break restarts it (R276). -/
def mwTick (s : State) : State :=
  let holds := s.flag Reg.escCtl 0 && mwHolds s
  let since : Option W64 :=
    if holds = false then none
    else if s.mwBroken = true ∨ s.mwSince = none then some s.beat
    else s.mwSince
  { s with mwSince := since, mwBroken := false }

/-- The Regulator notes since when a compute die's cores have all been idle (R438). -/
def idleTick (s : State) : State :=
  forEach (fun die s =>
    let old := Tab.get none s.rgl.idleSince die
    let new : Option W64 := if dieIdle s die then some (old.getD s.beat) else none
    { s with rgl := { s.rgl with idleSince := Tab.set none s.rgl.idleSince die new } }) (upFrom 0 32) s

/-- One Beat (R341, R348): the master copy counts, cores asked to stop reach their instruction boundary (R189), and
what waits for time alone happens. Before the rails and RESET_N let bring-up begin nothing counts. (DESIGN CHOICE,
log 1; DESIGN CHOICE, log 198.) -/
def tick (s : State) : State :=
  if bootState s = 0 then s
  else
    let old := s.beat
    let s := stallCores (chargeCores (nextCount s))
    let s := reachStop (s.cores.map (·.1)) s
    idleTick (mwTick (keepTimes old (noteLoss (tickLog (tickLinks s)))))

end Sys2Proof.Machine
end

