-- ==== Sys2Proof/WellFormed.lean ====
section
/-! DEFINITION. Which commands are well-formed: every operand names something the part has, in the width the spec gives
its field. A meaning is total on the others too, and nothing a sender of the part can send is one of them. -/

namespace Sys2Proof

/-- A core id (R8: core ids 0 to 255). -/
def okCore (c : Nat) : Bool := c < 256
/-- One of the 64 rings (R257). -/
def okRing (r : Nat) : Bool := r < 64
/-- One of the 16 runner links (R16). -/
def okLink (l : Nat) : Bool := l < 16
/-- Where a runner message arrives: a link, or 16, the path of a device to itself (R308). -/
def okPort (l : Nat) : Bool := l ≤ 16
/-- A device address of 48 bits (R241). -/
def okAddr (a : Nat) : Bool := a < 2 ^ 48
/-- An offset in the register space of 256 MiB (R247). -/
def okOffset (off : Nat) : Bool := off < 2 ^ 28
/-- A die number (Table 11.6). -/
def okDie (die : Nat) : Bool := die < 64
/-- Companion bytes, and the 64-byte units it speaks of, lie at device addresses. -/
def okExt (ext : Ext) : Bool :=
  (ext.bytes.all fun p => okAddr p.1) && (ext.excl ++ ext.poisoned ++ ext.silent ++ ext.got).all fun u => okAddr (u * 64)
/-- A requester names a ring the part has. -/
def okRequester (rq : Requester) : Bool :=
  match rq with
  | .ring r => okRing r
  | _ => true
/-- A pop in progress is of a core or a requester the part has. -/
def okPopper (p : Popper) : Bool :=
  match p with
  | .none => true
  | .core c _ => okCore c
  | .port rq tag => okRequester rq && decide (tag < 8192)
/-- A runner message's fields fit Table 9.2, and it carries at most 4,096 bytes. -/
def okMsg (m : RunMsg) : Bool :=
  m.opc < 256 && m.vc < 8 && m.dest < 8192 && m.src < 8192 && m.stream < 256 && okAddr m.addr && m.ring < 64
    && m.hi < 1024 && m.seq < 2 ^ 32 && m.data.length ≤ 4096
/-- A Sprue frame's fields fit Table 7.1. -/
def okSprueFrame (f : SprueFrame) : Bool := f.seq < 4096 && f.ftype < 16 && f.ack < 4096
/-- A runner frame's fields fit Table 9.1. -/
def okRunnerFrame (f : RunnerFrame) : Bool := f.seq < 4096 && f.ftype < 16 && f.ack < 4096
/-- A debug access names what the part has (Table 12.12). -/
def okDbg (op : DbgOp) : Bool :=
  match op with
  | .halt c | .resume c | .step c => okCore c
  | .coreRead c _ _ _ => okCore c
  | .coreWrite c _ _ _ _ => okCore c
  | .regRead off => okOffset off
  | .regWrite off _ _ => okOffset off
  | .memRead a n => okAddr a && n ≤ 32
  | .memWrite a _ => okAddr a
  | .scan => true
  | .linkTest l _ => okLink l
  | .loadFirmware _ => true

/-- Every operand of a command is in range. -/
def WellFormed (i : Instr) : Bool :=
  match i with
  | .nop c _ => okCore c
  | .intAlu c _ => okCore c
  | .intAluImm c _ => okCore c
  | .li c _ => okCore c
  | .lui c _ => okCore c
  | .lid c _ _ => okCore c
  | .pcmp c _ => okCore c
  | .predicateLogic c _ => okCore c
  | .pget c _ => okCore c
  | .pset c _ => okCore c
  | .sel c _ => okCore c
  | .scalarFloatOp c _ => okCore c
  | .fcvtFX c _ => okCore c
  | .fcvtXF c _ => okCore c
  | .fmvXF c _ => okCore c
  | .fmvFX c _ => okCore c
  | .fcmp c _ => okCore c
  | .fli c _ => okCore c
  | .br c _ => okCore c
  | .bp c _ => okCore c
  | .bpn c _ => okCore c
  | .jmp c _ => okCore c
  | .callInst c _ => okCore c
  | .jr c _ => okCore c
  | .kernelEnd c _ => okCore c
  | .tend c _ => okCore c
  | .ld c _ => okCore c
  | .st c _ => okCore c
  | .vld c _ => okCore c
  | .vst c _ => okCore c
  | .dld c _ => okCore c
  | .dst c _ => okCore c
  | .dset c _ => okCore c
  | .dget c _ => okCore c
  | .dma c _ => okCore c
  | .put c _ => okCore c
  | .dwait c _ => okCore c
  | .fenceL c _ => okCore c
  | .fenceA c _ => okCore c
  | .fenceR c _ => okCore c
  | .mm c _ => okCore c
  | .pload c _ => okCore c
  | .tepi c _ => okCore c
  | .vtget c _ => okCore c
  | .vtput c _ => okCore c
  | .attn c _ _ => okCore c
  | .vectorArith c _ => okCore c
  | .vectorDivSqrt c _ => okCore c
  | .vectorFunction c _ => okCore c
  | .vectorBitwise c _ => okCore c
  | .vmov c _ => okCore c
  | .vcmp c _ => okCore c
  | .vsel c _ => okCore c
  | .vbcast c _ => okCore c
  | .vlane c _ => okCore c
  | .vred c _ => okCore c
  | .vredIsum c _ => okCore c
  | .vcvt c _ => okCore c
  | .vquant c _ => okCore c
  | .vdeq c _ => okCore c
  | .srseed c _ => okCore c
  | .erec c _ => okCore c
  | .ewait c _ => okCore c
  | .ewaitWake c => okCore c
  | .mwait c _ => okCore c
  | .mwaitWake c => okCore c
  | .npost c _ => okCore c
  | .npop c _ => okCore c
  | .tstamp c _ => okCore c
  | .tstampT c _ => okCore c
  | .cntr c _ => okCore c
  | .take c _ => okCore c
  | .amoAdd c _ => okCore c
  | .amoFadd c _ => okCore c
  | .amoCas c _ => okCore c
  | .racc c _ => okCore c
  | .sqres c _ => okCore c
  | .sqresWake c => okCore c
  | .sqpub c _ => okCore c
  | .sqpop c _ => okCore c
  | .sqpopWake c => okCore c
  | .sqrel c _ => okCore c
  | .kset c _ => okCore c
  | .kget c _ => okCore c
  | .trapen c _ => okCore c
  | .flags c _ => okCore c
  | .dmaDone c ext => okCore c && okExt ext
  | .mxeDone c => okCore c
  | .vectorDone c => okCore c
  | .coreFault c _ _ => okCore c
  | .coreHang c => okCore c
  | .perCoreResetDone c => okCore c
  | .partitionChange rq _ => okRequester rq
  | .partitionDone ext => okExt ext
  | .flush rq => okRequester rq
  | .inval rq => okRequester rq
  | .flushDone => true
  | .cruWipe rq => okRequester rq
  | .crucibleWipeDone ext => okExt ext
  | .wcStateWrite rq n _ _ => okRequester rq && decide (n < 1024)
  | .wcCtlWrite rq n _ => okRequester rq && decide (n < 1024)
  | .nqCtlWrite rq n _ => okRequester rq && decide (n < 64)
  | .nqFlush rq n popping => okRequester rq && decide (n < 64) && okPopper popping
  | .nqBaseWrite rq n _ _ => okRequester rq && decide (n < 64)
  | .noticePost n _ _ _ => decide (n < 64)
  | .nqPortRead rq n => okRequester rq && decide (n < 64)
  | .nqStaleTimeout n => decide (n < 64)
  | .sqCtlWrite rq n _ => okRequester rq && decide (n < 256)
  | .cacheFill line _ => decide (line < 2 ^ 41)
  | .scrub unit addr _ => decide (unit < 24) && okAddr addr
  | .sprueFrameRx frame => okSprueFrame frame
  | .sprueAckTimeout => true
  | .sprueRetrainDone _ failed ext => failed.all (· < 18) && okExt ext
  | .memRd _ tag addr _ => decide (tag < 8192) && okAddr addr
  | .memWr _ tag addr _ _ _ => decide (tag < 8192) && okAddr addr
  | .memWrPartial _ tag addr _ _ _ _ => decide (tag < 8192) && okAddr addr
  | .regRd _ tag off ext => decide (tag < 8192) && okOffset off && okExt ext
  | .regWr _ off _ _ ext => okOffset off && okExt ext
  | .apRdShared _ tag addr => decide (tag < 8192) && okAddr addr
  | .apRdOwn _ tag addr => decide (tag < 8192) && okAddr addr
  | .apWbDirty _ tag addr _ _ => decide (tag < 8192) && okAddr addr
  | .apEvict _ tag addr => decide (tag < 8192) && okAddr addr
  | .snpInv tag addr _ => decide (tag < 8192) && okAddr addr
  | .snpShare tag addr _ => decide (tag < 8192) && okAddr addr
  | .rspData tag status _ _ _ => decide (tag < 8192) && decide (status ≤ 4)
  | .rspAck tag status _ _ => decide (tag < 8192) && decide (status ≤ 4)
  | .snpRsp addr _ _ _ => okAddr addr
  | .sprueReqTimeout tag => decide (tag < 8192)
  | .sprueSnpTimeout addr => okAddr addr
  | .sprIntEoi rq _ => okRequester rq
  | .sprIntMaskWrite rq n _ => okRequester rq && decide (n < 8)
  | .sprApCtlWrite rq _ => okRequester rq
  | .xlatMap rq _ => okRequester rq
  | .unmap rq _ => okRequester rq
  | .protect rq _ => okRequester rq
  | .invalidateAll rq _ => okRequester rq
  | .xlatDone => true
  | .mbxSel rq _ => okRequester rq
  | .mbxSampleDone => true
  | .mbxData3Read rq => okRequester rq
  | .rcRegisterRead rq off ext => okRequester rq && okOffset off && okExt ext
  | .glbAccessStatusRead rq ext => okRequester rq && okExt ext
  | .registerWrite rq off _ _ ext => okRequester rq && okOffset off && okExt ext
  | .rwpWriteDone off ext => okOffset off && okExt ext
  | .paritySweep _ _ ext => okExt ext
  | .ringCtlWrite rq r _ ext => okRequester rq && okRing r && okExt ext
  | .ringTailWrite rq r _ _ => okRequester rq && okRing r
  | .tailWordWrite r ext => okRing r && okExt ext
  | .resume rq r ext => okRequester rq && okRing r && okExt ext
  | .pause rq r ext => okRequester rq && okRing r && okExt ext
  | .abortOne rq r _ ext => okRequester rq && okRing r && okExt ext
  | .abortOnward rq r _ ext => okRequester rq && okRing r && okExt ext
  | .abortAll rq r ext => okRequester rq && okRing r && okExt ext
  | .ringCqHeadWrite rq r _ _ ext => okRequester rq && okRing r && okExt ext
  | .eventSet rq _ => okRequester rq
  | .cmdNop r ext => okRing r && okExt ext
  | .cmdDispatch r ext => okRing r && okExt ext
  | .dispatchCoreStart r _ c => okRing r && okCore c
  | .dispatchComplete r _ ext => okRing r && okExt ext
  | .copy r ext => okRing r && okExt ext
  | .copyPieceDone r _ _ ext => okRing r && okExt ext
  | .recordMax r ext => okRing r && okExt ext
  | .recordAdd r ext => okRing r && okExt ext
  | .wait r ext => okRing r && okExt ext
  | .waitWake r _ ext => okRing r && okExt ext
  | .barrierLocal r ext => okRing r && okExt ext
  | .barrierFabric r ext => okRing r && okExt ext
  | .strike r ext => okRing r && okExt ext
  | .strikeFire r _ ext => okRing r && okExt ext
  | .cmdIf r ext => okRing r && okExt ext
  | .cmdElse r ext => okRing r && okExt ext
  | .cmdEnd r ext => okRing r && okExt ext
  | .loopCount r ext => okRing r && okExt ext
  | .loopCondition r ext => okRing r && okExt ext
  | .cmdCall r ext => okRing r && okExt ext
  | .cmdReturn r ext => okRing r && okExt ext
  | .timestamp r ext => okRing r && okExt ext
  | .notice r ext => okRing r && okExt ext
  | .write r _ ext => okRing r && okExt ext
  | .commandTimeout r _ ext => okRing r && okExt ext
  | .mutualWait ext => okExt ext
  | .chainStart rq _ => okRequester rq
  | .chainCopy ext => okExt ext
  | .chainFill ext => okExt ext
  | .chainWrite _ ext => okExt ext
  | .chainPoll ext => okExt ext
  | .chainPollMatch ext => okExt ext
  | .chainWipe ext => okExt ext
  | .chainNotice ext => okExt ext
  | .chainDescriptorDone ext => okExt ext
  | .chainTimeout ext => okExt ext
  | .reduceOpen r ext => okRing r && okExt ext
  | .reduceSend r ext => okRing r && okExt ext
  | .ringReduceScatter r ext => okRing r && okExt ext
  | .ringAllReduce r ext => okRing r && okExt ext
  | .allGather r ext => okRing r && okExt ext
  | .multicast r ext => okRing r && okExt ext
  | .paramCommit r ext => okRing r && okExt ext
  | .checkpoint r ext => okRing r && okExt ext
  | .runnerFrameRx l frame ext => okLink l && okRunnerFrame frame && okExt ext
  | .runnerAckTimeout l => okLink l
  | .runnerRetrainDone l _ failed ext => okLink l && failed.all (· < 18) && okExt ext
  | .runnerPut l m ext => okPort l && okMsg m && okExt ext
  | .putFlag l m ext => okPort l && okMsg m && okExt ext
  | .sqData l m ext => okPort l && okMsg m && okExt ext
  | .sqPublish l m ext => okPort l && okMsg m && okExt ext
  | .sqCredit l m ext => okPort l && okMsg m && okExt ext
  | .wack l m ext => okPort l && okMsg m && okExt ext
  | .runnerRacc l m ext => okPort l && okMsg m && okExt ext
  | .raccCommit l m ext => okPort l && okMsg m && okExt ext
  | .raccEnd l m ext => okPort l && okMsg m && okExt ext
  | .raccTaint l m ext => okPort l && okMsg m && okExt ext
  | .ringPart l m ext => okPort l && okMsg m && okExt ext
  | .mcast l m ext => okPort l && okMsg m && okExt ext
  | .barArrive l m ext => okPort l && okMsg m && okExt ext
  | .barRelease l m ext => okPort l && okMsg m && okExt ext
  | .barWithdraw l m ext => okPort l && okMsg m && okExt ext
  | .veto l m ext => okPort l && okMsg m && okExt ext
  | .strikeSet l m ext => okPort l && okMsg m && okExt ext
  | .ckpt l m ext => okPort l && okMsg m && okExt ext
  | .syncReq l m ext => okPort l && okMsg m && okExt ext
  | .syncRsp l m ext => okPort l && okMsg m && okExt ext
  | .maint l m ext => okPort l && okMsg m && okExt ext
  | .nak l m ext => okPort l && okMsg m && okExt ext
  | .flood l job serial ext => okLink l && decide (job < 2 ^ 16) && decide (serial < 256) && okExt ext
  | .floodRelayEnd => true
  | .reductionDeadline red => decide (red < 2 ^ 16)
  | .reductionCloseDone red ext => decide (red < 2 ^ 16) && okExt ext
  | .quietEnd => true
  | .linkEnable rq l _ => okRequester rq && okLink l
  | .linkRetrain rq l => okRequester rq && okLink l
  | .linkLoopback rq l _ => okRequester rq && okLink l
  | .linkTrainDone l _ peerId peerPort _ _ => okLink l && decide (peerId < 8192) && decide (peerPort < 16)
  | .runJobSetWrite rq _ => okRequester rq
  | .gateWireFail die _ ext => okDie die && okExt ext
  | .softwareVeto rq ext => okRequester rq && okExt ext
  | .stepGateArrive ext => okExt ext
  | .stepEnd rq ext => okRequester rq && okExt ext
  | .beatBroadcast drift => (drift.all fun p => okDie p.1)
  | .beatReloadDone die => okDie die
  | .reloadFail die ext => okDie die && okExt ext
  | .syncInterval => true
  | .strikeSetSend rq _ => okRequester rq
  | .latchArm rq _ => okRequester rq
  | .latchFire => true
  | .traceSample n => decide (n < 8)
  | .traceRecordAccept n die => decide (n < 8) && okDie die
  | .groupCloseTimeout l v => okLink l && decide (v < 8)
  | .rrRecordStart rq _ => okRequester rq
  | .rrReplayStart rq => okRequester rq
  | .rrOff rq => okRequester rq
  | .rrMark rq => okRequester rq
  | .replayInject ext => okExt ext
  | .replayDiverged => true
  | .imageVerifyDone r _ ext => okRing r && okExt ext
  | .sealWipeDone ext => okExt ext
  | .fullWipeDone => true
  | .idcode => true
  | .bypass => true
  | .sample => true
  | .extest => true
  | .dbgAccess op ext => okDbg op && okExt ext
  | .dbgChallenge rq => okRequester rq
  | .dbgUnlock rq _ => okRequester rq
  | .challenge rq => okRequester rq
  | .hallmark rq => okRequester rq
  | .provision rq _ ext => okRequester rq && okExt ext
  | .enroll rq _ ext => okRequester rq && okExt ext
  | .transfer rq _ ext => okRequester rq && okExt ext
  | .release rq _ ext => okRequester rq && okExt ext
  | .retire rq _ ext => okRequester rq && okExt ext
  | .advanceSvn rq _ ext => okRequester rq && okExt ext
  | .policy rq => okRequester rq
  | .sealOffer rq => okRequester rq
  | .sealEnter rq ext => okRequester rq && okExt ext
  | .sealExit rq ext => okRequester rq && okExt ext
  | .complete rq ext => okRequester rq && okExt ext
  | .assayDone => true
  | .lcPendingTimeout ext => okExt ext
  | .entropy => true
  | .manufactureProgram _ _ _ _ => true
  | .regulatorSample _ dies => (dies.all fun p => okDie p.1)
  | .regulatorDecide _ _ _ _ ext => okExt ext
  | .thermalTrip die _ ext => okDie die && okExt ext
  | .idleGate die => okDie die
  | .bankSpareDone slice => decide (slice < 16)
  | .retireRequestTimeout page => decide (page < 2 ^ 18)
  | .windowGrant rq _ => okRequester rq
  | .windowBegin => true
  | .repairDone _ _ _ ext => okExt ext
  | .windowExpire => true
  | .windowEndRequest rq id => okRequester rq && decide (id < 2 ^ 16)
  | .recordRetry ext => okExt ext
  | .computeReset rq ext => okRequester rq && okExt ext
  | .computeResetDone => true
  | .deviceReset rq ext => okRequester rq && okExt ext
  | .floodStart rq ext => okRequester rq && okExt ext
  | .resetNRelease _ => true
  | .ctrlSelect _ _ => true
  | .dieInit excluded badDie badGate => excluded.all okDie && badDie.all okDie && (badGate.all fun p => okDie p.1)
  | .hbmInit badStack => badStack.all (· < 8)
  | .bootGo => true
  | .fwVerify => true
  | .fwTimeout => true
  | .fwStart => true
  | .record => true
  | .memTest _ pages banks badSlice => pages.all (· < 2 ^ 18) && (banks.all fun p => p.1 < 16) && badSlice.all (· < 16)
  | .coreTest _ _ => true
  | .characterise _ dies => (dies.all fun p => okDie p.1)
  | .links => true
  | .sprueLock => true
  | .sprueAlign => true
  | .sprueMap failed => failed.all (· < 34)
  | .sprueUp _ => true
  | .sprueTrainTimeout _ => true
  | .resetNLow ext => okExt ext
  | .railFault => true
  | .refclkLoss => true
  | .thermtrip => true
  | .bmiRead off => decide (off < 256)
  | .collectiveSendAccepted r _ ext => okRing r && okExt ext
  | .railsInRange => true
  | .diePowerRestored die => okDie die

end Sys2Proof
end

