-- ==== Sys2Proof/Safety.lean ====
section
/-! DEFINITION. The terms in which the statements speak: when an instruction executes normally, what its retirement
leaves, and the invariants of the part. -/

namespace Sys2Proof.Machine

/-- The memory is in its canonical form: addresses rise and no listed byte equals what an unlisted one reads as.
(DESIGN CHOICE, log 3.) -/
abbrev Memory.wf (s : State) : Prop := Tab.wf 0 s.mem = true

/-- The instruction rows of the table: the row's own opcode and FN, the core, and its one or two words (Table 6.1). -/
def coreRow : Instr → Option (CoreOp × Nat × W64 × W64)
  | .nop c w => some (.nop, c, w, 0)
  | .intAlu c w => some (.intAlu, c, w, 0)
  | .intAluImm c w => some (.intAluImm, c, w, 0)
  | .li c w => some (.li, c, w, 0)
  | .lui c w => some (.lui, c, w, 0)
  | .lid c w e => some (.lid, c, w, e)
  | .pcmp c w => some (.pcmp, c, w, 0)
  | .predicateLogic c w => some (.predicateLogic, c, w, 0)
  | .pget c w => some (.pget, c, w, 0)
  | .pset c w => some (.pset, c, w, 0)
  | .sel c w => some (.sel, c, w, 0)
  | .scalarFloatOp c w => some (.scalarFloatOp, c, w, 0)
  | .fcvtFX c w => some (.fcvtFX, c, w, 0)
  | .fcvtXF c w => some (.fcvtXF, c, w, 0)
  | .fmvXF c w => some (.fmvXF, c, w, 0)
  | .fmvFX c w => some (.fmvFX, c, w, 0)
  | .fcmp c w => some (.fcmp, c, w, 0)
  | .fli c w => some (.fli, c, w, 0)
  | .br c w => some (.br, c, w, 0)
  | .bp c w => some (.bp, c, w, 0)
  | .bpn c w => some (.bpn, c, w, 0)
  | .jmp c w => some (.jmp, c, w, 0)
  | .callInst c w => some (.callInst, c, w, 0)
  | .jr c w => some (.jr, c, w, 0)
  | .kernelEnd c w => some (.kernelEnd, c, w, 0)
  | .tend c w => some (.tend, c, w, 0)
  | .ld c w => some (.ld, c, w, 0)
  | .st c w => some (.st, c, w, 0)
  | .vld c w => some (.vld, c, w, 0)
  | .vst c w => some (.vst, c, w, 0)
  | .dld c w => some (.dld, c, w, 0)
  | .dst c w => some (.dst, c, w, 0)
  | .dset c w => some (.dset, c, w, 0)
  | .dget c w => some (.dget, c, w, 0)
  | .dma c w => some (.dma, c, w, 0)
  | .put c w => some (.put, c, w, 0)
  | .dwait c w => some (.dwait, c, w, 0)
  | .fenceL c w => some (.fenceL, c, w, 0)
  | .fenceA c w => some (.fenceA, c, w, 0)
  | .fenceR c w => some (.fenceR, c, w, 0)
  | .mm c w => some (.mm, c, w, 0)
  | .pload c w => some (.pload, c, w, 0)
  | .tepi c w => some (.tepi, c, w, 0)
  | .vtget c w => some (.vtget, c, w, 0)
  | .vtput c w => some (.vtput, c, w, 0)
  | .attn c w e => some (.attn, c, w, e)
  | .vectorArith c w => some (.vectorArith, c, w, 0)
  | .vectorDivSqrt c w => some (.vectorDivSqrt, c, w, 0)
  | .vectorFunction c w => some (.vectorFunction, c, w, 0)
  | .vectorBitwise c w => some (.vectorBitwise, c, w, 0)
  | .vmov c w => some (.vmov, c, w, 0)
  | .vcmp c w => some (.vcmp, c, w, 0)
  | .vsel c w => some (.vsel, c, w, 0)
  | .vbcast c w => some (.vbcast, c, w, 0)
  | .vlane c w => some (.vlane, c, w, 0)
  | .vred c w => some (.vred, c, w, 0)
  | .vredIsum c w => some (.vredIsum, c, w, 0)
  | .vcvt c w => some (.vcvt, c, w, 0)
  | .vquant c w => some (.vquant, c, w, 0)
  | .vdeq c w => some (.vdeq, c, w, 0)
  | .srseed c w => some (.srseed, c, w, 0)
  | .erec c w => some (.erec, c, w, 0)
  | .ewait c w => some (.ewait, c, w, 0)
  | .mwait c w => some (.mwait, c, w, 0)
  | .npost c w => some (.npost, c, w, 0)
  | .npop c w => some (.npop, c, w, 0)
  | .tstamp c w => some (.tstamp, c, w, 0)
  | .tstampT c w => some (.tstampT, c, w, 0)
  | .cntr c w => some (.cntr, c, w, 0)
  | .take c w => some (.take, c, w, 0)
  | .amoAdd c w => some (.amoAdd, c, w, 0)
  | .amoFadd c w => some (.amoFadd, c, w, 0)
  | .amoCas c w => some (.amoCas, c, w, 0)
  | .racc c w => some (.racc, c, w, 0)
  | .sqres c w => some (.sqres, c, w, 0)
  | .sqpub c w => some (.sqpub, c, w, 0)
  | .sqpop c w => some (.sqpop, c, w, 0)
  | .sqrel c w => some (.sqrel, c, w, 0)
  | .kset c w => some (.kset, c, w, 0)
  | .kget c w => some (.kget, c, w, 0)
  | .trapen c w => some (.trapen, c, w, 0)
  | .flags c w => some (.flags, c, w, 0)
  | _ => none

/-- Core `c` executes the instruction word `w` (second word `e`) of row `op` normally (R191 to R194): it runs and waits
for nothing, the debug port does not hold it, the word lies in the kernel's code, is assigned and legal, its guard is
true, and the Crucible takes its accesses. -/
structure Issues (s : State) (c : Nat) (op : CoreOp) (w e : W64) : Prop where
  running : (s.core c).mode = .running
  free : (s.core c).hold = none
  notStopping : (s.core c).stopping = false
  notHeld : debugHolds s c = false
  inCode : pcInRange (s.core c) (if op.wide then 16 else 8) = true
  first : bits w.toNat 63 56 ≠ 0xFF
  row : coreOp w.toNat = some op
  width : bit w.toNat 63 = op.wide
  second : op.wide = true → bits e.toNat 63 56 = 0xFF
  guard : Iw.guard w.toNat = 0 ∨ 8 ≤ Iw.guard w.toNat
  legal : coreLegal op w.toNat e.toNat = true
  guardOn : guardTrue (s.core c) w.toNat = true
  crucible : cruHolds s = false ∨ op.reaches w.toNat = false

/-- What the retirement of an instruction of `len` bytes leaves, its core having become `k`: the next instruction
follows it, it is counted, and a step that the debug port asked for is taken. Nothing else changes. -/
def State.retiring (s : State) (c len : Nat) (k : Core) : State :=
  { s with cores := Tab.set {} s.cores c { k with pc := k.pc + BitVec.ofNat 64 len, retired := k.retired + 1,
                                                  lastRetire := s.beat }
           dbg := { s.dbg with stepping := s.dbg.stepping.filter (· != c) } }

/-- What the issue of an instruction of 8 bytes to a unit leaves, its core having become `k` (R197): the next instruction
follows it; it is counted when the unit has done it. Nothing else changes. -/
def State.issuing (s : State) (c : Nat) (k : Core) : State :=
  { s with cores := Tab.set {} s.cores c { k with pc := k.pc + 8 }
           dbg := { s.dbg with stepping := s.dbg.stepping.filter (· != c) } }

/-- A register write completes normally (R10, R11, R247 to R252, R366, R460): the access is aligned, a register lies
there and is present, no wipe, seal or replay denies it, the requester has its class, and no posted write keeps its block
busy. The companion's needs its Sprue up and bring-up ended, and no record log runs that would take the message. -/
structure Admitted (s : State) (rq : Requester) (off : Nat) (v : W32) : Prop where
  carried : isSprue rq = true → sprUp s = true ∧ replaying s = false ∧ recording s = false ∧ s.boot.fwStarted = true
  aligned : badSize off = false
  here : ∃ d, regPresent s off = some d ∧ admits s rq d.cls = true ∧ (d.rwp ≠ 0 → blockBusy s off = false)
  noWipe : wipeDenies s off true = false
  noSeal : sealDenies s rq off v = false

/-- A write of the register at this offset only stores it: no rule gives the register a behaviour of its own. Those of
rings, notice queues, work counters, stage queues, links, substitution entries, interrupt masks and the training loop
have one, and so have the registers listed. -/
def plainReg (off : Nat) : Bool :=
  let among (lo hi : Nat) : Bool := lo ≤ off && off < hi
  !(among 0x210000 0x214000 || among 0x280000 0x2C0000 || among 0x300000 0x301000 || among 0x410000 0x414000
    || among 0x420000 0x422000 || among 0x800000 0x900000 || among 0x900100 0x900200 || among 0x900800 0x900840
    || among 0xA00020 0xA00040 || among 0xE10000 0xE20000
    || [Reg.glbXlatCmd, Reg.mbxSel, Reg.beatSsSendHi, Reg.escEvtHi, Reg.escChainLo, Reg.escChainHi, Reg.cruPartition,
        Reg.cruWipe, Reg.cruCacheCtl, Reg.runJobSet, Reg.trnCtl, Reg.sprApCtl, Reg.sprApBase, Reg.sprIntEoi,
        Reg.rglWindow, Reg.rglCap, Reg.rsrReset, Reg.rsrFlood, Reg.asyCmd, Reg.cntLatchHi, Reg.rrCtl, Reg.rrBaseLo,
        Reg.rrBaseHi, Reg.rrSize, Reg.rrVcMask, Reg.rrStart, Reg.rrEnd, Reg.rrSideLo, Reg.rrSideHi].contains off)

/-- Command `i`, an access of a requester, answers a next state, in which it has had the effect `go`; a message of the
companion has been counted before (Table 11.4). -/
def Performs (s : State) (rq : Requester) (i : Instr) (go : State → State) : Prop :=
  ∃ q, (isSprue rq = false → q = s.ctr) ∧ exec i s = .next (go { s with ctr := q })

/-- A register read of a requester that is not the companion completes normally (R10, R247 to R249, R253): the access is
aligned, a register lies there and is present, no wipe denies it, the requester has its class, and the register's stored
parity matches. -/
structure AdmittedRead (s : State) (rq : Requester) (off : Nat) : Prop where
  local_ : isSprue rq = false
  aligned : badSize off = false
  here : ∃ d, regPresent s off = some d ∧ admits s rq d.cls = true
  noWipe : wipeDenies s off false = false
  parity : s.parityBad.contains off = false

/-- The Sprue sends at once (R225, R229): it carries traffic, nothing waits in it, its sender has room for more frames, and
every class has credits for a few messages of any size. -/
structure SprueSends (s : State) : Prop where
  up : sprUp s = true
  idle : s.spr.queued = []
  room : s.spr.unacked.length < 500
  credits : ∀ i, i < 4 → 32 ≤ Tab.get 0 s.spr.credits i

/-- The Sprue's messages are performed as they come: it sends at once and bring-up has ended, and no replay, wipe, seal,
recording or hold of the Crucible stands in the way. -/
structure SprueServes (s : State) : Prop where
  sends : SprueSends s
  live : replaying s = false
  noWipe : wipeRuns s = false
  started : s.boot.fwStarted = true
  clear : s.sealed = false
  noRecord : recording s = false
  taken : cruHolds s = false

/-- Nothing waits for the Crucible to take accesses again: no held access, no completion entry, no runner's message. -/
def NothingHeld (s : State) : Prop := s.held = [] ∧ (∀ r, cqWaits s r = false) ∧ ∀ l, (s.link l).rx = []

/-- The 16-byte words that `n` bytes from a device address meet lie in scratch, none of them is poison, and a checker
finds nothing wrong in them (R83 to R85). -/
def ScratchSound (s : State) (a n : Nat) : Prop :=
  ∀ u ∈ unitsOf 16 a n, ∃ key, place s u = .scratch key ∧ s.wordState (key / 16) = .clean ∧ s.isPoison key = false

/-- Ring `r` has just admitted command `b` (R262, R274): the command runs under its sequence number and iteration, the
ring's position is past it, and a trace record is due. -/
def State.admitting (s : State) (r : Nat) (b : W512) : State :=
  let c := newCmd s r b
  let u : State := { passOne r s with nextUid := s.nextUid + 1 }
  traceCommand r (Cb.opcode b) 0 0 c.seq (mwNote (u.modRing r fun k => { k with running := k.running ++ [c], last := u.beat }))

/-- Ring `r` takes its next command `b` now (R262, R272): the ring may admit and passes over nothing, the command is
available, is not the last of a called buffer, and has been read, leaving `f`, nothing holds it back, and no abort has
named it. -/
structure Takes (s : State) (ext : Ext) (r : Nat) (b : W512) (f : State) : Prop where
  ring : r < 64
  can : canAdmit s r = true
  noSkip : (s.ring r).skip = none
  within : (s.ring r).pos.inBuf = true → (s.ring r).pos.idx + 1 < (s.ring r).pos.entries
  near : ∀ x ∈ (s.ring r).frames, x.kind = .loopF → x.cmd.sub = 0 →
    ((s.ring r).pos.seq - x.cmd.seq).toNat ≤ ringN s r - 1
  there : available s r (s.ring r).pos = true
  fetched : fetchCmd ext r s = (.ok b, f)
  kept : f.ring r = s.ring r
  due : mustHold s r b = false
  wanted : (s.ring r).doomed.contains (s.ring r).pos.seq = false

/-- Ring `r` admits its next command `b` normally (R264, R378): its fields are legal and no seal refuses it. -/
structure Admits (s : State) (ext : Ext) (r : Nat) (b : W512) (f : State) : Prop where
  takes : Takes s ext r b f
  legal : cmdOffence (f.admitting r b) b = none
  clear : sealRefuses (f.admitting r b) r b = false

/-- Every core but `c` is in `t` as it was in `s`. -/
def OthersKeep (s t : State) (c : Nat) : Prop := ∀ j, j ≠ c → t.core j = s.core j

end Sys2Proof.Machine
end

