-- ==== Sys2Proof/Certificates/Slice0/Obligations.lean ====
section
/-! DEFINITION. The statements about this model, for the provers. -/

open Sys2Proof Sys2Proof.Machine

/-- One step takes the command at the front of the queue and runs it with the queue's rest, and every command answers
a next state: no command of this hardware stops it. -/
def Obligations.StepRunsFrontCommand : Prop :=
  (∀ (c : Instr) (rest : List Instr) (s : State),
    step { s with pending := c :: rest } = exec c { s with pending := rest }) ∧
  ∀ (c : Instr) (s : State), ∃ t, exec c s = .next t

/-- The integer, predicate and constant instructions of Table 6.5 (R204), in a core that executes them normally: the
destination takes the value the table states, x0 discards it, the next instruction follows 8 bytes on (16 for `lid`),
and nothing else of the core, of the other cores or of the part changes but the retirement's own marks. -/
def Obligations.IntegerInstructionResults : Prop :=
  ∀ (s : State) (c : Nat) (w e : W64),
    let k := s.core c
    let n := w.toNat
    let x (r : Nat) : W64 := if r = 0 then 0 else Tab.get 0 k.x r
    let a := x (bits n 46 42)
    let b := x (bits n 41 37)
    let i : W64 := (BitVec.ofNat 32 (bits n 31 0)).signExtend 64
    let table (fn : Nat) (a b : W64) : W64 :=
      if fn = 0 then a + b else if fn = 1 then a - b else if fn = 2 then a * b
      else if fn = 3 then BitVec.ofNat 64 (a.toNat * b.toNat / 2 ^ 64)
      else if fn = 4 then a &&& b else if fn = 5 then a ||| b else if fn = 6 then a ^^^ b
      else if fn = 7 then a <<< (b.toNat % 64) else if fn = 8 then a >>> (b.toNat % 64)
      else if fn = 9 then a.sshiftRight (b.toNat % 64)
      else if fn = 10 then (if a.toInt ≤ b.toInt then a else b) else if fn = 11 then (if a.toInt ≤ b.toInt then b else a)
      else if fn = 12 then (if a.toNat ≤ b.toNat then a else b) else (if a.toNat ≤ b.toNat then b else a)
    let cond (fn : Nat) (a b : W64) : Bool :=
      if fn = 0 then a == b else if fn = 1 then a != b else if fn = 2 then a.toInt < b.toInt
      else if fn = 3 then b.toInt ≤ a.toInt else if fn = 4 then a.toNat < b.toNat else b.toNat ≤ a.toNat
    let rd := bits n 51 47
    let wx (v : W64) : Core := if rd = 0 then k else { k with x := Tab.set 0 k.x rd v }
    let p (r : Nat) : W64 := Tab.get 0 k.p r
    let wp (v : W64) : Core := { k with p := Tab.set 0 k.p rd v }
    (Issues s c .nop w 0 → exec (.nop c w) s = .next (s.retiring c 8 k)) ∧
    (Issues s c .intAlu w 0 → exec (.intAlu c w) s = .next (s.retiring c 8 (wx (table (bits n 31 24) a b)))) ∧
    (Issues s c .intAluImm w 0 → exec (.intAluImm c w) s = .next (s.retiring c 8 (wx (table (bits n 41 32) a i)))) ∧
    (Issues s c .li w 0 → exec (.li c w) s = .next (s.retiring c 8 (wx i))) ∧
    (Issues s c .lui w 0 → exec (.lui c w) s =
      .next (s.retiring c 8 (wx (BitVec.ofNat 64 (bits n 31 0 * 2 ^ 32 + a.toNat % 2 ^ 32))))) ∧
    (Issues s c .lid w e → exec (.lid c w e) s =
      .next (s.retiring c 16 (wx (BitVec.ofNat 64 (bits n 31 0 + bits e.toNat 31 0 * 2 ^ 32))))) ∧
    (Issues s c .pcmp w 0 → exec (.pcmp c w) s =
      .next (s.retiring c 8 (wp (if cond (bits n 31 24) a b then BitVec.allOnes 64 else 0)))) ∧
    (Issues s c .predicateLogic w 0 → exec (.predicateLogic c w) s = .next (s.retiring c 8 (wp
      (let pa := p (bits n 46 42)
       let pb := p (bits n 41 37)
       if bits n 31 24 = 0 then pa &&& pb else if bits n 31 24 = 1 then pa ||| pb
       else if bits n 31 24 = 2 then pa ^^^ pb else ~~~pa)))) ∧
    (Issues s c .pget w 0 → exec (.pget c w) s = .next (s.retiring c 8 (wx (p (bits n 46 42))))) ∧
    (Issues s c .pset w 0 → exec (.pset c w) s = .next (s.retiring c 8 (wp a))) ∧
    (Issues s c .sel w 0 → exec (.sel c w) s =
      .next (s.retiring c 8 (wx (if (p (bits n 36 32)).getLsbD 0 then a else b))))

/-- The scalar float instructions of Table 6.5 (R122, R204) when no condition they raise has its trap enabled: the
destination takes the result of the FP32 operation, the sticky flags and counters take its conditions, and nothing
else changes. Moves and constants keep the raw bits (R91). -/
def Obligations.ScalarFloatResults : Prop :=
  ∀ (s : State) (c : Nat) (w : W64),
    let k := s.core c
    let n := w.toNat
    let f (r : Nat) : W32 := Tab.get 0 k.f r
    let fa := f (bits n 46 42)
    let fb := f (bits n 41 37)
    let fc := f (bits n 36 32)
    let a := k.xr (bits n 46 42)
    let rd := bits n 51 47
    let wx (v : W64) : Core := if rd = 0 then k else { k with x := Tab.set 0 k.x rd v }
    let wf (v : W32) : Core := { k with f := Tab.set 0 k.f rd v }
    let wp (v : W64) : Core := { k with p := Tab.set 0 k.p rd v }
    let op := floatOp (bits n 31 24) fa.toNat fb.toNat fc.toNat
    let cv := (IFmt.mk 64 true).encode .rtz 0 (FFmt.fp32.decode fa.toNat)
    (Issues s c .scalarFloatOp w 0 → k.arithTrap op.2 = false →
      exec (.scalarFloatOp c w) s = .next (s.retiring c 8 ((wf (BitVec.ofNat 32 op.1)).raise op.2))) ∧
    (Issues s c .fcvtFX w 0 →
      exec (.fcvtFX c w) s = .next (s.retiring c 8 (wf (BitVec.ofNat 32 (FFmt.fp32.rne (Val.ofInt a.toInt)).1)))) ∧
    (Issues s c .fcvtXF w 0 → k.arithTrap cv.2 = false →
      exec (.fcvtXF c w) s = .next (s.retiring c 8 ((wx (BitVec.ofNat 64 cv.1)).raise cv.2))) ∧
    (Issues s c .fmvXF w 0 → exec (.fmvXF c w) s = .next (s.retiring c 8 (wx (fa.setWidth 64)))) ∧
    (Issues s c .fmvFX w 0 → exec (.fmvFX c w) s = .next (s.retiring c 8 (wf (a.setWidth 32)))) ∧
    (Issues s c .fcmp w 0 → exec (.fcmp c w) s = .next (s.retiring c 8 (wp
      (if floatCond (bits n 31 24) (FFmt.fp32.decode fa.toNat) (FFmt.fp32.decode fb.toNat)
       then BitVec.allOnes 64 else 0)))) ∧
    (Issues s c .fli w 0 → exec (.fli c w) s = .next (s.retiring c 8 (wf (BitVec.ofNat 32 (bits n 31 0)))))

/-- The transfers of control (R195, R196, R204). A taken transfer whose target is a multiple of 8 inside the code
makes the target the next instruction; one to any other target traps with cause ILLEGAL at the transfer, writing no
register, and so does the issue of any instruction past the code; one that is not taken goes on 8 bytes further;
`call` leaves the offset behind it in x31. Nothing else changes. -/
def Obligations.ControlTransferResults : Prop :=
  ∀ (s : State) (c : Nat) (w : W64),
    let k := s.core c
    let n := w.toNat
    let target : W64 := k.pc + BitVec.ofInt 64 (sext 32 (bits n 31 0))
    let good (t : W64) : Prop := t.toNat % 8 = 0 ∧ pcInRange { k with pc := t } 8 = true
    let goTo (t : W64) (k : Core) : State := s.retiring c 0 { k with pc := t }
    let next : State := s.retiring c 8 k
    let traps (op : Instr) : Prop := ∃ t, exec op s = .next t ∧ (t.core c).mode = .trapped ∧ (t.core c).trapCause = 1 ∧
      (t.core c).trapPc = k.pc.setWidth 32 ∧ (t.core c).x = k.x ∧ t.mem = s.mem
    let taken := intCond (bits n 41 39) (k.xr (bits n 51 47)) (k.xr (bits n 46 42))
    let p := (Tab.get 0 k.p (bits n 51 47)).getLsbD 0
    (Issues s c .br w 0 → taken = true → good target → exec (.br c w) s = .next (goTo target k)) ∧
    (Issues s c .br w 0 → taken = false → exec (.br c w) s = .next next) ∧
    (Issues s c .bp w 0 → p = true → good target → exec (.bp c w) s = .next (goTo target k)) ∧
    (Issues s c .bp w 0 → p = false → exec (.bp c w) s = .next next) ∧
    (Issues s c .bpn w 0 → p = false → good target → exec (.bpn c w) s = .next (goTo target k)) ∧
    (Issues s c .bpn w 0 → p = true → exec (.bpn c w) s = .next next) ∧
    (Issues s c .jmp w 0 → good target → exec (.jmp c w) s = .next (goTo target k)) ∧
    (Issues s c .callInst w 0 → good target →
      exec (.callInst c w) s = .next (goTo target { k with x := Tab.set 0 k.x 31 (k.pc + 8) })) ∧
    (Issues s c .jr w 0 → good (k.xr (bits n 46 42)) →
      exec (.jr c w) s = .next (goTo (k.xr (bits n 46 42)) k)) ∧
    (k.trapValid = false →
      (Issues s c .br w 0 → taken = true → ¬ good target → traps (.br c w)) ∧
      (Issues s c .bp w 0 → p = true → ¬ good target → traps (.bp c w)) ∧
      (Issues s c .bpn w 0 → p = false → ¬ good target → traps (.bpn c w)) ∧
      (Issues s c .jmp w 0 → ¬ good target → traps (.jmp c w)) ∧
      (Issues s c .callInst w 0 → ¬ good target → traps (.callInst c w)) ∧
      (Issues s c .jr w 0 → ¬ good (k.xr (bits n 46 42)) → traps (.jr c w)) ∧
      (∀ i op e, coreRow i = some (op, c, w, e) → k.mode = .running → k.hold = none → k.stopping = false →
        debugHolds s c = false → pcInRange k 8 = false → traps i))

/-- The system and descriptor-register instructions (R188, R201, R203, R219): `srseed` sets SR_SEED, `kset` and `kget`
write and read a run-time shape, `trapen` sets the trap enables, `flags` reads the sticky flags and DET, `dset` and
`dget` write and read one field of a descriptor register at the place Table 6.4 gives it. Nothing else changes. -/
def Obligations.SystemInstructionResults : Prop :=
  ∀ (s : State) (c : Nat) (w : W64),
    let k := s.core c
    let n := w.toNat
    let rd := bits n 51 47
    let ra := bits n 46 42
    let wx (v : W64) : Core := if rd = 0 then k else { k with x := Tab.set 0 k.x rd v }
    let shape := Tab.get {} k.k ra
    let place : List (Nat × Nat) :=
      [(0, 64), (64, 64), (128, 32), (160, 32), (192, 16), (208, 16), (224, 16), (240, 8), (248, 8), (256, 16), (272, 16),
       (288, 32), (320, 32), (352, 32)]
    let f := place.getD (bits n 31 24) (0, 0)
    let d (r : Nat) : W512 := Tab.get 0 k.d r
    let written : W512 := BitVec.ofNat 512 (putBits (d rd).toNat (f.1 + f.2 - 1) f.1 (k.xr ra).toNat)
    (Issues s c .srseed w 0 → exec (.srseed c w) s = .next (s.retiring c 8 { k with srSeed := k.xr ra })) ∧
    (Issues s c .kset w 0 → exec (.kset c w) s = .next (s.retiring c 8
      { k with k := Tab.set {} k.k rd { m := (k.xr ra).setWidth 32, n := (k.xr (bits n 41 37)).setWidth 32,
                                        k := (k.xr (bits n 36 32)).setWidth 32 } })) ∧
    (Issues s c .kget w 0 → exec (.kget c w) s = .next (s.retiring c 8 (wx
      ((if bits n 23 0 = 0 then shape.m else if bits n 23 0 = 1 then shape.n else shape.k).setWidth 64)))) ∧
    (Issues s c .trapen w 0 →
      exec (.trapen c w) s = .next (s.retiring c 8 { k with trapEn := BitVec.ofNat 5 (bits n 31 0) })) ∧
    (Issues s c .flags w 0 → exec (.flags c w) s = .next (s.retiring c 8 (wx (BitVec.ofNat 64
      (b2n k.nv + 2 * b2n k.ov + 4 * b2n k.sat + 8 * b2n k.nanIn + 256 * b2n k.det))))) ∧
    (Issues s c .dset w 0 → exec (.dset c w) s = .next (s.retiring c 8
      { k with d := Tab.set 0 k.d rd written })) ∧
    (Issues s c .dget w 0 → exec (.dget c w) s =
      .next (s.retiring c 8 (wx (BitVec.ofNat 64 (bits (d ra).toNat (f.1 + f.2 - 1) f.1)))))

/-- Every instruction of a tile core whose word is unassigned, sets a reserved field, has a wrong W bit, a wrong
second word or a reserved guard, or lies past the code, makes a running core trap with cause ILLEGAL at that word
(R189, R191 to R194): the core is TRAPPED with the cause and the word's offset recorded, it holds no tile and its unit
queues are empty, and no register of it is written. A guard that is false retires the instruction with no other effect
(R194). -/
def Obligations.IllegalAndGuardedWords : Prop :=
  ∀ (s : State) (i : Instr) (op : CoreOp) (c : Nat) (w e : W64), coreRow i = some (op, c, w, e) →
    let k := s.core c
    let n := w.toNat
    let issues : Prop := k.mode = .running ∧ k.hold = none ∧ k.stopping = false ∧ debugHolds s c = false
    let inCode : Prop := pcInRange k 8 = true ∧ bits n 63 56 ≠ 0xFF
    let shaped : Prop := bit n 63 = op.wide ∧ (op.wide = true → bits e.toNat 63 56 = 0xFF ∧ pcInRange k 16 = true)
    let guard := bits n 55 52
    let traps : Prop := ∃ t, exec i s = .next t ∧ (t.core c).mode = .trapped ∧ (t.core c).trapValid = true ∧
      (t.core c).trapCause = 1 ∧ (t.core c).trapPc = k.pc.setWidth 32 ∧ (t.core c).held = false ∧
      (t.core c).mxeQ = [] ∧ (t.core c).vecQ = [] ∧ (t.core c).dmaQ = [] ∧ (t.core c).x = k.x ∧ (t.core c).f = k.f ∧
      (t.core c).v = k.v ∧ (t.core c).p = k.p ∧ (t.core c).d = k.d ∧ (t.core c).ob = k.ob ∧ t.mem = s.mem
    (issues → k.trapValid = false → ¬ inCode ∨ coreOp n = none → traps) ∧
    (issues → k.trapValid = false → inCode → coreOp n = some op →
      ¬ shaped ∨ (1 ≤ guard ∧ guard < 8) ∨ coreLegal op n e.toNat = false → traps) ∧
    (issues → inCode → coreOp n = some op → shaped → coreLegal op n e.toNat = true → 8 ≤ guard →
      (Tab.get 0 k.p (guard % 8)).getLsbD 0 = false →
      exec i s = .next (s.retiring c (if op.wide then 16 else 8) k))

/-- Loads and stores with OB = 1 (R166, R167, R205, Table 6.6), where no granule or poison stops them: a load takes
the little-endian bytes at the operand-buffer address, sign- or zero-extended; a store writes its bytes there, those
of disabled lanes apart; `dld` and `dst` ignore address bits [5:0]; a `vst` counts the non-finite lanes of its
counting type. A 16-byte word that is written whole is poison no more (R85). Every other byte of the buffer, every
other register and all memory stay as they were. -/
def Obligations.OperandBufferAccesses : Prop :=
  ∀ (s : State) (c : Nat) (w : W64),
    let k := s.core c
    let n := w.toNat
    let a := k.xr (bits n 46 42) + BitVec.ofInt 64 (sext 32 (bits n 31 0))
    let al := a &&& ~~~63#64
    let rd := bits n 51 47
    let size := 2 ^ bits n 41 40
    let wx (v : W64) : Core := if rd = 0 then k else { k with x := Tab.set 0 k.x rd v }
    let read (a len : Nat) : Nat := ofBytes ((upFrom a len).map (Tab.get 0 k.ob))
    let readable (a len : Nat) : Prop :=
      a + len ≤ 0x100000 ∧ k.readBlocked [⟨a, len⟩] = false ∧ k.obPoisoned a len = false
    let writable (a len : Nat) : Prop := a + len ≤ 0x100000 ∧ k.writeBlocked [⟨a, len⟩] = false
    let stores (a len : Nat) (on : Nat → Bool) (v : Nat) (o : Tab Byte) (p : Tab Bool) : Prop :=
      (∀ j, Tab.get 0 o j =
        if a ≤ j ∧ j < a + len ∧ on (j - a) = true then BitVec.ofNat 8 (v / 256 ^ (j - a)) else Tab.get 0 k.ob j) ∧
      ∀ u, Tab.get false p u =
        if a ≤ 16 * u ∧ 16 * u + 16 ≤ a + len ∧ (upFrom (16 * u - a) 16).all on = true then false
        else Tab.get false k.obPoison u
    let lane (j : Nat) : Bool := bits n 35 32 = 0 ∨ (k.pr (bits n 35 32 % 8)).getLsbD (j / 4) = true
    let counted := vstNonfinite k n (fun j => bits n 35 32 == 0 || (k.pr (bits n 35 32 % 8)).getLsbD j)
    bit n 38 = true →
    (Issues s c .ld w 0 → readable a.toNat size → exec (.ld c w) s = .next (s.retiring c 8 (wx
      (if bit n 39 then BitVec.ofNat 64 (read a.toNat size)
       else BitVec.ofInt 64 (sext (8 * size) (read a.toNat size)))))) ∧
    (Issues s c .vld w 0 → readable a.toNat 256 →
      exec (.vld c w) s = .next (s.retiring c 8 { k with v := Tab.set 0 k.v rd (BitVec.ofNat 2048 (read a.toNat 256)) })) ∧
    (Issues s c .dld w 0 → readable al.toNat 64 →
      exec (.dld c w) s = .next (s.retiring c 8 { k with d := Tab.set 0 k.d rd (BitVec.ofNat 512 (read al.toNat 64)) })) ∧
    (Issues s c .st w 0 → writable a.toNat size → ∃ o p, stores a.toNat size (fun _ => true) (k.xr rd).toNat o p ∧
      exec (.st c w) s = .next (s.retiring c 8 { k with ob := o, obPoison := p })) ∧
    (Issues s c .vst w 0 → writable a.toNat 256 → k.arithTrap { nonfinite := counted } = false →
      ∃ o p, stores a.toNat 256 lane (k.vr rd).toNat o p ∧
        exec (.vst c w) s = .next (s.retiring c 8 (({ k with ob := o, obPoison := p } : Core).raise { nonfinite := counted }))) ∧
    (Issues s c .dst w 0 → writable al.toNat 64 → ∃ o p, stores al.toNat 64 (fun _ => true) (k.dr rd).toNat o p ∧
      exec (.dst c w) s = .next (s.retiring c 8 { k with ob := o, obPoison := p }))

/-- Loads from scratch (R41 to R47, R169, R205, R244): an access inside one page that translates to scratch takes the
bytes the device holds there, none of which is poison or fails its check (R84, R85). But for the slices' access
counters, and a sector of the companion that had come for the core and is dropped, nothing except the destination
register changes. -/
def Obligations.ScratchLoads : Prop :=
  ∀ (s : State) (c : Nat) (w : W64),
    let k := s.core c
    let n := w.toNat
    let a := k.xr (bits n 46 42) + BitVec.ofInt 64 (sext 32 (bits n 31 0))
    let rd := bits n 51 47
    let size := 2 ^ bits n 41 40
    let wx (v : W64) : Core := if rd = 0 then k else { k with x := Tab.set 0 k.x rd v }
    let inScratch (a : W64) (len pa : Nat) : Prop :=
      ∃ va na key, coreAddr s a len true = .ok (.loc va) ∧ va % 2 ^ 21 + len ≤ 2 ^ 21 ∧
        translate s .read va = some (pa, na) ∧ place s pa = .scratch key ∧ ScratchSound s pa len
    let read (pa len : Nat) : Nat := ofBytes ((upFrom pa len).map fun i => (peek s (passExt s c) i).getD 0)
    bit n 38 = false →
    (Issues s c .ld w 0 → ∀ pa, inScratch a size pa → ∃ q, exec (.ld c w) s = .next { (dropPass c s).retiring c 8 (wx
      (if bit n 39 then BitVec.ofNat 64 (read pa size)
       else BitVec.ofInt 64 (sext (8 * size) (read pa size)))) with ctr := q }) ∧
    (Issues s c .vld w 0 → ∀ pa, inScratch a 256 pa → ∃ q, exec (.vld c w) s = .next { (dropPass c s).retiring c 8
      { k with v := Tab.set 0 k.v rd (BitVec.ofNat 2048 (read pa 256)) } with ctr := q }) ∧
    (Issues s c .dld w 0 → ∀ pa, inScratch (a &&& ~~~63#64) 64 pa → ∃ q, exec (.dld c w) s = .next { (dropPass c s).retiring c 8
      { k with d := Tab.set 0 k.d rd (BitVec.ofNat 512 (read pa 64)) } with ctr := q })

/-- Stores to scratch (R41 to R47, R205, R244): an access inside one page that translates to scratch, outside an
enabled notice ring, writes its enabled bytes at the places the map gives their addresses. Every other byte of memory
and every register of the core stay as they were. -/
def Obligations.ScratchStores : Prop :=
  ∀ (s : State) (c : Nat) (w : W64),
    let k := s.core c
    let n := w.toNat
    let a := k.xr (bits n 46 42) + BitVec.ofInt 64 (sext 32 (bits n 31 0))
    let rd := bits n 51 47
    let size := 2 ^ bits n 41 40
    let inScratch (a : W64) (len pa : Nat) : Prop :=
      ∃ va na, coreAddr s a len false = .ok (.loc va) ∧ va % 2 ^ 21 + len ≤ 2 ^ 21 ∧
        translate s .write va = some (pa, na) ∧
        ∀ j, j < len → ∃ key, place s (pa + j) = .scratch key ∧ inNoticeRing s key = false
    let stores (pa len : Nat) (on : Nat → Bool) (v : Nat) (t : State) : Prop :=
      (∀ j key, j < len → on j = true → place s (pa + j) = .scratch key → t.byte key = BitVec.ofNat 8 (v / 256 ^ j)) ∧
      ∀ key, (∀ j, j < len → on j = true → place s (pa + j) ≠ .scratch key) → t.byte key = s.byte key
    let lane (j : Nat) : Bool := bits n 35 32 = 0 ∨ (k.pr (bits n 35 32 % 8)).getLsbD (j / 4) = true
    let counted := vstNonfinite k n (fun j => bits n 35 32 == 0 || (k.pr (bits n 35 32 % 8)).getLsbD j)
    bit n 38 = false →
    (Issues s c .st w 0 → ∀ pa, inScratch a size pa → ∃ t, exec (.st c w) s = .next t ∧
      stores pa size (fun _ => true) (k.xr rd).toNat t ∧ t.core c = k.retire 8 s.beat ∧ t.regs = s.regs ∧
      t.events = s.events ∧ t.rings = s.rings ∧ t.spr = s.spr ∧ t.runOut = s.runOut) ∧
    (Issues s c .vst w 0 → k.arithTrap { nonfinite := counted } = false → ∀ pa, inScratch a 256 pa →
      ∃ t, exec (.vst c w) s = .next t ∧ stores pa 256 lane (k.vr rd).toNat t ∧
        t.core c = (k.raise { nonfinite := counted }).retire 8 s.beat ∧ t.regs = s.regs ∧ t.events = s.events ∧
        t.rings = s.rings ∧ t.spr = s.spr ∧ t.runOut = s.runOut) ∧
    (Issues s c .dst w 0 → ∀ pa, inScratch (a &&& ~~~63#64) 64 pa → ∃ t, exec (.dst c w) s = .next t ∧
      stores pa 64 (fun _ => true) (k.dr rd).toNat t ∧ t.core c = k.retire 8 s.beat ∧ t.regs = s.regs ∧
      t.events = s.events ∧ t.rings = s.rings ∧ t.spr = s.spr ∧ t.runOut = s.runOut)

/-- Where a load traps (R51, R169 to R171, R166): register space PRIVILEGE, a peer's address REMOTE_LOAD, an address
that is not of the system TRANSLATION, the end of the operand buffer OPERAND_RANGE. The instruction writes nothing: no
register, no byte of the operand buffer and no byte of memory. Under DET the instructions whose results vary from run
to run trap with cause V_DET (R186), writing no register. -/
def Obligations.LoadAndDetTraps : Prop :=
  (∀ (s : State) (c : Nat) (w : W64),
     let k := s.core c
     let n := w.toNat
     let a := k.xr (bits n 46 42) + BitVec.ofInt 64 (sext 32 (bits n 31 0))
     let size := 2 ^ bits n 41 40
     let v := a.toNat
     let top := v % 2 ^ 48
     let inRegs : Prop := top < 0x020010000000 ∧ 0x020000000000 < top + size
     let traps (cause : Nat) : Prop := ∃ t, exec (.ld c w) s = .next t ∧ (t.core c).mode = .trapped ∧
       (t.core c).trapCause = cause ∧ (t.core c).trapPc = k.pc.setWidth 32 ∧ (t.core c).x = k.x ∧ (t.core c).ob = k.ob ∧
       t.mem = s.mem
     Issues s c .ld w 0 → k.trapValid = false →
     (bit n 38 = true → 0x100000 < v + size → traps 0x0A) ∧
     (bit n 38 = false → inRegs → traps 0x12) ∧
     (bit n 38 = false → ¬ inRegs → v / 2 ^ 48 ≠ 0 → (bits v 49 48 ≠ 0 ∨ idInSystem s (bits v 62 50) = false) →
       traps 0x11) ∧
     (bit n 38 = false → ¬ inRegs → v / 2 ^ 48 ≠ 0 → bits v 49 48 = 0 → idInSystem s (bits v 62 50) = true →
       bits v 62 50 ≠ ownId s → traps 0x13)) ∧
  (∀ (s : State) (c : Nat) (w : W64),
     let k := s.core c
     let traps (op : Instr) : Prop := ∃ t, exec op s = .next t ∧ (t.core c).mode = .trapped ∧ (t.core c).trapCause = 0x0B ∧
       (t.core c).trapPc = k.pc.setWidth 32 ∧ (t.core c).x = k.x ∧ (t.core c).v = k.v ∧ t.mem = s.mem ∧ t.nqs = s.nqs
     k.det = true → k.trapValid = false →
     (Issues s c .npost w 0 → traps (.npost c w)) ∧ (Issues s c .npop w 0 → traps (.npop c w)) ∧
     (Issues s c .tstamp w 0 → traps (.tstamp c w)) ∧ (Issues s c .cntr w 0 → traps (.cntr c w)) ∧
     (Issues s c .amoAdd w 0 → traps (.amoAdd c w)) ∧ (Issues s c .amoFadd w 0 → traps (.amoFadd c w)) ∧
     (Issues s c .amoCas w 0 → traps (.amoCas c w)))

/-- The atomics (R62, R216, R220): a naturally aligned scratch word is replaced by its sum, its FP32 sum rounded once,
or on a match the new value; the register gets the old value (the posted `amo.fadd.p` writes none). No other byte of
memory and no other register of the core changes. -/
def Obligations.AtomicsOfScratch : Prop :=
  ∀ (s : State) (c : Nat) (w : W64) (va pa : Nat) (na : Bool) (key : Nat),
    let k := s.core c
    let n := w.toNat
    let fn := bits n 31 24
    let rd := bits n 51 47
    let wx (v : Nat) : Core := if rd = 0 then k else { k with x := Tab.set 0 k.x rd (BitVec.ofNat 64 v) }
    let a := k.xr (bits n 46 42)
    let b := (k.xr (bits n 41 37)).toNat
    let cmp := (k.xr (bits n 36 32)).toNat
    let word (t : State) (len : Nat) : Nat := ofBytes ((upFrom key len).map t.byte)
    let reaches (len : Nat) : Prop := coreAddr s a len true = .ok (.loc va) ∧ a.toNat % len = 0
    let done (op : Instr) (k' : Core) (len new : Nat) : Prop := ∃ t, exec op s = .next t ∧ word t len = new ∧
      (∀ i, (i < key ∨ key + len ≤ i) → t.byte i = s.byte i) ∧ t.core c = k'.retire 8 s.beat ∧ t.regs = s.regs ∧
      t.events = s.events ∧ t.rings = s.rings
    translate s .write va = some (pa, na) → place s pa = .scratch key → s.isPoison key = false →
    s.wordState (key / 16) = .clean → (∀ j, j < 8 → inNoticeRing s (key + j) = false) → k.det = false →
    let len := if fn = 0 ∨ fn = 4 then 4 else 8
    (Issues s c .amoAdd w 0 → reaches len →
      done (.amoAdd c w) (wx (word s len)) len ((word s len + b) % 2 ^ (8 * len))) ∧
    (Issues s c .amoFadd w 0 → reaches 4 →
      done (.amoFadd c w) (if fn = 2 then wx (word s 4) else k) 4
        ((fadd FFmt.fp32 (word s 4) (b % 2 ^ 32)).1 % 2 ^ 32)) ∧
    (Issues s c .amoCas w 0 → reaches len →
      done (.amoCas c w) (wx (word s len)) len
        (if word s len = cmp % 2 ^ (8 * len) then b % 2 ^ (8 * len) else word s len))

/-- The DMA engine's instructions (R198, R205 to R207, R217, R301, Table 6.8). A checked `dma`, `put` or `racc` enters
the engine with its descriptors as they stand; a `dma` of an empty tensor retires at once; `dwait` retires when no
transfer of its tags is outstanding, `fence.l` at once, `fence.a` when the engine is empty, `fence.r` when besides
every put is acknowledged. Nothing else changes. -/
def Obligations.DmaInstructionResults : Prop :=
  ∀ (s : State) (c : Nat) (w : W64),
    let k := s.core c
    let n := w.toNat
    let ds := Tab.get 0 k.d (bits n 51 48)
    let dd := Tab.get 0 k.d (bits n 47 44)
    let entered (kind : DmaKind) : State := s.issuing c { k with dmaQ := k.dmaQ ++
      [{ kind := kind, src := ds, dst := dd, tag := bits n 43 40, flagAddr := k.xr (bits n 39 35),
         flagVal := k.xr (bits n 34 30), tileLo := k.tileLo, tileHi := k.tileHi, pc := k.pc }] }
    let alike : Prop := checkDesc ds = .ok () ∧ checkDesc dd = .ok () ∧ Desc.dim0 ds = Desc.dim0 dd ∧
      Desc.dim1 ds = Desc.dim1 dd ∧ Desc.dim2 ds = Desc.dim2 dd ∧ Desc.fmt ds = Desc.fmt dd
    let empty : Prop := Desc.dim0 ds = 0 ∨ Desc.dim1 ds = 0 ∨ Desc.dim2 ds = 0
    (Issues s c .dma w 0 → alike → empty → exec (.dma c w) s = .next (s.retiring c 8 k)) ∧
    (Issues s c .dma w 0 → alike → ¬ empty → k.dmaQ.length < 16 → exec (.dma c w) s = .next (entered .dma)) ∧
    (Issues s c .put w 0 → alike → Desc.inOb dd = false → k.dmaQ.length < 16 → exec (.put c w) s = .next (entered .put)) ∧
    (Issues s c .racc w 0 → raccCheck s k n = .ok () → k.dmaQ.length < 16 →
      exec (.racc c w) s = .next (entered .racc)) ∧
    (Issues s c .dwait w 0 → (∀ e ∈ k.dmaQ, (bits n 15 0).testBit e.tag = false) →
      exec (.dwait c w) s = .next (s.retiring c 8 k)) ∧
    (Issues s c .fenceL w 0 → exec (.fenceL c w) s = .next (s.retiring c 8 k)) ∧
    (Issues s c .fenceA w 0 → k.dmaQ = [] → exec (.fenceA c w) s = .next (s.retiring c 8 k)) ∧
    (Issues s c .fenceR w 0 → k.dmaQ = [] → k.putsOut = 0 → exec (.fenceR c w) s = .next (s.retiring c 8 k))

/-- A completion of the core's units (R197, R206, R221): the oldest entry leaves its queue and is counted as retired.
A `dma` of one row between two places of the operand buffer that do not overlap has then copied its bytes, and a
matrix or vector instruction has raised its conditions, when no enabled one makes it trap. Other cores, memory and
registers stay as they were. -/
def Obligations.UnitCompletions : Prop :=
  ∀ (s : State) (c : Nat) (ext : Ext),
    let k := s.core c
    let done (k' : Core) : Core := { k' with retired := k'.retired + 1, lastRetire := s.beat }
    let rest (t : State) : Prop := OthersKeep s t c ∧ t.mem = s.mem ∧ t.regs = s.regs ∧ t.events = s.events
    k.hold = none →
    (∀ e q, k.dmaQ = e :: q → cruHolds s = false → s.win.misses = [] → e.kind = .dma → Desc.inOb e.src = true → Desc.inOb e.dst = true →
      Desc.dim0 e.src ≠ 0 → Desc.dim1 e.src = 1 → Desc.dim2 e.src = 1 → (Desc.fmt e.src).isBlock = false →
      k.obPoisoned (Desc.base e.src) (Desc.rowBytes e.src) = false →
      (Desc.base e.src + Desc.rowBytes e.src ≤ Desc.base e.dst ∨ Desc.base e.dst + Desc.rowBytes e.src ≤ Desc.base e.src) →
      ∃ t o p, exec (.dmaDone c ext) s = .next t ∧ rest t ∧
        t.core c = done { k with dmaQ := q, ob := o, obPoison := p, dmaBytes := k.dmaBytes + BitVec.ofNat 64 (Desc.rowBytes e.src) } ∧
        ∀ j, Tab.get 0 o j = if Desc.base e.dst ≤ j ∧ j < Desc.base e.dst + Desc.rowBytes e.src
          then Tab.get 0 k.ob (Desc.base e.src + (j - Desc.base e.dst)) else Tab.get 0 k.ob j) ∧
    (∀ e q, k.mxeQ = e :: q → (k.mode = .running → k.arithTrap e.conds = false) →
      ∃ t, exec (.mxeDone c) s = .next t ∧ rest t ∧ t.core c = done ({ k with mxeQ := q }.raise e.conds)) ∧
    (∀ e q, k.vecQ = e :: q → (k.mode = .running → k.arithTrap e.conds = false) →
      ∃ t, exec (.vectorDone c) s = .next t ∧ rest t ∧ t.core c = done ({ k with vecQ := q }.raise e.conds))

/-- Events, words and waits (R215, R268, R269): `erec` raises a slot to its value and never lowers it; `ewait` and
`mwait` retire at once when their condition holds, wait when it does not, and retire at their wake once a write has
met it. Time-stamps and counters (R216, R387, Table 6.16): outside DET `tstamp` reads the copy of the Beat of the
core's die while that copy does not reload; `tstamp.t` only traces; `cntr` reads NONFINITE, FLUSHED, retired
instructions, MXE busy steps, the steps stalled on operand-buffer granules and DMA bytes, the first two coarsened
under seal. -/
def Obligations.WaitsAndTime : Prop :=
  (∀ (s : State) (c : Nat) (w : W64),
     let k := s.core c
     let n := w.toNat
     let a := k.xr (bits n 46 42)
     let b := k.xr (bits n 41 37)
     let slot := a.toNat % 4096
     let va := bits a.toNat 47 3 * 8
     let outside : Prop := va + 8 ≤ 0x020000000000 ∨ 0x020010000000 ≤ va
     let holds (v : W64) : Prop := if bits n 31 24 = 0 then b.toNat ≤ v.toNat else if bits n 31 24 = 1 then v = b else v ≠ b
     let waits (op : Instr) : Prop := ∃ t, exec op s = .next t ∧ t.mem = s.mem ∧ t.regs = s.regs ∧ OthersKeep s t c ∧
       t.core c = { k with hold := some { w := w, e := 0, markT := true, met := false } }
     (Issues s c .erec w 0 → ∃ t, exec (.erec c w) s = .next t ∧ t.core c = k.retire 8 s.beat ∧ t.mem = s.mem ∧
       t.regs = s.regs ∧ (t.event slot).toNat = max (s.event slot).toNat b.toNat ∧
       ∀ j, j < 4096 → j ≠ slot → t.event j = s.event j) ∧
     (Issues s c .ewait w 0 → b.toNat ≤ (s.event slot).toNat → exec (.ewait c w) s = .next (s.retiring c 8 k)) ∧
     (Issues s c .ewait w 0 → (s.event slot).toNat < b.toNat → waits (.ewait c w)) ∧
     (Issues s c .mwait w 0 → outside → ∀ pa na key, translate s .read va = some (pa, na) →
       place s pa = .scratch key → s.isPoison key = false → s.wordState (key / 16) = .clean →
       (holds (wordAt s key) → exec (.mwait c w) s = .next (s.retiring c 8 k)) ∧
       (¬ holds (wordAt s key) → waits (.mwait c w))) ∧
     (∀ h, k.hold = some h → h.met = true →
       let woken : Core := { k with hold := none, pc := k.pc + 8, retired := k.retired + 1, lastRetire := s.beat }
       (bits h.w.toNat 62 56 = 0x61 → exec (.ewaitWake c) s = .next (s.setCore c woken)) ∧
       (bits h.w.toNat 62 56 = 0x62 → exec (.mwaitWake c) s = .next (s.setCore c woken)))) ∧
  (∀ (s : State) (c : Nat) (w : W64),
     let k := s.core c
     let n := w.toNat
     let rd := bits n 51 47
     let sel := bits n 23 0 % 256
     let wx (v : W64) : Core := if rd = 0 then k else { k with x := Tab.set 0 k.x rd v }
     let coarse (v : Nat) : Nat := if s.flag Reg.glbState 12 = false ∨ v = 0 then v else 16 ^ (Nat.log2 v / 4)
     let value : Nat :=
       if sel = 0 then coarse k.nonfinite.toNat else if sel = 1 then coarse k.flushed.toNat
       else if sel = 2 then k.retired.toNat else if sel = 3 then k.mxeBusy.toNat
       else if sel = 4 then k.stalled / 1000 else k.dmaBytes.toNat
     let reloads : Bool := s.reloading.any fun p => p.1 == c / 8
     (Issues s c .tstamp w 0 → k.det = false → reloads = false →
       exec (.tstamp c w) s = .next (s.retiring c 8 (wx (s.copyOf (c / 8))))) ∧
     (Issues s c .tstampT w 0 → reloads = false →
       ∃ r st, exec (.tstampT c w) s = .next { s.retiring c 8 k with regs := r, streams := st }) ∧
     (Issues s c .cntr w 0 → k.det = false →
       exec (.cntr c w) s = .next (s.retiring c 8 (wx (BitVec.ofNat 64 value)))))

/-- `npost` and `npop` outside DET, on a queue whose ring does not lie in the cache window's part of the Crucible
(R51, R66 to R69, R73, R215, Table 6.15). A post of a software TYPE to an enabled queue with room enters its entry
with the core as SOURCE and answers 0; to a disabled or a full queue it answers 1 and enters none; of another TYPE it
answers 2. A pop answers the GAP notice first, then the oldest entry of the highest priority, then EMPTY, and removes
what it answers; a pop of a disabled queue answers EMPTY. -/
def Obligations.NoticeInstructionResults : Prop :=
  ∀ (s : State) (c : Nat) (w : W64),
    let k := s.core c
    let n := w.toNat
    let rd := bits n 51 47
    let q := bits (k.xr (bits n 46 42)).toNat 5 0
    let type := bits n 31 24
    let payload := (k.xr (bits n 41 37)).toNat + (k.xr (bits n 36 32)).toNat * 2 ^ 64
    let wx (v : W64) : Core := if rd = 0 then k else { k with x := Tab.set 0 k.x rd v }
    let software : Prop := 0x10 ≤ type ∧ type ≤ 0x3F
    let full : Prop := 2 ^ (s.nq q).depth - 1 ≤ (s.nq q).entries.length
    let otherQueues (t : State) : Prop := ∀ j, j ≠ q → t.nq j = s.nq j
    let posts (v : W64) (es : List W256) : Prop := ∃ t, exec (.npost c w) s = .next t ∧ t.core c = (wx v).retire 8 s.beat ∧
      (t.nq q).entries = es ∧ otherQueues t ∧ OthersKeep s t c ∧ t.mem = s.mem ∧ t.events = s.events
    let pops (e : W256) (gap : Option W256) (es : List W256) : Prop := ∃ t, exec (.npop c w) s = .next t ∧
      t.core c = ({ k with v := Tab.set 0 k.v rd (e.setWidth 2048) } : Core).retire 8 s.beat ∧
      (t.nq q).gap = gap ∧ (t.nq q).entries = es ∧ otherQueues t ∧ OthersKeep s t c ∧ t.mem = s.mem ∧ t.regs = s.regs
    k.det = false → nqInWindow s q = false → (s.nq q).flushed = none →
    (Issues s c .npost w 0 → software → nqEnabled s q = true → ¬ full →
      posts 0 ((s.nq q).entries ++
        [mkNotice type (bits n 1 0) c (s.reg (Reg.nqPosted q)).toNat (s.copyOf (32 + q % 16)) payload])) ∧
    (Issues s c .npost w 0 → software → (nqEnabled s q = false ∨ full) → posts 1 (s.nq q).entries) ∧
    (Issues s c .npost w 0 → ¬ software → posts 2 (s.nq q).entries) ∧
    (Issues s c .npop w 0 → nqEnabled s q = true → ∀ g, (s.nq q).gap = some g → pops g none (s.nq q).entries) ∧
    (Issues s c .npop w 0 → nqEnabled s q = true → (s.nq q).gap = none →
      ∀ before e after, (s.nq q).entries = before ++ e :: after → (∀ b ∈ before, noticePrio b < noticePrio e) →
        (∀ a ∈ after, noticePrio a ≤ noticePrio e) → pops e none (before ++ after)) ∧
    (Issues s c .npop w 0 → nqEnabled s q = true → (s.nq q).gap = none → (s.nq q).entries = [] →
      ∃ e, noticeType e = 0 ∧ pops e none []) ∧
    (Issues s c .npop w 0 → nqEnabled s q = false → ∃ e, noticeType e = 0 ∧ pops e (s.nq q).gap (s.nq q).entries)

/-- `take` outside DET, with every write of the held tile accepted and no contribution to commit (R178 to R181): a
disabled counter answers bit 62; the oldest index of the reissue list goes out first; an exhausted counter answers bit
63; else the next index goes out and INDEX rises by one. The counter's generation stands in bits [47:32]. The core
gives up the tile it held and holds the one it took. -/
def Obligations.TakeResults : Prop :=
  ∀ (s : State) (c : Nat) (w : W64),
    let k := s.core c
    let x := w.toNat
    let rd := bits x 51 47
    let n := if bits x 41 32 = 0 then bits x 9 0 else bits (k.xr (bits x 46 42)).toNat 9 0
    let gen := s.fld (Reg.wcGen n) 15 0
    let index := s.reg (Reg.wcIndex n)
    let limit := s.reg (Reg.wcLimit n)
    let answers (s' : State) (v : Nat) (k' : Core) : Prop := ∃ t, exec (.take c w) s = .next t ∧
      t.core c = (if rd = 0 then k' else { k' with x := Tab.set 0 k'.x rd (BitVec.ofNat 64 v) }).retire 8 s.beat ∧
      OthersKeep s t c ∧ t.wcs = s'.wcs ∧ t.regs = s'.regs ∧ t.mem = s.mem ∧ t.events = s.events ∧ t.localPath = s.localPath
    let holds (i : W32) : Core :=
      { k with tileLo := i, took := true, tileHi := BitVec.ofNat 32 (gen + n * 2 ^ 16 + 2 ^ 31) }
    Issues s c .take w 0 → k.det = false → (k.held = true → k.dmaQ = []) → k.tilePairs = [] →
    (s.flag (Reg.wcCtl n) 0 = false → answers s (2 ^ 62) k.clearHeld) ∧
    (s.flag (Reg.wcCtl n) 0 = true → ∀ i rest, (s.wc n).reissue = i :: rest →
      answers (s.modWc n fun u => { u with reissue := rest }) (i.toNat + gen * 2 ^ 32) (holds i)) ∧
    (s.flag (Reg.wcCtl n) 0 = true → (s.wc n).reissue = [] → limit.toNat ≤ index.toNat →
      answers s (index.toNat + gen * 2 ^ 32 + 2 ^ 63) k.clearHeld) ∧
    (s.flag (Reg.wcCtl n) 0 = true → (s.wc n).reissue = [] → index.toNat < limit.toNat →
      answers (s.setReg (Reg.wcIndex n) (index + 1)) (index.toNat + gen * 2 ^ 32) (holds index))

/-- The end of a tile and of a kernel (R181, R308): `tend` sends RACC_COMMIT for the held tile to every owner it
contributed to, here owners on this device, and gives the tile up; `end` with nothing outstanding ends the core's
part, which becomes IDLE, and only traces beyond the core. -/
def Obligations.TileAndKernelEnds : Prop :=
  ∀ (s : State) (c : Nat) (w : W64),
    let k := s.core c
    let commit (p : RedPair) : RunMsg :=
      { opc := 0x11, vc := dataVc (ownId s) p.owner, dest := p.owner, src := ownId s, stream := c % 256,
        ring := (coreRing s c).1, seq := (coreRing s c).2,
        ext := some (redExt p.layer p.red p.deadline k.tileLo.toNat k.tileHi.toNat 0 0 0 0) }
    (Issues s c .tend w 0 → (k.held = true → k.dmaQ = []) → (∀ p ∈ k.tilePairs, p.owner = ownId s) →
      exec (.tend c w) s = .next { s.retiring c 8 { k.clearHeld with tilePairs := [] } with
        localPath := s.localPath ++ (if k.held then k.tilePairs.map commit else []) }) ∧
    (Issues s c .kernelEnd w 0 → k.dmaQ = [] → k.mxeQ = [] → k.vecQ = [] → k.tilePairs = [] → k.endPairs = [] →
      ∃ t r st, exec (.kernelEnd c w) s = .next t ∧ OthersKeep s t c ∧
        t = { s with cores := t.cores, dbg := t.dbg, regs := r, streams := st } ∧
        t.core c = { k.retire 8 s.beat with mode := .idle, hold := none, prev := true,
                                            tileHi := k.tileHi &&& 0x7FFFFFFF#32 })

/-- The stage-queue instructions on a queue both of whose ends are on this device and whose slots do not lie in the
cache window's part of the Crucible (R51, R74 to R77, R218, Table 6.17). A reservation answers the first slot's
address and takes its slots; a publish of the oldest reservation makes it visible; a pop answers the oldest visible
entry's address and length; a release returns its slots. Without credits or entries the instruction waits, and its
wake runs it again; a queue or end that is not here answers code 2. The wakes of the stage-queue waits (R218): a core
held in `sqres` or `sqpop` whose queue now has the credits or the entry gets its answer and goes on. -/
def Obligations.StageQueueTraffic : Prop :=
  (∀ (s : State) (c : Nat) (w : W64),
     let k := s.core c
     let n := w.toNat
     let rd := bits n 51 47
     let q := bits n 7 0
     let u := s.sq q
     let slot := 4096 * 2 ^ s.fld (Reg.sqCtl q) 12 8
     let slots := s.fld (Reg.sqCtl q) 22 16
     let base := s.fld (Reg.sqBaseHi q) 15 0 * 2 ^ 32 + s.fld (Reg.sqBaseLo q) 31 12 * 4096
     let len := (k.xr (bits n 46 42)).toNat
     let need := max 1 ((len + slot - 1) / slot)
     let wx (k : Core) (r v : Nat) : Core := if r = 0 then k else { k with x := Tab.set 0 k.x r (BitVec.ofNat 64 v) }
     let on (endBit : Nat) : Prop := s.flag (Reg.sqCtl q) 0 = true ∧ s.flag (Reg.sqCtl q) endBit = true
     let waits (op : Instr) : Prop := ∃ t, exec op s = .next t ∧ t.sqs = s.sqs ∧ t.mem = s.mem ∧
       t.core c = { k with hold := some { w := w, e := 0, markT := true, met := false } }
     let reserved : State := s.modSq q fun u =>
       { u with next := (u.next + need) % slots, used := u.used + need,
                reserved := u.reserved ++ [{ first := u.next, count := need, len := none }] }
     let popped (rest : List SqEntry) (e : SqEntry) : State := s.modSq q fun u =>
       { u with visible := rest, popped := u.popped ++ [e] }
     s.flag (Reg.sqPeer q) 31 = false → sqInWindow s q = false →
     (Issues s c .sqres w 0 → on 1 → need ≤ slots → need ≤ slots - u.used →
       exec (.sqres c w) s = .next (reserved.retiring c 8 (wx k rd (base + u.next * slot)))) ∧
     (Issues s c .sqres w 0 → on 1 → need ≤ slots → slots - u.used < need → u.lost = false → waits (.sqres c w)) ∧
     (Issues s c .sqres w 0 → ¬ on 1 → exec (.sqres c w) s = .next (s.retiring c 8 (wx k rd (2 ^ 63 + 2)))) ∧
     (Issues s c .sqpub w 0 → on 1 → ∀ e more, u.reserved = e :: more → e.len = none →
       len % 2 ^ 48 = base + e.first * slot → (k.xr (bits n 41 37)).toNat ≤ e.count * slot →
       (∀ m ∈ more, m.len = none ∧ m.first ≠ e.first) →
       let shown : SqEntry := { e with len := some (k.xr (bits n 41 37)) }
       ∃ t, exec (.sqpub c w) s = .next t ∧ t.core c = (wx k rd 0).retire 8 s.beat ∧ OthersKeep s t c ∧
         t.sq q = { u with reserved := more, visible := u.visible ++ [shown] } ∧ (∀ j, j ≠ q → t.sq j = s.sq j) ∧
         t.mem = s.mem ∧ t.regs = s.regs) ∧
     (Issues s c .sqpop w 0 → on 2 → ∀ e rest, u.visible = e :: rest →
       exec (.sqpop c w) s = .next ((popped rest e).retiring c 8
         (wx (wx k rd (base + e.first * slot)) (rd + 1) (e.len.getD 0).toNat))) ∧
     (Issues s c .sqpop w 0 → on 2 → u.visible = [] → u.lost = false → waits (.sqpop c w)) ∧
     (Issues s c .sqrel w 0 → on 2 → ∀ e rest, u.popped = e :: rest →
       ∃ t, exec (.sqrel c w) s = .next t ∧ t.core c = (wx k rd 0).retire 8 s.beat ∧ OthersKeep s t c ∧
         t.sq q = { u with popped := rest, used := u.used - e.count } ∧ (∀ j, j ≠ q → t.sq j = s.sq j) ∧
         t.mem = s.mem ∧ t.regs = s.regs)) ∧
  (∀ (s : State) (c : Nat) (h : Hold),
     let k := { s.core c with hold := none }
     let n := h.w.toNat
     let rd := bits n 51 47
     let q := bits n 7 0
     let u := s.sq q
     let slot := 4096 * 2 ^ s.fld (Reg.sqCtl q) 12 8
     let slots := s.fld (Reg.sqCtl q) 22 16
     let base := s.fld (Reg.sqBaseHi q) 15 0 * 2 ^ 32 + s.fld (Reg.sqBaseLo q) 31 12 * 4096
     let need := max 1 (((k.xr (bits n 46 42)).toNat + slot - 1) / slot)
     let wx (k : Core) (r v : Nat) : Core := if r = 0 then k else { k with x := Tab.set 0 k.x r (BitVec.ofNat 64 v) }
     (s.core c).hold = some h → h.met = false → cruHolds s = false → s.flag (Reg.sqCtl q) 0 = true →
     s.flag (Reg.sqPeer q) 31 = false → sqInWindow s q = false → (s.core c).stopping = false →
     (coreOp n = some .sqres → s.flag (Reg.sqCtl q) 1 = true → need ≤ slots → need ≤ slots - u.used →
       ∃ t, exec (.sqresWake c) s = .next t ∧ t.core c = (wx k rd (base + u.next * slot)).retire 8 s.beat ∧
         OthersKeep s t c ∧ (t.sq q).reserved = u.reserved ++ [{ first := u.next, count := need, len := none }] ∧
         (t.sq q).used = u.used + need ∧ t.mem = s.mem ∧ t.regs = s.regs) ∧
     (coreOp n = some .sqpop → s.flag (Reg.sqCtl q) 2 = true → ∀ e rest, u.visible = e :: rest →
       ∃ t, exec (.sqpopWake c) s = .next t ∧
         t.core c = (wx (wx k rd (base + e.first * slot)) (rd + 1) (e.len.getD 0).toNat).retire 8 s.beat ∧
         OthersKeep s t c ∧ (t.sq q).visible = rest ∧ (t.sq q).popped = u.popped ++ [e] ∧ t.mem = s.mem ∧ t.regs = s.regs))

/-- The lane-wise vector instructions (R212, R213) with room in the vector queue: every enabled lane of VD takes the
result of the operation on the same lanes of VA, VB and VC, every other lane keeps its value, and the conditions of
the enabled lanes wait in the queue for the retirement (R221). Nothing else changes. -/
def Obligations.VectorLaneResults : Prop :=
  ∀ (s : State) (c : Nat) (w : W64),
    let k := s.core c
    let n := w.toNat
    let rd := bits n 51 47
    let ty := bits n 27 24
    let fn := bits n 23 16
    let lane (b : Nat) (v : W2048) (i : Nat) : Nat := (v.extractLsb' (b * i) b).toNat
    let v (r : Nat) : W2048 := Tab.get 0 k.v r
    let on (j : Nat) : Bool := !bit n 31 || (Tab.get 0 k.p (bits n 30 28)).getLsbD j
    let lanewise (op : Instr) (b : Nat) (f : Nat → Nat × Conds) : Prop :=
      let live := (List.range (2048 / b)).filter fun i => on (i / (32 / b))
      ∃ V, exec op s = .next (s.issuing c
        { k with v := Tab.set 0 k.v rd V
                 vecQ := k.vecQ ++ [{ pc := k.pc, conds := Conds.joinAll (live.map fun i => (f i).2) }] }) ∧
        ∀ i, i < 2048 / b → lane b V i = if on (i / (32 / b)) then (f i).1 % 2 ^ b else lane b (v rd) i
    let b := if ty = 1 ∨ ty = 2 then 16 else 32
    let F := if ty = 1 then FFmt.bf16 else if ty = 2 then FFmt.fp16 else FFmt.fp32
    let A (b i : Nat) := lane b (v (bits n 46 42)) i
    let B (b i : Nat) := lane b (v (bits n 41 37)) i
    let C (b i : Nat) := lane b (v (bits n 36 32)) i
    let W (x : Nat) : W32 := BitVec.ofNat 32 x
    let scalar := bits n 15 11
    let rounded := F.encode .rne 0 false (FFmt.fp32.decode (Tab.get 0 k.f scalar).toNat)
    let sent : Nat × Conds :=
      if fn = 0 then ((k.xr scalar).toNat % 2 ^ 32, .none)
      else if b = 16 then (rounded.1 * (2 ^ 16 + 1), rounded.2) else ((Tab.get 0 k.f scalar).toNat, .none)
    k.vecQ.length < 8 →
    (Issues s c .vectorArith w 0 → lanewise (.vectorArith c w) b fun i =>
      if fn = 0 then fadd F (A b i) (B b i) else if fn = 1 then fsub F (A b i) (B b i) else if fn = 2 then fmul F (A b i) (B b i)
      else if fn = 3 then ffma F (A b i) (B b i) (C b i) else if fn = 4 then fmin F (A b i) (B b i)
      else if fn = 5 then fmax F (A b i) (B b i) else if fn = 6 then F.rne (F.decode (A b i)).abs
      else F.rne (F.decode (A b i)).neg) ∧
    (Issues s c .vectorDivSqrt w 0 → lanewise (.vectorDivSqrt c w) 32 fun i =>
      if fn = 8 then fdiv .fp32 (A 32 i) (B 32 i) else fsqrt .fp32 (A 32 i)) ∧
    (Issues s c .vectorFunction w 0 → lanewise (.vectorFunction c w) b fun i =>
      if fn = 10 then fexp (A b i) else if fn = 11 then frelu F (A b i) else if fn = 12 then fsilu (A b i)
      else fgelu (A b i)) ∧
    (Issues s c .vectorBitwise w 0 → lanewise (.vectorBitwise c w) 32 fun i =>
      ((if fn = 14 then W (A 32 i) &&& W (B 32 i) else if fn = 15 then W (A 32 i) ||| W (B 32 i)
        else if fn = 16 then W (A 32 i) ^^^ W (B 32 i) else if fn = 17 then W (A 32 i) <<< (B 32 i % 32)
        else if fn = 18 then W (A 32 i) >>> (B 32 i % 32) else (W (A 32 i)).sshiftRight (B 32 i % 32)).toNat, .none)) ∧
    (Issues s c .vmov w 0 → lanewise (.vmov c w) b fun i => (A b i, .none)) ∧
    (Issues s c .vsel w 0 → lanewise (.vsel c w) 32 fun i =>
      (if (Tab.get 0 k.p (bits n 36 32)).getLsbD i then A 32 i else B 32 i, .none)) ∧
    (Issues s c .vbcast w 0 → ∃ V cd, exec (.vbcast c w) s = .next (s.issuing c
        { k with v := Tab.set 0 k.v rd V, vecQ := k.vecQ ++ [{ pc := k.pc, conds := cd }] }) ∧ cd = sent.2 ∧
      ∀ i, i < 64 → lane 32 V i = if on i then sent.1 % 2 ^ 32 else lane 32 (v rd) i)

/-- The vector instructions that reduce or compare lanes (R149, R213) with room in the vector queue: `vcmp` sets the
bit of each enabled lane whose comparison holds; `vlane` reads one lane; `vred` takes the tree sum, with +0 in
disabled lanes, or the maximum or minimum of the enabled lanes; `vred.isum` the exact signed sum. Nothing else
changes. -/
def Obligations.VectorReductionResults : Prop :=
  ∀ (s : State) (c : Nat) (w : W64),
    let k := s.core c
    let n := w.toNat
    let fn := bits n 23 16
    let lane (r i : Nat) : Nat := ((Tab.get 0 k.v r).extractLsb' (32 * i) 32).toNat
    let A (i : Nat) := lane (bits n 46 42) i
    let B (i : Nat) := lane (bits n 41 37) i
    let on (j : Nat) : Bool := !bit n 31 || (Tab.get 0 k.p (bits n 30 28)).getLsbD j
    let live := (List.range 64).filter on
    let x := FFmt.fp32
    let cmp (i : Nat) : Bool :=
      if bits n 27 24 = 3 then
        let a := sext 32 (A i)
        let b := sext 32 (B i)
        if fn = 0 then a == b else if fn = 1 then a != b else if fn = 2 then a < b else a ≤ b
      else if Val.unordered (x.decode (A i)) (x.decode (B i)) then fn == 1
      else
        let o := Val.cmp (x.decode (A i)) (x.decode (B i))
        if fn = 0 then o == .eq else if fn = 1 then o != .eq else if fn = 2 then o == .lt else o != .gt
    let sum := treeSum 6 ((List.range 64).map fun j => if on j then A j else 0)
    let queued (cd : Conds) (k' : Core) : State := s.issuing c { k' with vecQ := k.vecQ ++ [{ pc := k.pc, conds := cd }] }
    let rb := bits n 41 37
    let wx (v : W64) : Core := if rb = 0 then k else { k with x := Tab.set 0 k.x rb v }
    let wf (v : Nat) : Core := { k with f := Tab.set 0 k.f rb (BitVec.ofNat 32 v) }
    k.vecQ.length < 8 →
    (Issues s c .vcmp w 0 → ∃ P, exec (.vcmp c w) s =
        .next (queued .none { k with p := Tab.set 0 k.p (bits n 51 47) P }) ∧
      ∀ j, j < 64 → P.getLsbD j = (on j && cmp j)) ∧
    (Issues s c .vlane w 0 → bits n 10 0 < 64 →
      exec (.vlane c w) s = .next (queued .none (wx (BitVec.ofNat 64 (A (bits n 10 0)))))) ∧
    (Issues s c .vred w 0 →
      (fn = 0 → exec (.vred c w) s = .next (queued sum.2 (wf sum.1))) ∧
      (fn = 1 → exec (.vred c w) s = .next (queued .none
        (wf (live.foldl (fun m j => (fmax .fp32 m (A j)).1) 0xFF800000)))) ∧
      (fn = 2 → exec (.vred c w) s = .next (queued .none
        (wf (live.foldl (fun m j => (fmin .fp32 m (A j)).1) 0x7F800000))))) ∧
    (Issues s c .vredIsum w 0 →
      exec (.vredIsum c w) s = .next (queued .none (wx (BitVec.ofInt 64 (live.map fun j => sext 32 (A j)).sum))))

/-- The conversion instructions (R188, R214) with room in the vector queue: `vcvt` converts element by element with
the rounding the word names, drawing element i's random value at position X + i; `vquant` quantises lanes 0 to 31 and
32 to 63 as two blocks and answers their scale entries; `vdeq` decodes them back. Nothing else of the core but the
queue changes. -/
def Obligations.VectorConversionResults : Prop :=
  ∀ (s : State) (c : Nat) (w : W64),
    let k := s.core c
    let n := w.toNat
    let rd := bits n 51 47
    let rb := bits n 41 37
    let va := Tab.get 0 k.v (bits n 46 42)
    let lane (b : Nat) (v : W2048) (i : Nat) : Nat := (v.extractLsb' (b * i) b).toNat
    let pos := (k.xr (bits n 15 11)).toNat
    let rnd := if bits n 17 16 = 0 then Rnd.rne else if bits n 17 16 = 1 then Rnd.rtz else Rnd.sr
    let tile := if k.took then k.tileLo.toNat else 0
    let random (i : Nat) : Nat := srRandom k.srSeed.toNat tile ((pos + i) % 2 ^ 64)
    let issues (op : Instr) (V : W2048) (k' : Core) : Prop := ∃ cd, exec op s = .next (s.issuing c
      { k' with v := Tab.set 0 k.v rd V, vecQ := k.vecQ ++ [{ pc := k.pc, conds := cd }] })
    k.vecQ.length < 8 →
    (Issues s c .vcvt w 0 → ∀ fr dest, Fmt.ofCode (bits n 27 23) = some fr → Fmt.ofCode (bits n 22 18) = some dest →
      ∃ V, issues (.vcvt c w) V k ∧ ∀ i, i < 64 → lane dest.bits V i =
        (convertTo dest rnd (random i) (bit n 10) (fr.elemVal (lane fr.bits va i))).1 % 2 ^ dest.bits) ∧
    (Issues s c .vquant w 0 → ∀ f, Fmt.ofCode (bits n 27 23) = some f →
      let block (j : Nat) : Block := (quantBlock f rnd (fun i => random (32 * j + i))
        ((List.range 32).map fun i => FFmt.fp32.decode (lane 32 va (32 * j + i)))).1
      let entries : W64 := BitVec.ofNat 64 ((block 0).entry + (block 1).entry * 2 ^ (8 * f.scaleBytes))
      ∃ V, issues (.vquant c w) V (if rb = 0 then k else { k with x := Tab.set 0 k.x rb entries }) ∧
        ∀ i, i < 64 → lane f.bits V i = (block (i / 32)).codes.getD (i % 32) 0 % 2 ^ f.bits) ∧
    (Issues s c .vdeq w 0 → ∀ f, Fmt.ofCode (bits n 27 23) = some f →
      let entry (j : Nat) : Nat := (k.xr rb).toNat / 2 ^ (8 * f.scaleBytes * j) % 2 ^ (8 * f.scaleBytes)
      ∃ V, issues (.vdeq c w) V k ∧ ∀ i, i < 64 → lane 32 V i =
        (FFmt.fp32.rne (f.entryVal (entry (i / 32)) (i % 32) (lane f.bits va i))).1 % 2 ^ 32)

/-- The plain matrix product (R112, R115, R131 to R146, R208) of an `mm` whose checks pass, with no epilogue (its EPI
word is 0), whose tiles start from zero or keep their values, with room in the queue: each live element of each
accumulator tile becomes the product's sum over its groups of reduction values, every element outside the live part
and every other tile keeps its value, and registers, memory and other cores stay as they were. An empty live part only
retires. -/
def Obligations.MatrixProductResults : Prop :=
  ∀ (s : State) (c : Nat) (w : W64) (p : MmPlan),
    let k := s.core c
    let n := w.toNat
    let shape := Tab.get {} k.k (bits n 32 30)
    let rows := shape.m.toNat
    let cols := shape.n.toNat
    let plane := Tab.get {} k.planes p.reuse
    let weight (r j : Nat) : Val := match p.dw with
      | some d => if p.trans then k.obVal d r j else k.obVal d j r
      | none => if p.trans then plane.val j r else plane.val r j
    let weightInt (r j : Nat) : Int := match p.dw with
      | some d => if p.trans then k.obInt d r j else k.obInt d j r
      | none => if p.trans then plane.int j r else plane.int r j
    let element (k : Core) (tile i j : Nat) : W32 :=
      Tab.get 0 (Tab.get {} k.tiles tile).vals (if p.trans then i * 256 + j else i * 64 + j)
    let width := if p.trans then 256 else 64
    let start (tile i j : Nat) : Nat := if bits n 38 37 = 0 then 0 else (element k tile i j).toNat
    Issues s c .mm w 0 → mmPlan k n = .ok p → initCheck k p n = .ok () → k.xr (bits n 29 25) = 0 →
    rows ≤ p.m → cols ≤ p.n → shape.k.toNat ≤ p.red →
    (rows = 0 ∨ cols = 0 → exec (.mm c w) s = .next (s.retiring c 8 k)) ∧
    (rows ≠ 0 → cols ≠ 0 → bits n 38 37 ≠ 1 → k.dmaQ = [] → k.obPoison = [] → k.mxeQ.length < 4 →
      ∃ t, exec (.mm c w) s = .next t ∧ OthersKeep s t c ∧ t.mem = s.mem ∧ t.regs = s.regs ∧ t.events = s.events ∧
        (t.core c).pc = k.pc + 8 ∧ (t.core c).x = k.x ∧ (t.core c).f = k.f ∧ (t.core c).v = k.v ∧ (t.core c).p = k.p ∧
        (t.core c).d = k.d ∧ (t.core c).ob = k.ob ∧ (t.core c).score = k.score ∧
        (t.core c).mxeQ.length = k.mxeQ.length + 1 ∧
        (∀ tile, tile < p.acc ∨ p.acc + p.tiles ≤ tile → Tab.get {} (t.core c).tiles tile = Tab.get {} k.tiles tile) ∧
        ∀ tile i j, tile < p.tiles → j < width → i < (if p.trans then 64 else 256) →
          element (t.core c) (p.acc + tile) i j =
            if i < rows ∧ tile * width + j < cols then
              BitVec.ofNat 32 (mmElement p shape.k.toNat (k.obVal p.da) (k.obInt p.da) weight weightInt i
                (tile * width + j) (start (p.acc + tile) i j)).1
            else element k (p.acc + tile) i j)

/-- Weight planes and tile moves (R127, R144, R149, R210) with room in their queues. `pload` makes the plane valid and
gives it the weight tile's values; `vtget` and `vtput` move one segment of 64 positions of a tile row to and from a
vector register; `tepi` of a normal-shaped tile whose EPI word asks only for statistics puts each live row's maximum
and tree sum into its lane of the two register groups. -/
def Obligations.PlaneAndTileMoves : Prop :=
  ∀ (s : State) (c : Nat) (w : W64),
    let k := s.core c
    let n := w.toNat
    let rest (t : State) : Prop := OthersKeep s t c ∧ t.mem = s.mem ∧ t.regs = s.regs ∧ (t.core c).pc = k.pc + 8 ∧
      (t.core c).x = k.x ∧ (t.core c).f = k.f ∧ (t.core c).d = k.d ∧ (t.core c).ob = k.ob
    let lane (v : W2048) (i : Nat) : W32 := v.extractLsb' (32 * i) 32
    let tileOf (r : Nat) : Tile := Tab.get {} k.tiles r
    let segment (t : Tile) (x : W64) (pos : Nat) : Prop :=
      (t.transposed = true ∧ bits x.toNat 7 0 < 64 ∧ pos = bits x.toNat 7 0 * 256 + bits x.toNat 9 8 * 64) ∨
      (t.transposed = false ∧ bits x.toNat 9 8 = 0 ∧ pos = bits x.toNat 7 0 * 64)
    (Issues s c .pload w 0 →
      let d := Tab.get 0 k.d (bits n 51 48)
      let f := Desc.fmt d
      let kt := if f.is4 then 512 else 256
      checkDesc d = .ok () → Desc.inOb d = true → f.isOperand = true → kt ≤ Desc.dim0 d → 64 ≤ Desc.dim1 d →
      k.dmaQ = [] → k.obPoison = [] → k.mxeQ.length < 4 →
      ∃ t, exec (.pload c w) s = .next t ∧ rest t ∧ (t.core c).v = k.v ∧ (t.core c).tiles = k.tiles ∧
        let pl := Tab.get {} (t.core c).planes (bits n 47 47)
        pl.valid = true ∧ pl.k = kt ∧ pl.format = f ∧
        Tab.get {} (t.core c).planes (1 - bits n 47 47) = Tab.get {} k.planes (1 - bits n 47 47) ∧
        ∀ r j, r < kt → j < 64 → (f.isInt = false → pl.val r j = k.obVal d j r) ∧ (f.isInt = true → pl.int r j = k.obInt d j r)) ∧
    (Issues s c .vtget w 0 → k.vecQ.length < 8 → ∀ pos, segment (tileOf (bits n 46 42)) (k.xr (bits n 41 37)) pos →
      ∃ t V, exec (.vtget c w) s = .next t ∧ rest t ∧ (t.core c).v = Tab.set 0 k.v (bits n 51 47) V ∧
        (t.core c).tiles = k.tiles ∧ ∀ i, i < 64 → lane V i = Tab.get 0 (tileOf (bits n 46 42)).vals (pos + i)) ∧
    (Issues s c .vtput w 0 → k.vecQ.length < 8 → ∀ pos, segment (tileOf (bits n 46 42)) (k.xr (bits n 41 37)) pos →
      ∃ t, exec (.vtput c w) s = .next t ∧ rest t ∧ (t.core c).v = k.v ∧
        (∀ j, j ≠ bits n 46 42 → Tab.get {} (t.core c).tiles j = tileOf j) ∧
        ∀ a, Tab.get 0 (Tab.get {} (t.core c).tiles (bits n 46 42)).vals a =
          if pos ≤ a ∧ a < pos + 64 then lane (Tab.get 0 k.v (bits n 36 32)) (a - pos)
          else Tab.get 0 (tileOf (bits n 46 42)).vals a) ∧
    (Issues s c .tepi w 0 →
      let tile := tileOf (bits n 51 50)
      let shape := Tab.get {} k.k (bits n 49 47)
      let e := (k.xr (bits n 46 42)).toNat
      let vmax := bits e 46 42
      let vsum := bits e 51 47
      let cell (i j : Nat) : W32 := Tab.get 0 tile.vals (i * 64 + j)
      let value (i j : Nat) : Nat := if tile.isInt then (FFmt.fp32.rne (Val.ofInt (cell i j).toInt)).1 else (cell i j).toNat
      tile.transposed = false → e = 2 ^ 6 + vmax * 2 ^ 42 + vsum * 2 ^ 47 → vmax + 3 ≤ 31 → vsum + 3 ≤ 31 →
      (vmax + 4 ≤ vsum ∨ vsum + 4 ≤ vmax) → 1 ≤ shape.m.toNat → shape.m.toNat ≤ 256 → 1 ≤ shape.n.toNat →
      shape.n.toNat ≤ 64 → k.mxeQ.length < 4 →
      ∃ t, exec (.tepi c w) s = .next t ∧ rest t ∧ (t.core c).tiles = k.tiles ∧
        (∀ r i, r < 32 → i < 64 →
          let at_ (base : Nat) : Prop := base ≤ r ∧ r < base + 4 ∧ (r - base) * 64 + i < shape.m.toNat
          ¬ at_ vmax → ¬ at_ vsum → lane (Tab.get 0 (t.core c).v r) i = lane (Tab.get 0 k.v r) i) ∧
        ∀ i, i < shape.m.toNat →
          (lane (Tab.get 0 (t.core c).v (vmax + i / 64)) (i % 64)).toNat =
            (List.range shape.n.toNat).foldl (fun m j => (fmax .fp32 m (value i j)).1) 0xFF800000 % 2 ^ 32 ∧
          (lane (Tab.get 0 (t.core c).v (vsum + i / 64)) (i % 64)).toNat =
            (treeSum 6 ((List.range 64).map fun j => if j < shape.n.toNat then value i j else 0)).1 % 2 ^ 32)

/-- Fused attention (R155 to R160, R211) of an `attn` whose checks pass, with its live part not empty and room in the
queue: for each live query row the row function runs on the scores of the live keys, its maximum and sum stand in the
row's lanes of VM and VL, each output element takes the scaled old value plus the product with V, and both weight
planes become invalid. -/
def Obligations.AttentionResults : Prop :=
  ∀ (s : State) (c : Nat) (w e : W64) (p : AttnPlan),
    let k := s.core c
    let n := w.toNat
    let shape := Tab.get {} k.k (bits n 21 19)
    let rows := shape.m.toNat
    let keys := shape.n.toNat
    let vm := bits n 35 31
    let vl := bits n 30 26
    let lane (v : W2048) (i : Nat) : Nat := (v.extractLsb' (32 * i) 32).toNat
    let value (k : Core) (tile i j : Nat) : W32 := Tab.get 0 (Tab.get {} k.tiles tile).vals (i * 64 + j)
    let scores (r : Nat) : List Nat := (List.range keys).map fun j => (attnScore k p shape.k.toNat r j).1
    let row (r : Nat) : AttnRow := attnRow k p (Tab.get 0 k.f (bits n 25 22)).toNat keys r
      (if p.first then 0xFF800000 else lane (Tab.get 0 k.v vm) r) (if p.first then 0 else lane (Tab.get 0 k.v vl) r) (scores r)
    let old (r j : Nat) : Nat := if p.first then 0 else (value k (p.ot + j / 64) r (j % 64)).toNat
    Issues s c .attn w e → attnPlan k n e.toNat = .ok p → rows ≤ p.m → keys ≤ 256 → shape.k.toNat ≤ p.d →
    (rows = 0 ∨ keys = 0 → exec (.attn c w e) s = .next (s.retiring c 16 k)) ∧
    (rows ≠ 0 → keys ≠ 0 → k.dmaQ = [] → k.obPoison = [] → k.mxeQ.length < 4 → vm ≠ vl →
      ∃ t, exec (.attn c w e) s = .next t ∧ OthersKeep s t c ∧ t.mem = s.mem ∧ t.regs = s.regs ∧
        (t.core c).pc = k.pc + 16 ∧ (t.core c).x = k.x ∧ (t.core c).f = k.f ∧ (t.core c).p = k.p ∧ (t.core c).d = k.d ∧
        (t.core c).ob = k.ob ∧ (t.core c).mxeQ.length = k.mxeQ.length + 1 ∧
        (Tab.get {} (t.core c).planes 0).valid = false ∧ (Tab.get {} (t.core c).planes 1).valid = false ∧
        (∀ r, r ≠ vm → r ≠ vl → Tab.get 0 (t.core c).v r = Tab.get 0 k.v r) ∧
        ∀ r, r < rows → lane (Tab.get 0 (t.core c).v vm) r = (row r).m % 2 ^ 32 ∧
          lane (Tab.get 0 (t.core c).v vl) r = (row r).l % 2 ^ 32 ∧
          ∀ j, j < p.d → value (t.core c) (p.ot + j / 64) r (j % 64) =
            BitVec.ofNat 32 (attnOut k p keys (row r) (old r j) j).1)

/-- Faults and resets of one core (R183, R424, R426, R448, Table 5.5). A fault of a core in service that is not being
reset stops it, gives up its tile after re-issuing it to a work counter with room, and starts its reset; a hang is
such a fault once 131,072 Beats have passed without a retirement outside a wait marked T. The reset zeroes the core
but its tile state; the core returns idle, or leaves service, or begins its kernel again while its dispatch still
runs. -/
def Obligations.CoreFaultsAndResets : Prop :=
  ∀ (s : State) (c : Nat) (storage rowsOk : Bool),
    let k := s.core c
    let n := bits k.tileHi.toNat 25 16
    let waitsT : Prop := ∃ h, k.hold = some h ∧ h.markT = true
    let hung : Prop := k.mode = .running ∧ ¬ waitsT ∧ 131072 ≤ (s.beat - k.lastRetire).toNat
    (coreInService s c = true → k.mode ≠ .resetting → k.mode ≠ .outOfService →
      ∃ t, exec (.coreFault c storage rowsOk) s = .next t ∧ (t.core c).mode = .resetting ∧ (t.core c).faulted = true ∧
        (t.core c).hold = none ∧ (t.core c).held = false ∧ (t.core c).tilePairs = [] ∧ (t.core c).dmaQ = [] ∧
        (t.core c).mxeQ = [] ∧ (t.core c).vecQ = [] ∧ (t.core c).x = k.x ∧ (t.core c).tileLo = k.tileLo ∧ t.beat = s.beat ∧
        (k.held = true → k.tilePairs = [] → (s.wc n).reissue.length < 8 →
          (s.fld (Reg.wcGen n) 15 0 + 1) % 2 ^ 16 ≠ (s.wc n).baseGen.toNat →
          (t.wc n).reissue = (s.wc n).reissue ++ [k.tileLo])) ∧
    (hung → exec (.coreHang c) s = exec (.coreFault c false false) s) ∧
    (¬ hung → exec (.coreHang c) s = .next s) ∧
    (k.mode = .resetting → k.faulted = true → k.restart = false →
      ∃ t, exec (.perCoreResetDone c) s = .next t ∧ OthersKeep s t c ∧ (t.core c).faulted = false ∧ (t.core c).hold = none ∧
        (t.core c).x = [] ∧ (t.core c).f = [] ∧ (t.core c).v = [] ∧ (t.core c).p = [] ∧ (t.core c).d = [] ∧
        (t.core c).k = [] ∧ (t.core c).tiles = [] ∧ (t.core c).ob = [] ∧ (t.core c).srSeed = 0 ∧
        (t.core c).tileLo = k.tileLo ∧ (t.core c).tileHi = k.tileHi ∧
        (k.faultAct ≠ 2 → (t.core c).mode = .idle) ∧ (k.faultAct = 2 → (t.core c).mode = .outOfService)) ∧
    (∀ d, k.mode = .resetting → k.faulted = true → k.restart = true → k.disp = some d → (s.disp d).live = true →
      (s.disp d).trap = none → (s.disp d).fault = none → k.faultAct = 0 →
      ∃ t, exec (.perCoreResetDone c) s = .next t ∧ OthersKeep s t c ∧ (t.core c).mode = .running ∧ (t.core c).pc = 0 ∧
        (t.core c).xr 1 = BitVec.ofNat 64 k.rank ∧ (t.core c).xr 2 = BitVec.ofNat 64 (s.disp d).set.length ∧
        (t.core c).f = [] ∧ (t.core c).v = [] ∧ (t.core c).ob = [] ∧ (t.core c).tiles = [] ∧ (t.core c).k = (s.disp d).kv ∧
        (t.core c).tileLo = k.tileLo)

/-- The partition and the wipe of the Crucible (R49, R52, R87, R88, R393). A boundary of 1 GiB or more is posted and
holds new accesses until the change is done; then scratch below the new boundary keeps its bytes and the rest reads
zero. A wipe leaves scratch, work counters, notice queues and stage queues empty and holds accesses until it is done. -/
def Obligations.PartitionAndWipe : Prop :=
  ∀ (s : State) (rq : Requester) (v : W32) (ext : Ext),
    let held (t : State) : Prop := cruHolds t = true ∧ t.cores = s.cores ∧ t.rings = s.rings ∧ t.events = s.events
    (Admitted s rq Reg.cruPartition v → 4 ≤ v.toNat % 32 → ∃ t, exec (.partitionChange rq v) s = .next t ∧ held t ∧
      t.posted = s.posted ++ [(Reg.cruPartition, v)] ∧ t.flag Reg.cruStatus 2 = true ∧
      t.reg Reg.cruPartition = s.reg Reg.cruPartition ∧ t.mem = s.mem) ∧
    (Admitted s rq Reg.cruPartition v → v.toNat % 32 < 4 → Performs s rq (.partitionChange rq v) fun s =>
      (s.setFlag Reg.cruErrStatus 5).setFlag Reg.glbAccessStatus 5) ∧
    (NothingHeld s → s.win.lines = [] → s.posted = [(Reg.cruPartition, v)] → s.wiping = none →
      ∃ t, exec (.partitionDone ext) s = .next t ∧ boundary t = v.toNat % 32 * 2 ^ 28 ∧ t.flag Reg.cruStatus 2 = false ∧
        t.posted = [] ∧ t.cores = s.cores ∧ t.rings = s.rings ∧ t.events = s.events ∧
        ∀ key, Tab.get 0 t.mem key =
          if key < 0x018000000000 ∨ (key - 0x018000000000) % 2 ^ 29 < v.toNat % 32 * 2 ^ 24 then Tab.get 0 s.mem key else 0) ∧
    (s.posted.all (fun p => p.1 != Reg.cruPartition) = true → exec (.partitionDone ext) s = .next s) ∧
    (Admitted s rq Reg.cruWipe 1 → ∃ t, exec (.cruWipe rq) s = .next t ∧ held t ∧ t.wiping = some .cru ∧
      t.flag Reg.cruStatus 1 = true ∧ t.nqs = [] ∧ t.wcs = [] ∧ t.win.lines = [] ∧
      (∀ q, q < 64 → nqEnabled t q = false) ∧ (∀ q, q < 256 → t.flag (Reg.sqCtl q) 0 = false ∧ t.sq q = {}) ∧
      (∀ n, n < 1024 → t.reg (Reg.wcCtl n) = regReset (Reg.wcCtl n)) ∧
      ∀ key, Tab.get 0 t.mem key = if key < 0x018000000000 then Tab.get 0 s.mem key else 0) ∧
    (NothingHeld s → s.wiping = some .cru → exec (.crucibleWipeDone ext) s =
      .next ({ s with wiping := none }.clearFlag Reg.cruStatus 1)) ∧
    (s.wiping ≠ some .cru → exec (.crucibleWipeDone ext) s = .next s)

/-- The cache window's commands (R55, R56, R86, R491): a flush or an invalidate takes the lines present now and runs
until it is done; an invalidate has then emptied each of them; a fill enters its line; a scrub of a right word only
dates the unit's access, and one of a corrected word in a slice writes it back right and sets CRU_ERR_STATUS[0]. -/
def Obligations.WindowCommands : Prop :=
  ∀ (s : State) (rq : Requester) (line : Nat) (bad : List (Nat × WordState)),
    let present := (s.win.lines.filter fun e => e.2.valid).map fun e => e.1 * 128
    let takes (i : Instr) (inval : Bool) : Prop := ∃ t, exec i s = .next t ∧ t.win.flushing = present ∧
      t.win.inval = inval ∧ t.win.lines = s.win.lines ∧ t.flag Reg.cruStatus 3 = true ∧ t.mem = s.mem ∧ t.cores = s.cores ∧
      t.rings = s.rings
    (Admitted s rq Reg.cruCacheCtl 1 → takes (.flush rq) false) ∧
    (Admitted s rq Reg.cruCacheCtl 2 → takes (.inval rq) true) ∧
    (s.flag Reg.cruStatus 3 = true → ∃ t, exec .flushDone s = .next t ∧ t.win.flushing = [] ∧ t.cores = s.cores ∧
      t.flag Reg.cruStatus 3 = false ∧ (s.win.inval = true → ∀ a ∈ s.win.flushing, (t.wline a).valid = false)) ∧
    (∀ m, s.win.misses = [m] → m.line = line → m.waiters = [] → cruHolds s = false → line * 128 < 2 ^ 39 →
      lineSettled s line = true → stackHeld s (line * 128) = false → pageRetired s (line * 128) = false →
      (upFrom 0 8).all (fun i => s.wordState (8 * line + i) == .clean) = true → (s.wline (line * 128)).valid = false → ∃ t,
      exec (.cacheFill line []) s = .next t ∧ t.win.misses = [] ∧ (t.wline (line * 128)).valid = true ∧ t.cores = s.cores ∧
        ∀ i, i < 128 → (t.wline (line * 128)).byteAt i = s.byte (line * 128 + i)) ∧
    (s.win.misses = [] → exec (.cacheFill line bad) s = .next (upsetWords bad s)) ∧
    (∀ unit addr key, scrubKey s unit addr = some key → s.wordState key = .clean →
      let interval := (s.reg (if unit < 16 then Reg.cruScrub else Reg.hbmScrub (unit - 16))).toNat
      interval ≠ 0 → interval ≤ (s.beat - Tab.get 0 s.scrubbed unit).toNat →
      exec (.scrub unit addr []) s = .next { s with scrubbed := Tab.set 0 s.scrubbed unit s.beat }) ∧
    (∀ unit addr key, scrubKey s unit addr = some key → s.wordState key = .corrected → unit < 16 →
      (s.reg Reg.cruScrub).toNat ≠ 0 → (s.reg Reg.cruScrub).toNat ≤ (s.beat - Tab.get 0 s.scrubbed unit).toNat →
      ∃ t, exec (.scrub unit addr []) s = .next t ∧ t.wordState key = .clean ∧ t.flag Reg.cruErrStatus 0 = true ∧
        t.mem = s.mem ∧ t.win.lines = s.win.lines ∧ t.cores = s.cores)

/-- The work counters' and the queues' registers (R64 to R66, R72 to R74, R79, R178, R251, R354, R492): the state of
an enabled counter and the base of an enabled queue are not written; enabling a counter records its base generation
and disabling it empties its list; enabling a queue latches depth and address and empties it, as disabling and FLUSH
do, and a pop in progress then returns a FLUSHED entry with the number discarded; disabling a stage queue empties it,
and a remote one enabled while the way to its partner is cut has lost it. A field out of range drops the write. -/
def Obligations.CrucibleQueueRegisters : Prop :=
  ∀ (s : State) (rq : Requester) (n : Nat) (v : W32),
    let dropped (s : State) : State := s.setFlag Reg.glbAccessStatus 5
    let at_ : WcReg → Nat
      | .index => Reg.wcIndex n
      | .limit => Reg.wcLimit n
      | .gen => Reg.wcGen n
    (n < 1024 → ∀ r, Admitted s rq (at_ r) v →
      Performs s rq (.wcStateWrite rq n r v) fun s =>
        if s.flag (Reg.wcCtl n) 0 then s.setFlag Reg.cruErrStatus 4 else storeReg (at_ r) v s) ∧
    (n < 1024 → Admitted s rq (Reg.wcCtl n) v → ∃ t, exec (.wcCtlWrite rq n v) s = .next t ∧
      t.regs = (storeReg (Reg.wcCtl n) v s).regs ∧ t.mem = s.mem ∧ t.cores = s.cores ∧
      (∀ m, m ≠ n → t.wc m = s.wc m) ∧
      (v.getLsbD 0 = true → s.flag (Reg.wcCtl n) 0 = false →
        t.wc n = { s.wc n with baseGen := BitVec.ofNat 16 (s.fld (Reg.wcGen n) 15 0) }) ∧
      (v.getLsbD 0 = false → t.wc n = { s.wc n with reissue := [] })) ∧
    (n < 64 → ∀ hi : Bool, Admitted s rq (if hi then Reg.nqBaseHi n else Reg.nqBaseLo n) v →
      Performs s rq (.nqBaseWrite rq n hi v) fun s => if nqEnabled s n then dropped s
        else storeReg (if hi then Reg.nqBaseHi n else Reg.nqBaseLo n) v s) ∧
    (n < 64 → Admitted s rq (Reg.nqCtl n) v → bits v.toNat 20 16 < 4 ∨ 16 < bits v.toNat 20 16 →
      Performs s rq (.nqCtlWrite rq n v) dropped) ∧
    (n < 64 → Admitted s rq (Reg.nqCtl n) v → 4 ≤ bits v.toNat 20 16 → bits v.toNat 20 16 ≤ 16 → v.getLsbD 1 = false →
      nqEnabled s n = false → v.getLsbD 0 = true → ∃ t, exec (.nqCtlWrite rq n v) s = .next t ∧
        nqEnabled t n = true ∧ (t.nq n).entries = [] ∧ (t.nq n).gap = none ∧ (t.nq n).depth = bits v.toNat 20 16 ∧
        (t.nq n).base = s.fld (Reg.nqBaseHi n) 15 0 * 2 ^ 32 + s.fld (Reg.nqBaseLo n) 31 5 * 32 ∧
        t.reg (Reg.nqDrops n) = 0 ∧ t.mem = s.mem ∧ ∀ q, q ≠ n → t.nq q = s.nq q) ∧
    (n < 64 → Admitted s rq (Reg.nqCtl n) v → 4 ≤ bits v.toNat 20 16 → bits v.toNat 20 16 ≤ 16 → v.getLsbD 1 = false →
      nqEnabled s n = true → v.getLsbD 0 = false → ∃ t, exec (.nqCtlWrite rq n v) s = .next t ∧ nqEnabled t n = false ∧
        (t.nq n).entries = [] ∧ (t.nq n).gap = none ∧ t.cores = s.cores ∧ ∀ q, q ≠ n → t.nq q = s.nq q) ∧
    (∀ p, let flushing := s.reg (Reg.nqCtl n) ||| 2
      n < 64 → Admitted s rq (Reg.nqCtl n) flushing → nqEnabled s n = true →
      4 ≤ s.fld (Reg.nqCtl n) 20 16 → s.fld (Reg.nqCtl n) 20 16 ≤ 16 → (p ≠ .none → cruHolds s = false ∧ nqInWindow s n = false ∧
        p = .port .mgmt 0) →
      ∃ t, exec (.nqFlush rq n p) s = .next t ∧ (t.nq n).entries = [] ∧ (t.nq n).gap = none ∧
        nqEnabled t n = true ∧ t.mem = s.mem ∧ (∀ q, q ≠ n → t.nq q = s.nq q) ∧
        (p ≠ .none → t.rdata = mkNotice 0x02 0 (0x700 + n % 16) (s.reg (Reg.nqPosted n)).toNat (s.copyOf (32 + n % 16))
          (s.nq n).entries.length)) ∧
    (n < 256 → Admitted s rq (Reg.sqCtl n) v →
      let slots := bits v.toNat 22 16
      let bad : Prop := slots = 0 ∨ 64 < slots ∨ 16 < bits v.toNat 12 8
      (bad → Performs s rq (.sqCtlWrite rq n v) dropped) ∧
      (¬ bad → v.getLsbD 0 = false → Performs s rq (.sqCtlWrite rq n v) fun s =>
        { storeReg (Reg.sqCtl n) v s with sqs := Tab.set {} s.sqs n {} }) ∧
      (¬ bad → v.getLsbD 0 = true → sqRemote s n = false → Performs s rq (.sqCtlWrite rq n v) (storeReg (Reg.sqCtl n) v)) ∧
      (¬ bad → v.getLsbD 0 = true → sqRemote s n = true → (s.sq n).lost = false →
        peerCut s (s.fld (Reg.sqPeer n) 12 0) = true → ∃ t, exec (.sqCtlWrite rq n v) s = .next t ∧
          (t.sq n).lost = true ∧ t.flag (Reg.sqFault n) 2 = true ∧ t.flag (Reg.sqCtl n) 0 = true ∧ t.mem = s.mem))

/-- Posts to and pops from a notice queue by others than a core (R66 to R71, R73, R215): a post to an enabled queue
with room enters the entry with the source and priority it has; a read of the port by an admitted requester takes a
pending GAP notice first, then the oldest entry of the highest priority, or EMPTY; a queue that has not been popped
for NQ_STALE Beats sets STALE once. -/
def Obligations.NoticeQueueTraffic : Prop :=
  ∀ (s : State) (n : Nat) (source : W16) (sw : Bool) (entry : W256) (rq : Requester),
    let software : Prop := 0x10 ≤ noticeType entry ∧ noticeType entry ≤ 0x3F
    let may : Prop := (isSprue rq = true → SprueServes s) ∧ (∀ r, rq ≠ .ring r) ∧ wipeRuns s = false ∧
      cruHolds s = false ∧ nqInWindow s n = false ∧ (s.nq n).flushed = none ∧
      admits s rq (if s.flag (Reg.nqCtl n) 4 then .o else .p) = true
    let full : Prop := 2 ^ (s.nq n).depth - 1 ≤ (s.nq n).entries.length
    let posts (code : W256) (es : List W256) : Prop := ∃ t, exec (.noticePost n source sw entry) s = .next t ∧
      t.rdata = code ∧ (t.nq n).entries = es ∧ (∀ q, q ≠ n → t.nq q = s.nq q) ∧ t.mem = s.mem ∧ t.cores = s.cores
    let pops (e : W256) (es : List W256) : Prop := ∃ t, exec (.nqPortRead rq n) s = .next t ∧
      t.rdata = e ∧ (t.nq n).entries = es ∧ (t.nq n).gap = none ∧ (∀ q, q ≠ n → t.nq q = s.nq q) ∧ t.regs = s.regs ∧
      t.mem = s.mem ∧ (isSprue rq = true → t.spr.out = s.spr.out ++ [{ opc := 0x31, data := some (e.setWidth 512) }])
    let limit := (s.reg (Reg.nqStale n)).toNat
    n < 64 →
    (cruHolds s = false → nqEnabled s n = true → nqInWindow s n = false → ¬ full → (sw = true → software) →
      posts 0 ((s.nq n).entries ++ [mkNotice (noticeType entry) (noticePrio entry) source.toNat
        (s.reg (Reg.nqPosted n)).toNat (s.copyOf (32 + n % 16)) (entry.toNat / 2 ^ 128)])) ∧
    (cruHolds s = false → (sw = true → software) → nqEnabled s n = false ∨ full ∨ nqInWindow s n = true →
      posts 1 (s.nq n).entries) ∧
    (cruHolds s = false → sw = true → ¬ software → posts 2 (s.nq n).entries) ∧
    (cruHolds s = true → exec (.noticePost n source sw entry) s = .next { s with
      held := s.held ++ [.post n source.toNat sw (noticeType entry) (noticePrio entry) (entry.toNat / 2 ^ 128)] }) ∧
    (may → nqEnabled s n = true → (s.nq n).gap = none → ∀ before e after, (s.nq n).entries = before ++ e :: after →
      (∀ b ∈ before, noticePrio b < noticePrio e) → (∀ a ∈ after, noticePrio a ≤ noticePrio e) →
      pops e (before ++ after)) ∧
    (may → nqEnabled s n = true → ∀ g, (s.nq n).gap = some g → pops g (s.nq n).entries) ∧
    (may → nqEnabled s n = true → (s.nq n).gap = none → (s.nq n).entries = [] → ∃ e, noticeType e = 0 ∧ pops e []) ∧
    (nqEnabled s n = true → (s.nq n).entries ≠ [] → limit ≠ 0 → (s.nq n).staleFired = false →
      limit ≤ (s.beat - (s.nq n).timer).toNat → s.flag (Reg.nqCtl n) 3 = false → ∃ t, exec (.nqStaleTimeout n) s = .next t ∧
        t.flag (Reg.nqIntStatus n) 1 = true ∧ (t.nq n).staleFired = true ∧ (t.nq n).entries = (s.nq n).entries ∧
        t.spr = s.spr ∧ t.mem = s.mem)

/-- The companion's memory requests (R41 to R47, R84, R85, R228, R238, R239, R467): with kernel privilege a read of
scratch is answered with the 64 bytes under its tag, a write puts its enabled bytes at the places the map gives their
addresses, whole words of them as poison where its data carries it, and is answered; without kernel privilege the
request is refused with STATUS ACCESS and zero data. Every other byte of memory stays as it was. -/
def Obligations.CompanionMemoryRequests : Prop :=
  ∀ (s : State) (tag a : Nat) (mark : SealMark) (mask : W64) (data : W512) (poison : Bool),
    let sends (t : State) (m : SprMsg) : Prop := t.spr.out = s.spr.out ++ [m]
    let rest (t : State) : Prop := t.regs = s.regs ∧ t.rings = s.rings ∧ t.events = s.events ∧
      ∀ c, (s.core c).hold = none → t.core c = s.core c
    let readable : Prop := ∃ key, place s a = .scratch key ∧ ScratchSound s a 64
    let bytes : W512 := BitVec.ofNat 512 (ofBytes ((upFrom a 64).map fun i => (peek s {} i).getD 0))
    let writable : Prop := (a < 0x010000000000 ∨ 0x010000400000 ≤ a) ∧
      ∀ j, j < 64 → ∃ key, place s (a + j) = .scratch key ∧ inNoticeRing s key = false
    let stores (on : Nat → Bool) (t : State) : Prop :=
      (∀ j key, j < 64 → on j = true → place s (a + j) = .scratch key → t.byte key = data.extractLsb' (8 * j) 8) ∧
      ∀ key, (∀ j, j < 64 → on j = true → place s (a + j) ≠ .scratch key) → t.byte key = s.byte key
    SprueServes s → s.win.misses = [] →
    (readable → ∃ t, exec (.memRd true tag a mark) s = .next t ∧ rest t ∧ t.cores = s.cores ∧ t.mem = s.mem ∧
      sends t { opc := 0x31, tag := tag, data := some bytes }) ∧
    (writable → ∃ t, exec (.memWr true tag a mark data poison) s = .next t ∧ rest t ∧ stores (fun _ => true) t ∧
      sends t { opc := 0x32, tag := tag } ∧
      (a % 64 = 0 → ∀ j key, j < 64 → place s (a + j) = .scratch key → t.isPoison key = poison)) ∧
    (writable → ∃ t, exec (.memWrPartial true tag a mark mask data poison) s = .next t ∧ rest t ∧ stores mask.getLsbD t ∧
      sends t { opc := 0x32, tag := tag }) ∧
    (∃ t pre, exec (.memRd false tag a mark) s = .next t ∧ t.mem = s.mem ∧
      t.spr.out = s.spr.out ++ pre ++ [{ opc := 0x31, tag := tag, status := 2, data := some 0 }] ∧
      t.reg Reg.glbDenyCount = BitVec.ofNat 32 (satAdd 32 (s.reg Reg.glbDenyCount).toNat 1))

/-- The companion's aperture requests (R228, R234, R235): a read of a line that no snoop holds gets its bytes and the
state it asked for, an owning read also takes the device's copy away; a write-back puts the line's bytes in memory, as
poison where they carry it, and clears its state, an eviction only clears its state. -/
def Obligations.ApertureRequests : Prop :=
  ∀ (s : State) (tag a : Nat) (data : W512) (poison : Bool),
    let base := a / 64 * 64
    let sends (t : State) (m : SprMsg) : Prop := t.spr.out = s.spr.out ++ [m]
    let rest (t : State) : Prop := t.regs = s.regs ∧ t.cores = s.cores ∧ t.rings = s.rings ∧ t.events = s.events
    let bytes : W512 := BitVec.ofNat 512 (ofBytes ((upFrom base 64).map s.byte))
    let clean : Prop := (unitsOf 16 base 64).all (fun u => s.wordState (u / 16) == .clean && !s.isPoison u) = true ∧
      (s.wline base).dirty = false
    SprueServes s → inAperture s a = true → base < 2 ^ 39 → (s.posted.any fun p => p.1 == Reg.sprApCtl) = false →
    pageRetired s base = false → stackHeld s base = false → lineSnooped s a = false →
    (clean → ∃ t, exec (.apRdShared true tag a) s = .next t ∧ rest t ∧ t.mem = s.mem ∧ dirState t base = .s ∧
      sends t { opc := 0x31, tag := tag, st := .s, data := some bytes }) ∧
    (clean → ∃ t, exec (.apRdOwn true tag a) s = .next t ∧ rest t ∧ t.mem = s.mem ∧ dirState t base = .e ∧
      (t.wline base).valid = false ∧ sends t { opc := 0x31, tag := tag, st := .e, data := some bytes }) ∧
    (∃ t, exec (.apWbDirty true tag a data poison) s = .next t ∧ rest t ∧ dirState t base = .i ∧
      sends t { opc := 0x32, tag := tag } ∧ (∀ i, i < 64 → t.isPoison (base + i) = poison) ∧
      ∀ key, t.byte key = if base ≤ key ∧ key < base + 64 then data.extractLsb' (8 * (key - base)) 8 else s.byte key) ∧
    (∃ t, exec (.apEvict true tag a) s = .next t ∧ rest t ∧ t.mem = s.mem ∧ dirState t base = .i ∧
      sends t { opc := 0x32, tag := tag })

/-- Snoops and answers of the companion (R228, R231 to R233, R236, Table 7.5): a snoop of a sector the device holds in
M takes its data, or poison, and leaves it in I, or in S for SNP_SHARE; an answer with data to a read brings the
sector in; the answer to a write frees its tag; a snoop answer with data is stored, and the directory takes the state
it leaves. -/
def Obligations.SnoopsAndAnswers : Prop :=
  ∀ (s : State) (tag a : Nat) (mark : SealMark) (st : Coherence) (data : W512) (poison : Bool),
    let here := 0x100000000000 + a % 2 ^ 44 / 64 * 64
    let sends (t : State) (m : SprMsg) : Prop := t.spr.out = s.spr.out ++ [m]
    let rest (t : State) : Prop := t.regs = s.regs ∧ t.cores = s.cores ∧ t.rings = s.rings ∧ t.mem = s.mem
    let modified : Prop := sectorReq s (here / 64) = none ∧ (s.wline here).valid = true ∧ (s.wline here).sector here = .m
    let bad := (s.wline here).sectorPoison here
    let gives (st : Coherence) : SprMsg := { opc := 0x33, tag := tag, addr := a, st := st, status := if bad then 3 else 0,
                                             data := some (if bad then 0 else (s.wline here).sectorData here) }
    SprueServes s → s.spr.backlog = [] →
    (modified → ∃ t, exec (.snpInv tag a mark) s = .next t ∧ rest t ∧ (t.wline here).sector here = .i ∧ sends t (gives .i)) ∧
    (modified → ∃ t, exec (.snpShare tag a mark) s = .next t ∧ rest t ∧ (t.wline here).sector here = .s ∧
      sends t (gives .s)) ∧
    (∀ r, Tab.get none s.spr.reqs tag = some r → r.dead = false → r.opc = 0x01 → r.waiters = [] → r.snooped = false → st ≠ .i →
      let at_ := 0x100000000000 + r.addr % 2 ^ 44
      (s.wline at_).valid = true → ∃ t, exec (.rspData tag 0 st mark data) s = .next t ∧ rest t ∧
        Tab.get none t.spr.reqs tag = none ∧ (t.wline at_).sector at_ = st ∧ (t.wline at_).sectorData at_ = data) ∧
    (∀ r, Tab.get none s.spr.reqs tag = some r → r.dead = false → 0x04 ≤ r.opc → ∃ t,
      exec (.rspAck tag 0 st mark) s = .next t ∧ Tab.get none t.spr.reqs tag = none ∧
        t = { s with spr := t.spr, ctr := t.ctr }) ∧
    (∀ m, s.spr.snoops = [m] → m.line = a / 64 → m.waiters = [] → s.held = [] → s.posted = [] → ∃ t,
      exec (.snpRsp a st (some data) poison) s = .next t ∧ t.spr.snoops = [] ∧ t.cores = s.cores ∧ t.regs = s.regs ∧
        dirState t a = (if m.inv then .i else if st = .s then .s else .i) ∧
        (∀ i, i < 64 → t.isPoison (a / 64 * 64 + i) = poison) ∧
        ∀ key, t.byte key = if a / 64 * 64 ≤ key ∧ key < a / 64 * 64 + 64 then data.extractLsb' (8 * (key % 64)) 8
          else s.byte key)

/-- The Sprue's transport and its timeouts (R224 to R227, R233, R237): a frame in order takes its acknowledgement and
credits, and a NAK in it makes the sender send what it keeps again; one that fails its CRC sends a NAK, and the eighth
in a row starts a retrain, as 100 µs without an acknowledgement do; a retrain ends at its width. An unanswered request
keeps its tag and raises GLB_FAULT bit 5, an unanswered snoop poisons its line and raises bit 6. The Sprue's registers
(R234, R240, R251, R252): the end of an interrupt frees its vector and sends it again when it is pending and not
masked; a mask register takes its value, and masking everything sends nothing; enabling the aperture on an aligned
base is posted, and disabling it takes effect once every line that the companion holds has been snooped out. -/
def Obligations.SprueTransportAndRegisters : Prop :=
  (∀ (s : State) (f : SprueFrame) (ext : Ext),
     let retraining (t : State) : Prop := t.flag Reg.sprStatus 1 = true ∧ t.flag Reg.glbFault 2 = true ∧ t.mem = s.mem ∧
       t.cores = s.cores
     let takes : Prop := s.flag Reg.sprStatus 1 = false ∧ f.crcOk = true ∧ f.ftype < 2 ∧ f.seq = (s.spr.rxSeq + 1) % 4096
     (takes → f.nak = false → s.spr.queued = [] →
       ∃ p, exec (.sprueFrameRx f) s = .next { s with spr := p } ∧ p.rxSeq = f.seq ∧ p.failures = 0 ∧ p.out = s.spr.out ∧
         p.nakDue = false ∧ Tab.get 0 p.credits 0 = Tab.get 0 s.spr.credits 0 + f.credits.1 ∧
         Tab.get 0 p.credits 3 = Tab.get 0 s.spr.credits 3 + f.credits.2.2.2 ∧
         (1 ≤ (f.ack + 4096 - s.spr.acked) % 4096 →
           (f.ack + 4096 - s.spr.acked) % 4096 ≤ (s.spr.txSeq + 4096 - s.spr.acked) % 4096 → p.acked = f.ack % 4096 ∧
             p.unacked = s.spr.unacked.drop ((f.ack + 4096 - s.spr.acked) % 4096))) ∧
     (takes → f.nak = true → s.spr.queued = [] → f.ack = s.spr.acked → s.spr.acked < 4096 →
       ∃ t, exec (.sprueFrameRx f) s = .next t ∧ t.spr.out = s.spr.out ++ s.spr.unacked ∧ t.spr.unacked = s.spr.unacked ∧
         t.mem = s.mem ∧ t.cores = s.cores) ∧
     (s.flag Reg.sprStatus 1 = false → f.crcOk = false → s.spr.failures < 7 → exec (.sprueFrameRx f) s =
       .next { s with spr := { s.spr with failures := s.spr.failures + 1, nakDue := true } }) ∧
     (s.flag Reg.sprStatus 1 = false → f.crcOk = false → 7 ≤ s.spr.failures →
       ∃ t, exec (.sprueFrameRx f) s = .next t ∧ retraining t ∧ t.spr.failures = 0) ∧
     (s.spr.txSeq ≠ s.spr.acked → s.flag Reg.sprStatus 1 = false → 100000 ≤ (s.beat - s.spr.lastAck).toNat →
       ∃ t, exec .sprueAckTimeout s = .next t ∧ retraining t) ∧
     (s.flag Reg.sprStatus 1 = true → s.boot.sprLanes = [] → s.spr.queued = [] → ∃ t,
       exec (.sprueRetrainDone .full [] ext) s = .next t ∧ t.flag Reg.sprStatus 1 = false ∧ t.fld Reg.sprStatus 3 2 = 2 ∧ t.mem = s.mem ∧ t.cores = s.cores ∧ t.spr.out = s.spr.out) ∧
     (∀ tag r, Tab.get none s.spr.reqs tag = some r → r.dead = false → r.waiters = [] →
       1000 * (s.reg Reg.sprReqTimeout).toNat ≤ (s.beat - r.sentAt).toNat → ∃ t, exec (.sprueReqTimeout tag) s = .next t ∧
         t.flag Reg.glbFault 5 = true ∧ (∃ d, Tab.get none t.spr.reqs tag = some d ∧ d.dead = true) ∧ t.mem = s.mem ∧
         t.cores = s.cores) ∧
     (∀ a m, s.spr.snoops = [m] → m.line = a / 64 → m.waiters = [] → s.held = [] → s.posted = [] →
       1000 * (s.reg Reg.sprSnpTimeout).toNat ≤ (s.beat - m.sentAt).toNat → ∃ t, exec (.sprueSnpTimeout a) s = .next t ∧
         t.flag Reg.glbFault 6 = true ∧ t.spr.snoops = [] ∧ t.mem = s.mem ∧ dirState t a = .i ∧
         ∀ i, i < 64 → t.isPoison (a / 64 * 64 + i) = true)) ∧
  (∀ (s : State) (rq : Requester) (v : W32) (n : Nat),
     let vec := v.toNat % 256
     let freed : W256 := s.spr.inFlight &&& ~~~(1#256 <<< vec)
     let pending := s.flag (Reg.sprIntPending (vec / 32)) (vec % 32)
     (Admitted s rq Reg.sprIntEoi v → pending = false →
       Performs s rq (.sprIntEoi rq v) fun s => { s with spr := { s.spr with inFlight := freed } }) ∧
     (Admitted s rq Reg.sprIntEoi v → pending = true → s.flag (Reg.sprIntMask (vec / 32)) (vec % 32) = false → SprueSends s →
       ∃ t, exec (.sprIntEoi rq v) s = .next t ∧ t.spr.out = s.spr.out ++ [{ opc := 0x41, addr := vec }] ∧
         t.spr.inFlight = s.spr.inFlight ||| (1#256 <<< vec) ∧ t.flag (Reg.sprIntPending (vec / 32)) (vec % 32) = false ∧
         t.mem = s.mem ∧ t.cores = s.cores) ∧
     (n < 8 → Admitted s rq (Reg.sprIntMask n) v → ∃ t, exec (.sprIntMaskWrite rq n v) s = .next t ∧
       t.reg (Reg.sprIntMask n) = v ∧ t.mem = s.mem ∧ t.cores = s.cores ∧
       (v = BitVec.allOnes 32 → t.spr = s.spr)) ∧
     (Admitted s rq Reg.sprApCtl v → s.flag Reg.sprApCtl 0 = false → v.getLsbD 0 = true → bits v.toNat 4 1 ≤ 9 →
       s.fld Reg.sprApBase 17 0 % 2 ^ bits v.toNat 4 1 = 0 →
       Performs s rq (.sprApCtlWrite rq v) fun s => { s with posted := s.posted ++ [(Reg.sprApCtl, v)] }) ∧
     (Admitted s rq Reg.sprApCtl v → s.flag Reg.sprApCtl 0 = true → v.getLsbD 0 = false → bits v.toNat 4 1 ≤ 9 →
       s.spr.snoops = [] → s.posted = [] →
       (s.spr.dir = [] → ∃ t, exec (.sprApCtlWrite rq v) s = .next t ∧
         t.reg Reg.sprApCtl = s.reg Reg.sprApCtl &&& ~~~1#32 ∧
         t.posted = [] ∧ t.mem = s.mem ∧ t.cores = s.cores) ∧
       (∀ line st, s.spr.dir = [(line, st)] → SprueSends s → ∃ t, exec (.sprApCtlWrite rq v) s = .next t ∧
         t.spr.out = s.spr.out ++ [{ opc := 0x21, addr := line * 64 }] ∧
         t.spr.snoops = [{ line := line, inv := true, waiters := [], sentAt := s.beat }] ∧
         t.reg Reg.sprApCtl = s.reg Reg.sprApCtl ∧ t.mem = s.mem ∧ t.cores = s.cores)) ∧
     (Admitted s rq Reg.sprApCtl v → (9 < bits v.toNat 4 1 ∨ (s.flag Reg.sprApCtl 0 = false ∧ v.getLsbD 0 = true ∧
       s.fld Reg.sprApBase 17 0 % 2 ^ bits v.toNat 4 1 ≠ 0)) →
       Performs s rq (.sprApCtlWrite rq v) fun s => s.setFlag Reg.glbAccessStatus 5))

/-- Register reads (R10, R249, R254, R255, Table 7.2): an admitted read answers the value the register shows and
clears its RC bits with it; the read of GLB_ACCESS_STATUS arms the recording of denials; the companion gets the value
under its tag. Nothing else changes. -/
def Obligations.RegisterReads : Prop :=
  ∀ (s : State) (rq : Requester) (off tag : Nat) (kernel : Bool) (ext : Ext) (d : RegDesc),
    let shown : W256 := (regView s off).setWidth 256
    let cleared : State := s.setReg off (s.reg off &&& ~~~(BitVec.ofNat 32 d.rc))
    let open_ : Prop := SprueServes s ∧ regPresent s off = some d ∧ badSize off = false ∧ d.cls.rank ≤ b2n kernel ∧
      s.parityBad.contains (aliasOf off) = false ∧ s.held.any writeHeld = false
    let read (op : Instr) (tag : Nat) (as : State) : Prop := ∃ t, exec op s = .next t ∧ t.rdata = shown ∧
      t = { as with rdata := t.rdata, spr := t.spr, ctr := t.ctr } ∧
      t.spr.out = s.spr.out ++ [{ opc := 0x32, tag := tag, addr := (regView s off).toNat }]
    let armed : State := { cleared with denyArmed := s.denyArmed || decide (off = Reg.glbAccessStatus) }
    regAt off = some d → off < 0x108010 ∨ 0x108020 ≤ off →
    (AdmittedRead s rq off → d.rc ≠ 0 → off ≠ Reg.glbAccessStatus →
      exec (.rcRegisterRead rq off ext) s = .next { cleared with rdata := shown }) ∧
    (AdmittedRead s rq off → d.rc ≠ 0 → off = Reg.glbAccessStatus →
      exec (.glbAccessStatusRead rq ext) s = .next { cleared with rdata := shown, denyArmed := true }) ∧
    (open_ → d.rc = 0 → read (.regRd kernel tag off ext) tag s) ∧
    (open_ → d.rc ≠ 0 → read (.regRd kernel tag off ext) tag armed ∧ read (.rcRegisterRead (.sprue kernel) off ext) 0 armed) ∧
    (open_ → off = Reg.glbAccessStatus → d.rc ≠ 0 → read (.glbAccessStatusRead (.sprue kernel) ext) 0 armed)

/-- Register writes (R10 to R12, R251, R252): an admitted write of a register that no unit gives a meaning of its own
stores its writable bits, also when the companion sends it as REG_WR, a value outside a stated range drops the write
in whole, a posted write takes effect later, and a write of a requester without the register's class changes no
register but the denial's own records. -/
def Obligations.RegisterWrites : Prop :=
  ∀ (s : State) (rq : Requester) (off good : Nat) (v : W32) (kernel : Bool) (ext : Ext) (d : RegDesc),
    let inRange : Prop := ∀ hi lo least most, regRange off = some (hi, lo, least, most) →
      least ≤ bits v.toNat hi lo ∧ bits v.toNat hi lo ≤ most
    regAt off = some d →
    (plainReg off = true → Admitted s rq off v → inRange →
      Performs s rq (.registerWrite rq off v good ext) (storeReg off v)) ∧
    (plainReg off = true → Admitted s rq off v → ¬ inRange →
      Performs s rq (.registerWrite rq off v good ext) fun s => s.setFlag Reg.glbAccessStatus 5) ∧
    (plainReg off = true → Admitted s (.sprue kernel) off v → inRange →
      Performs s (.sprue kernel) (.regWr kernel off v good ext) (storeReg off v)) ∧
    (plainReg off = true → Admitted s (.sprue kernel) off v → ¬ inRange →
      Performs s (.sprue kernel) (.regWr kernel off v good ext) fun s => s.setFlag Reg.glbAccessStatus 5) ∧
    (exec (.regWr kernel off v good ext) s = exec (.registerWrite (.sprue kernel) off v good ext) s) ∧
    (isSprue rq = false → badSize off = false → regPresent s off = some d → admits s rq d.cls = false →
      nqEnabled s (s.fld Reg.rsrCtl 11 6) = false →
      off ≠ Reg.glbDenyCount → off ≠ Reg.glbAccessStatus → off ≠ Reg.glbDenyAddr →
      ∃ t, exec (.registerWrite rq off v good ext) s = .next t ∧ t.reg off = s.reg off ∧ t.mem = s.mem ∧
        t.cores = s.cores ∧ t.rings = s.rings ∧ t.flag Reg.glbAccessStatus 1 = true ∧
        t.reg Reg.glbDenyCount = BitVec.ofNat 32 (satAdd 32 (s.reg Reg.glbDenyCount).toNat 1)) ∧
    (s.posted = [(off, v)] → ownDone s off = false → off < 0x800000 ∨ 0x900000 ≤ off → (off = Reg.sprApCtl → s.win.lines = []) →
      exec (.rwpWriteDone off ext) s = .next (storeReg off v { s with posted := [] })) ∧
    (s.posted = [] → exec (.rwpWriteDone off ext) s = .next s)

/-- The parity sweep (R253, R451): one that finds every register right ends the state a mismatch left; one that finds
a register wrong again sets GLB_FAULT bit 0 and records the register. The mailbox (R255, Tables 7.9, 7.10): a write of
MBX_SEL makes a request and withdraws the value shown; the sample puts the selected value into the data registers, or
0 with INVALID for an unassigned selector; a read of MBX_DATA[3] answers its word and makes the value no longer valid. -/
def Obligations.ParityAndMailbox : Prop :=
  (∀ (s : State) (off : Nat) (flips : W32) (ext : Ext) (d : RegDesc),
     (s.parityBad = [] → exec (.paritySweep [] false ext) s = .next { s with parityDirty := false }) ∧
     (s.parityBad = [] → s.parityDirty = true → regAt off = some d → d.rw = 0xFFFFFFFF → d.rwp = 0 → off ≠ Reg.glbParityAddr →
       nqEnabled s (s.fld Reg.rsrCtl 11 6) = false → s.flag Reg.glbFaultCtl 8 = false → 0x1000000 ≤ off →
       ∃ t, exec (.paritySweep [(off, flips)] false ext) s = .next t ∧ t.flag Reg.glbFault 0 = true ∧
         t.reg Reg.glbParityAddr = BitVec.ofNat 32 off ∧ t.parityBad = [off] ∧ t.reg off = s.reg off ^^^ flips ∧
         t.mem = s.mem ∧ t.cores = s.cores ∧ t.rings = s.rings)) ∧
  (∀ (s : State) (rq : Requester) (v : W32),
     let asked := mbxValue s (s.fld Reg.mbxSel 31 24) (s.fld Reg.mbxSel 23 0)
     (Admitted s rq Reg.mbxSel v → ∃ t, exec (.mbxSel rq v) s = .next t ∧ t.reg Reg.mbxSel = v ∧ t.reg Reg.mbxValid = 4 ∧
       t = { s with regs := t.regs, parityBad := t.parityBad, ctr := t.ctr }) ∧
     (s.flag Reg.mbxValid 2 = true → ∃ t, exec .mbxSampleDone s = .next t ∧ t = { s with regs := t.regs } ∧
       t.reg Reg.mbxValid = (if asked.isSome then 1 else 3) ∧
       ∀ i, i < 4 → t.reg (Reg.mbxData i) = (asked.getD 0).extractLsb' (32 * i) 32) ∧
     (s.flag Reg.mbxValid 2 = false → exec .mbxSampleDone s = .next s) ∧
     (AdmittedRead s rq (Reg.mbxData 3) → s.flag Reg.mbxValid 0 = true → exec (.mbxData3Read rq) s =
       .next { s.clearFlag Reg.mbxValid 0 with rdata := (s.reg (Reg.mbxData 3)).setWidth 256 }))

/-- Translation requests (R244 to R246, Table 7.8): a write of GLB_XLAT_CMD sets BUSY and latches the request; when it
ends BUSY clears, a refused one leaves every entry and shows its code, a MAP gives each virtual page its target with
VALID and its permissions, an UNMAP removes its pages' entries, a PROTECT changes their permissions, and
INVALIDATE_ALL leaves only firmware's own. -/
def Obligations.TranslationRequests : Prop :=
  ∀ (s : State) (rq : Requester) (v : W32) (q : XlatReq),
    let starts (op : Nat) (c : Instr) : Prop :=
      let cmd : W32 := BitVec.ofNat 32 (v.toNat / 16 * 16 + op)
      let r : XlatReq := { cmd := cmd, va := s.reg Reg.glbXlatVa, pa := s.reg Reg.glbXlatPa, host := isHostSide s rq }
      Admitted s rq Reg.glbXlatCmd cmd → Performs s rq c fun s => { s.setFlag Reg.glbXlatStatus 0 with
        xlatReq := some r, posted := s.posted ++ [(Reg.glbXlatCmd, cmd)] }
    let first := bits q.va.toNat 26 0
    let target := bits q.pa.toNat 26 0
    let pages := max 1 (bits q.cmd.toNat 31 24 * 2 ^ 16 + bits q.cmd.toNat 23 8)
    let named (p : Nat) : Prop := first ≤ p ∧ p < first + pages
    let perms := 1 + 2 * bits q.cmd.toNat 7 5
    let entry (t : State) (p : Nat) : W64 := Tab.get 0 t.xlat p
    let ends (effect : State → Prop) : Prop := ∃ t, exec .xlatDone s = .next t ∧ effect t ∧ t.xlatReq = none ∧
      t.reg Reg.glbXlatStatus = BitVec.ofNat 32 (xlatErr s q * 256) ∧ t.cores = s.cores ∧ t.mem = s.mem
    starts 1 (.xlatMap rq v) ∧ starts 2 (.unmap rq v) ∧ starts 3 (.protect rq v) ∧ starts 4 (.invalidateAll rq v) ∧
    (s.xlatReq = some q → xlatErr s q ≠ 0 → ends fun t => t.xlat = s.xlat) ∧
    (s.xlatReq = some q → xlatErr s q = 0 → bits q.cmd.toNat 3 0 = 1 → ends fun t =>
      ∀ p, entry t p = if first ≤ p ∧ p < first + pages then BitVec.ofNat 64 ((target + (p - first)) * 2 ^ 21 + perms)
        else entry s p) ∧
    (s.xlatReq = some q → xlatErr s q = 0 → bits q.cmd.toNat 3 0 = 2 → s.rgl.pagesDue = [] → ends fun t =>
      ∀ p, (named p → entry t p = 0) ∧ (¬ named p → entry t p = entry s p)) ∧
    (s.xlatReq = some q → xlatErr s q = 0 → bits q.cmd.toNat 3 0 = 3 → ends fun t => ∀ p,
      (named p → entry t p = BitVec.ofNat 64 ((entry s p).toNat / 16 * 16 + perms)) ∧ (¬ named p → entry t p = entry s p)) ∧
    (s.xlatReq = some q → xlatErr s q = 0 → bits q.cmd.toNat 3 0 = 4 → s.rgl.pagesDue = [] → ends fun t =>
      t.xlat = s.xlat.filter fun e => s.fwBase ≤ bits e.2.toNat 47 21 && bits e.2.toNat 47 21 < s.fwBase + 1024)

/-- Ring registers (R251, R257 to R261, R263, R285, Tables 8.1, 8.13, 8.15): enabling a ring with legal fields starts
it at RING_TAIL with an empty completion queue; disabling an idle one ends it, and any other change while it is
enabled is an error; a tail within the ring's size is taken and one beyond it is an error; PAUSE and RESUME change the
states they apply to and are errors elsewhere. Memory, the cores and the other rings stay as they were. -/
def Obligations.RingRegisters : Prop :=
  ∀ (s : State) (rq : Requester) (r : Nat) (v : W32) (db : Bool) (ext : Ext),
    let k := s.ring r
    let ctl := Reg.ringCtl r
    let log2 := bits v.toNat 20 16
    let rest (t : State) : Prop := t.mem = s.mem ∧ t.cores = s.cores ∧ t.events = s.events ∧ ∀ j, j ≠ r → t.ring j = s.ring j
    let error (i : Instr) (b : Nat) : Prop := Performs s rq i fun s => s.setFlag (Reg.ringErr r) b
    let same : Prop := (s.reg ctl ^^^ v) &&& 0xFF1F0006 = 0
    let tailOff := if db then Reg.dbTail r else Reg.ringTail r
    let trimmed : Ring := { k with cuts := k.cuts.filter fun c => precedes (ringHead s r) c.2 }
    let inRange : Prop := (v - ringHead s r).toNat ≤ ringN s r
    let becomes (st : RingState) (c : Instr) : Prop := ∃ t, exec c s = .next t ∧ rest t ∧ t.ring r = { k with state := st } ∧
      t = { s with rings := t.rings, mwBroken := t.mwBroken, ctr := t.ctr }
    r < 64 →
    (Admitted s rq ctl v → 6 ≤ log2 → log2 ≤ 16 → s.flag ctl 0 = false → v.getLsbD 0 = true →
      ringBase s r % (2 ^ log2 * 64) = 0 → cqBase s r % (cqN s r * 32) = 0 → isReady s = true → s.replay.stale = false →
      s.sealed = false → k.waitCq = [] → ∃ t, exec (.ringCtlWrite rq r v ext) s = .next t ∧ rest t ∧ (t.ring r).state = .active ∧
        (t.ring r).pos = { seq := s.reg (Reg.ringTail r) } ∧ (t.ring r).running = [] ∧ (t.ring r).frames = [] ∧
        t.reg (Reg.ringCqHead r) = 0 ∧ t.reg (Reg.ringCqTail r) = 0 ∧ t.flag ctl 0 = true) ∧
    (Admitted s rq ctl v → 6 ≤ log2 → log2 ≤ 16 → s.flag ctl 0 = true → same → v.getLsbD 0 = false → k.running = [] →
      ∃ t, exec (.ringCtlWrite rq r v ext) s = .next t ∧ rest t ∧ t.ring r = { k with state := .disabled } ∧
        t.flag ctl 0 = false) ∧
    (Admitted s rq ctl v → 6 ≤ log2 → log2 ≤ 16 → s.flag ctl 0 = true → ¬ same ∨ (v.getLsbD 0 = false ∧ k.running ≠ []) →
      error (.ringCtlWrite rq r v ext) 5) ∧
    (Admitted s rq ctl v → log2 < 6 ∨ 16 < log2 →
      Performs s rq (.ringCtlWrite rq r v ext) fun s => s.setFlag Reg.glbAccessStatus 5) ∧
    (Admitted s rq tailOff v → s.flag ctl 1 = false → inRange → ∃ t, exec (.ringTailWrite rq r db v) s = .next t ∧
      rest t ∧ t.ring r = trimmed ∧ t.reg (Reg.ringTail r) = v) ∧
    (Admitted s rq tailOff v → s.flag ctl 1 = false → ¬ inRange → error (.ringTailWrite rq r db v) 0) ∧
    (Admitted s rq tailOff v → s.flag ctl 1 = true → error (.ringTailWrite rq r db v) 2) ∧
    (∀ l f, s.flag ctl 1 = true → k.state ≠ .disabled → cruHolds s = false →
      escRead (hostRing s r) ext (tailWord s r) 8 s = (.ok l, f) →
      f.regs = s.regs → f.rings = s.rings → v = BitVec.ofNat 32 (ofBytes l) → inRange →
      ∃ t, exec (.tailWordWrite r ext) s = .next t ∧ t.ring r = trimmed ∧ t.reg (Reg.ringTail r) = v ∧ t.mem = f.mem) ∧
    (Admitted s rq (Reg.ringCmd r) 2 → k.state = .active → becomes .paused (.pause rq r ext)) ∧
    (Admitted s rq (Reg.ringCmd r) 2 → k.state ≠ .active → error (.pause rq r ext) 1) ∧
    (Admitted s rq (Reg.ringCmd r) 1 → k.state = .paused ∨ k.state = .haltedErr → becomes .active (.resume rq r ext)) ∧
    (Admitted s rq (Reg.ringCmd r) 1 → k.state = .active ∨ k.state = .disabled → error (.resume rq r ext) 1) ∧
    (Admitted s rq (Reg.ringCmd r) 1 → k.state = .haltedCq →
      s.reg (Reg.ringShadowHead r) ≠ s.reg (Reg.ringShadowTail r) → error (.resume rq r ext) 4)

/-- Host aborts (R281, R282): of an enabled ring, MODE 0 ends the running commands of the sequence number it names,
MODE 1 those and every later one, MODE 2 all of them; MODES 1 and 2 also move the ring's next command to RING_TAIL, or
behind the commands ahead of the named one, which stay, and close the frames of the commands they cover.
RING_ABORT_STATUS tells whether the named command was running or waiting, had completed, or is unknown. -/
def Obligations.RingAborts : Prop :=
  ∀ (s : State) (rq : Requester) (r : Nat) (seq : W32) (ext : Ext),
    let k := s.ring r
    let named : State := storeReg (Reg.ringAbort r) seq s
    let status (t : State) (seq : W32) : Prop :=
      (((∃ c ∈ k.running, c.seq = seq) ∨ isWaiting s r seq = true) → t.reg (Reg.ringAbortStatus r) = 0x80000010) ∧
      ((∀ c ∈ k.running, c.seq ≠ seq) → isWaiting s r seq = false →
        t.reg (Reg.ringAbortStatus r) = if k.done.contains seq then 0x80000005 else 0x80000100)
    let left (t : State) (goes : Cmd → Bool) : Prop :=
      ∀ c, c ∈ (t.ring r).running ↔ c ∈ k.running ∧ ∀ d ∈ k.running, goes d = true → c.uid ≠ d.uid
    let tail := s.reg (Reg.ringTail r)
    let atTail (t : State) : Prop := (t.ring r).pos = { seq := tail } ∧ (t.ring r).cuts = []
    r < 64 → k.state ≠ .disabled → Admitted s rq (Reg.ringAbort r) seq →
    (Admitted named rq (Reg.ringAbortCtl r) 0 → ∃ t, exec (.abortOne rq r seq ext) s = .next t ∧ status t seq ∧
      left t fun c => c.seq == seq) ∧
    (Admitted named rq (Reg.ringAbortCtl r) 1 → ∃ t, exec (.abortOnward rq r seq ext) s = .next t ∧ status t seq ∧
      left t (fun c => covered (some seq) c.seq) ∧ (t.ring r).frames = k.frames.filter (fun f => !covered (some seq) f.cmd.seq) ∧
      (k.pos.inBuf = false → precedes k.pos.seq seq = false → atTail t) ∧
      (k.pos.inBuf = false → precedes k.pos.seq seq = true → precedes seq tail = true →
        (t.ring r).pos = k.pos ∧ (t.ring r).cuts = k.cuts ++ [(seq, tail)])) ∧
    (Admitted s rq (Reg.ringAbortCtl r) 2 → ∃ t, exec (.abortAll rq r ext) s = .next t ∧
      status t (s.reg (Reg.ringAbort r)) ∧ (t.ring r).running = [] ∧ (t.ring r).frames = [] ∧ atTail t)

/-- Completion queues and events as registers (R268, R278): a new RING_CQ_HEAD is taken, and with nothing waiting
changes nothing else; a write of ESC_EVT_HI sets the selected slot to the 64-bit value and no other slot. The
completion arbiter (R263, R278, R281): a committed command no longer runs and its number is the newest of those
completed; one that ends well and asks for no entry writes none; an entry that finds room in its queue is written in
the next slot; a failure without CONTINUE halts an active ring. -/
def Obligations.Completions : Prop :=
  (∀ (s : State) (rq : Requester) (r : Nat) (v : W32) (db : Bool) (ext : Ext),
     let slot := s.fld Reg.escEvtSel 11 0
     let value : W64 := BitVec.ofNat 64 ((s.reg Reg.escEvtLo).toNat + v.toNat * 2 ^ 32)
     (r < 64 → Admitted s rq (if db then Reg.dbCqHead r else Reg.ringCqHead r) v → (s.ring r).waitCq = [] →
       (s.ring r).marker = false → ∃ t, exec (.ringCqHeadWrite rq r db v ext) s = .next t ∧ t.reg (Reg.ringCqHead r) = v ∧
         t = { s with regs := t.regs, parityBad := t.parityBad, rings := t.rings, ctr := t.ctr } ∧ t.ring r = s.ring r) ∧
     (Admitted s rq Reg.escEvtHi v → ∃ t, exec (.eventSet rq v) s = .next t ∧ t.event slot = value ∧ t.mem = s.mem ∧
       (∀ j, j < 4096 → j ≠ slot → t.event j = s.event j) ∧ t.nqs = s.nqs ∧ t.runOut = s.runOut)) ∧
  (∀ (s : State) (ext : Ext) (r : Nat) (c : Cmd) (status detail flags : Nat) (e : Cqe) (f : State),
     let k := s.ring r
     let t := commit ext r c status detail flags s
     let slot := cqBase s r + 32 * ((s.reg (Reg.ringCqTail r)).toNat % cqN s r)
     (t.ring r).running = k.running.filter (fun d => d.uid != c.uid) ∧ (t.ring r).done.head? = some c.seq ∧
     (t.ring r).pos = k.pos ∧ (t.ring r).frames = k.frames ∧ t.events = s.events ∧
     (∀ j, j ≠ r → t.ring j = s.ring j) ∧
     (status < 0x10 → Cb.cqe c.body = false → t.mem = s.mem ∧ t.cores = s.cores ∧ (t.ring r).state = k.state ∧ (t.ring r).waitCq = k.waitCq ∧
       t.reg (Reg.ringCqTail r) = s.reg (Reg.ringCqTail r)) ∧
     (0x10 ≤ status → Cb.cont c.body = false → k.state = .active →
       (t.ring r).state = .haltedErr ∨ (t.ring r).state = .haltedCq) ∧
     (k.waitCq = [] → k.state = .active → cqRoom s r e = true → e.ext = none → e.irq = false → cruHolds s = false →
       escWrite (hostRing s r) ext slot (toBytes 32 e.entry.toNat) s = (.ok (), f) → f.rings = s.rings → f.regs = s.regs →
       (cqPush ext r e s).reg (Reg.ringCqTail r) = s.reg (Reg.ringCqTail r) + 1 ∧ (cqPush ext r e s).mem = f.mem ∧
       (cqPush ext r e s).ring r = k))

/-- A malformed command is BAD_COMMAND with the byte offset of its first offending field, whatever its row, and one of
an unassigned opcode, or a NOTICE whose TYPE is not software's, is malformed (R264); a DISPATCH that asked for DET
says so in its entry. -/
def Obligations.BadCommands : Prop :=
  ∀ (s : State) (ext : Ext) (r : Nat) (b : W512) (f : State) (off : Nat),
    let bad : State := commit ext r (newCmd f r b) 0x15 off 0 (f.admitting r b)
    Takes s ext r b f → cmdOffence (f.admitting r b) b = some off →
    (0x10 < Cb.opcode b → off = 0) ∧
    (Cb.opcode b = 0x00 ∨ 0x10 < Cb.opcode b → exec (.cmdNop r ext) s = .next bad) ∧
    (Cb.opcode b = 0x0F → Cb.flags b < 64 → Cb.det b = false → Cb.at_ b 2 2 = 0 → Cb.at_ b 16 1 < 64 →
      Cb.at_ b 17 1 < 0x10 ∨ 0x3F < Cb.at_ b 17 1 → off = 17) ∧
    (Cb.opcode b = 0x01 → exec (.cmdDispatch r ext) s =
      .next (commit ext r (newCmd f r b) 0x15 off (2 * b2n (Cb.det b)) (f.admitting r b))) ∧
    (Cb.opcode b = 0x02 → exec (.copy r ext) s = .next bad) ∧ (Cb.opcode b = 0x05 → exec (.wait r ext) s = .next bad) ∧
    (Cb.opcode b = 0x0F → exec (.notice r ext) s = .next bad)

/-- The commands that complete when they are admitted (R264, R267, R268): NOP; RECORD, which raises its slot to the
maximum or adds to it up to the largest number and answers the new value; TIMESTAMP, which answers the Beat and writes
it where ADDR says; NOTICE, whose drop shows in DETAIL; WRITE of a word or a register. -/
def Obligations.SimpleCommands : Prop :=
  ∀ (s : State) (ext : Ext) (r : Nat) (b : W512) (f : State),
    let c := newCmd f r b
    let a := f.admitting r b
    let done (op : Instr) (detail : Nat) (u : State) : Prop := exec op s = .next (commit ext r c 0 detail 0 u)
    let slot := Cb.at_ b 16 2 % 4096
    let value := Cb.at_ b 24 8
    let recorded (op : Instr) (v : Nat) : Prop := ∃ u, done op v u ∧ (u.event slot).toNat = v ∧
      (∀ j, j < 4096 → j ≠ slot → u.event j = a.event j) ∧ u.mem = a.mem ∧ u.regs = a.regs
    let word (d : Nat) : List Byte := toBytes d value
    let q := Cb.at_ b 16 1 % 64
    let type := Cb.at_ b 17 1
    let prio := Cb.at_ b 18 1 % 4
    let full : Prop := 2 ^ (a.nq q).depth - 1 ≤ (a.nq q).entries.length
    Admits s ext r b f →
    (Cb.opcode b = 0x00 → done (.cmdNop r ext) 0 a) ∧
    (Cb.opcode b = 0x04 → Cb.at_ b 18 1 = 0 → recorded (.recordMax r ext) (max (a.event slot).toNat value)) ∧
    (Cb.opcode b = 0x04 → Cb.at_ b 18 1 = 1 →
      recorded (.recordAdd r ext) (min ((a.event slot).toNat + value) (2 ^ 64 - 1))) ∧
    (Cb.opcode b = 0x0E → Cb.addr b = 0 → done (.timestamp r ext) a.beat.toNat a) ∧
    (Cb.opcode b = 0x0E → ∀ va u, Cb.addr b ≠ 0 → fabric a (BitVec.ofNat 64 (Cb.addr b)) = .loc va →
      escWrite (hostRing a r) ext va (toBytes 8 a.beat.toNat) a = (.ok (), u) → u.beat = a.beat → done (.timestamp r ext) a.beat.toNat u) ∧
    (Cb.opcode b = 0x0F → nqEnabled a q = true → nqInWindow a q = false → ¬ full → ∃ u, done (.notice r ext) 0 u ∧
      (u.nq q).entries = (a.nq q).entries ++ [mkNotice type prio 0x100 (a.reg (Reg.nqPosted q)).toNat (a.copyOf (32 + q % 16))
        (Cb.at_ b 32 16)] ∧
      u.mem = a.mem ∧ u.cores = a.cores ∧ u.rings = a.rings) ∧
    (Cb.opcode b = 0x0F → nqEnabled a q = false → done (.notice r ext) 1 a) ∧
    (Cb.opcode b = 0x10 → ∀ good va u, regOffset a (Cb.addr b) = none → fabric a (BitVec.ofNat 64 (Cb.addr b)) = .loc va →
      escWrite (hostRing a r) ext va (word (Cb.at_ b 32 1)) a = (.ok (), u) → done (.write r good ext) 0 u) ∧
    (Cb.opcode b = 0x10 → ∀ good off, regOffset a (Cb.addr b) = some off → plainReg off = true → regRange off = none →
      Admitted a (.ring r) off (BitVec.ofNat 32 value) → (∀ e ∈ f.rings, ∀ d ∈ e.2.running, d.uid ≠ f.nextUid) →
      done (.write r good ext) 0 (storeReg off (BitVec.ofNat 32 value) a))

/-- The commands that go on running (R266, R267, R269, R306, R349, R350): COPY is handed to the copy engines unless it
has no bytes; WAIT and STRIKE hold their ring's gate until their slot or Beat comes; a local BARRIER holds the gate
until as many as its COUNT run, which then all complete; a fabric BARRIER joins its tree. -/
def Obligations.LongCommands : Prop :=
  ∀ (s : State) (ext : Ext) (r : Nat) (b : W512) (f : State),
    let c := newCmd f r b
    let a := f.admitting r b
    let gated : State := a.modRing r fun k => { k with gate := some c.uid }
    let holds (op : Instr) (p : Cmd → Prop) : Prop := ∃ t d, exec op s = .next t ∧ (t.ring r).gate = some c.uid ∧
      (t.ring r).running = (s.ring r).running ++ [d] ∧ d.uid = c.uid ∧ d.seq = c.seq ∧ d.body = b ∧ p d ∧ t.mem = a.mem ∧
      t.cores = a.cores ∧ t.events = a.events
    let fresh : Prop := ∀ d ∈ (s.ring r).running, d.uid ≠ f.nextUid
    let bars := localBars gated (Cb.barId b)
    let alike : Prop := ∀ e ∈ bars, Cb.barId e.2.body = Cb.barId b ∧ Cb.count e.2.body = Cb.count b
    Admits s ext r b f →
    (Cb.opcode b = 0x02 → Cb.bytes b = 0 → exec (.copy r ext) s = .next (commit ext r c 0 0 0 a)) ∧
    (Cb.opcode b = 0x02 → Cb.bytes b ≠ 0 → bit (Cb.mode b) 2 = true ∨ copyEndBad a true (Cb.addr b) (Cb.bytes b) = false →
      copyEndBad a false (Cb.value b) (Cb.bytes b) = false → exec (.copy r ext) s = .next a) ∧
    (Cb.opcode b = 0x05 → fresh → holds (.wait r ext) fun d =>
      d.met = decide (Cb.at_ b 24 8 ≤ (a.event (Cb.at_ b 16 2 % 4096)).toNat)) ∧
    (Cb.opcode b = 0x06 → Cb.scope b = 0 → alike → bars.length < Cb.count b →
      exec (.barrierLocal r ext) s = .next gated) ∧
    (Cb.opcode b = 0x06 → Cb.scope b = 0 → alike → Cb.count b ≤ bars.length →
      exec (.barrierLocal r ext) s = .next (forEach (fun e u => commit ext e.1 e.2 0 0 0 u) bars gated)) ∧
    (Cb.opcode b = 0x06 → Cb.scope b = 1 →
      exec (.barrierFabric r ext) s = .next (joinBar ext r c (Cb.barId b) (Cb.axes b) gated)) ∧
    (Cb.opcode b = 0x07 → Cb.addr b ≠ 0 → a.beat.toNat ≤ Cb.addr b → fresh →
      holds (.strike r ext) fun d => d.target = BitVec.ofNat 64 (Cb.addr b))

/-- Control flow (R271 to R273): an IF or LOOP whose condition holds opens a frame and completes; one whose condition
fails, and an ELSE, keep running while the ring passes over commands; END closes an IF, and repeats or leaves a LOOP;
CALL goes on in its buffer and RETURN resumes after the CALL; ELSE, END and RETURN without their frame are
BAD_COMMAND. -/
def Obligations.ControlFlowCommands : Prop :=
  ∀ (s : State) (ext : Ext) (r : Nat) (b : W512) (f : State),
    let c := newCmd f r b
    let a := f.admitting r b
    let k := a.ring r
    let ends (op : Instr) (status : Nat) (u : State) : Prop := exec op s = .next (commit ext r c status 0 0 u)
    let opens (op : Instr) (kind : FrameKind) (u : State) (p : Pos) : Prop := ∃ v, ends op 0 v ∧
      (v.ring r).frames = { kind := kind, cmd := c, iter := 0, pos := k.pos } :: (u.ring r).frames ∧ (v.ring r).pos = p ∧
      v.mem = u.mem ∧ v.cores = u.cores ∧ v.regs = u.regs
    let skips (op : Instr) (before toElse loop : Bool) : Prop := ∃ t, exec op s = .next t ∧
      (t.ring r).skip = some { uid := c.uid, before := before, wantElse := toElse, loop := loop } ∧
      (t.ring r).gate = some c.uid ∧ (t.ring r).frames = k.frames ∧ (t.ring r).running = k.running ∧ t.mem = a.mem ∧
      t.cores = a.cores
    let closes (op : Instr) (fs : List Frame) (p : Pos) : Prop := ∃ v, ends op 0 v ∧ (v.ring r).frames = fs ∧
      (v.ring r).pos = p ∧ v.mem = a.mem ∧ v.cores = a.cores
    let room : Prop := k.frames.length < 8
    let atEnd : Prop := available a r k.pos = false ∧ k.pos.inBuf = false
    Admits s ext r b f →
    (Cb.opcode b = 0x08 → ∀ u, condition ext r b a = (.ok true, u) → u.rings = a.rings → room → opens (.cmdIf r ext) .ifF u k.pos) ∧
    (Cb.opcode b = 0x08 → condition ext r b a = (.ok false, a) → atEnd → k.state = .active →
      skips (.cmdIf r ext) false true false) ∧
    (Cb.opcode b = 0x08 → ∀ e u, condition ext r b a = (.error e, u) → u.rings = a.rings → ends (.cmdIf r ext) e u) ∧
    (Cb.opcode b = 0x09 → ∀ x fs, k.frames = x :: fs → x.kind = .ifF → atEnd → k.state = .active →
      skips (.cmdElse r ext) true false false) ∧
    (Cb.opcode b = 0x09 → k.frames = [] → ends (.cmdElse r ext) 0x15 a) ∧
    (Cb.opcode b = 0x0A → ∀ x fs, k.frames = x :: fs → x.kind = .ifF → closes (.cmdEnd r ext) fs k.pos) ∧
    (Cb.opcode b = 0x0A → ∀ x fs, k.frames = x :: fs → x.kind = .loopF → Cb.loopMode x.cmd.body = 0 → x.pos.inBuf = false →
      if x.iter + 1 < Cb.loopCount x.cmd.body then closes (.cmdEnd r ext) ({ x with iter := x.iter + 1 } :: fs) (k.past x.pos)
      else closes (.cmdEnd r ext) fs k.pos) ∧
    (Cb.opcode b = 0x0A → k.frames = [] → ends (.cmdEnd r ext) 0x15 a) ∧
    (Cb.opcode b = 0x0B → Cb.loopMode b = 0 → Cb.loopCount b ≠ 0 → room → opens (.loopCount r ext) .loopF a k.pos) ∧
    (Cb.opcode b = 0x0B → Cb.loopMode b = 1 → ∀ u, condition ext r b a = (.ok true, u) → u.rings = a.rings → room →
      opens (.loopCondition r ext) .loopF u k.pos) ∧
    (Cb.opcode b = 0x0B → Cb.loopMode b = 0 → Cb.loopCount b = 0 → atEnd → k.state = .active → 1 < ringN a r →
      skips (.loopCount r ext) false false true) ∧
    (Cb.opcode b = 0x0B → Cb.loopMode b = 1 → condition ext r b a = (.ok false, a) → atEnd → k.state = .active →
      1 < ringN a r → skips (.loopCondition r ext) false false true) ∧
    (Cb.opcode b = 0x0C → room → opens (.cmdCall r ext) .callF a
      { inBuf := true, seq := c.seq, addr := Cb.addr b, entries := Cb.entries b, idx := 0 }) ∧
    (Cb.opcode b = 0x0D → ∀ x fs, k.frames = x :: fs → x.kind = .callF → x.pos.inBuf = false →
      closes (.cmdReturn r ext) fs (k.past x.pos)) ∧
    (Cb.opcode b = 0x0D → k.frames = [] → ends (.cmdReturn r ext) 0x15 a)

/-- The events that end running commands (R266, R269, R275 to R277, R349): the last piece of a COPY, which tells
whether it moved poison, a WAIT whose slot has been high enough, a STRIKE whose Beat has come, a command whose limit
has passed, and the declaration of a mutual wait, which records the blocked rings. A WAIT that has not been met, and a
mutual wait that is not due, change nothing. -/
def Obligations.RunningCommandEvents : Prop :=
  ∀ (s : State) (ext : Ext) (r n : Nat) (c : Cmd),
    let op := Cb.opcode c.body
    let done (e : Instr) (detail : Nat) (u : State) : Prop := exec e s = .next (commit ext r c 0 detail 0 u)
    let mask := ((List.range 64).map fun j => if blocked s j then 2 ^ j else 0).sum
    (runningAt s r n = some c → op = 0x02 → cruHolds s = false → Cb.bytes c.body ≠ 0 → Cb.bytes c.body ≤ 2 ^ 21 → c.pieces = [] →
      c.written = 0 → c.poisoned = false → pieceHeld s c.body 0 = false →
      ∀ l u v, pieceRead ext c.body 0 (Cb.bytes c.body) s = (.ok l, u) → pieceWrite ext r c 0 l u = (.ok (), v) →
      exec (.copyPieceDone r n 0 ext) s = .next (commit ext r c (if l.any then 0x17 else 0) (Cb.bytes c.body) 0 v)) ∧
    (runningAt s r n = some c → op = 0x05 → c.met = true →
      done (.waitWake r n ext) (s.event (Cb.at_ c.body 16 2 % 4096)).toNat s) ∧
    (runningAt s r n = some c → op = 0x05 → c.met = false → exec (.waitWake r n ext) s = .next s) ∧
    (runningAt s r n = some c → op = 0x07 → c.target.toNat ≤ s.beat.toNat → replaying s = false → recording s = false →
      ∃ u, done (.strikeFire r n ext) 0 u ∧ u = { s with streams := u.streams, regs := u.regs }) ∧
    (runningAt s r n = some c → op = 0x07 → s.beat.toNat < c.target.toNat → exec (.strikeFire r n ext) s = .next s) ∧
    (runningAt s r n = some c → op = 0x02 → 1000 * c.limit < (s.beat - c.start).toNat → s.flag Reg.rsrCtl 1 = false →
      exec (.commandTimeout r n ext) s = .next (commit ext r c 0x12 (c.written % 2 ^ 48) 0 s)) ∧
    (runningAt s r n = some c → (s.beat - c.start).toNat ≤ 1000 * c.limit → exec (.commandTimeout r n ext) s = .next s) ∧
    (mwDue s = true → ∃ t, exec (.mutualWait ext) s = .next t ∧ t.mwSince = none ∧
      t.reg Reg.escMwMaskLo = BitVec.ofNat 32 mask ∧ t.reg Reg.escMwMaskHi = BitVec.ofNat 32 (mask / 2 ^ 32) ∧
      ∀ j d, j < 64 → blocked s j = true → d ∈ (t.ring j).running → d ∈ (s.ring j).running ∧ stuckCmd s d = false) ∧
    (mwDue s = false → exec (.mutualWait ext) s = .next s)

/-- Dispatches (R172 to R176, R190, R262, R265, R375, R443, Table 8.6). A DISPATCH whose header, set and shapes are
right starts a part on each core of its set that is free: the core runs from the image's first instruction with its
rank and the size of the set in x1 and x2 and zeros elsewhere; one with a malformed header or without cores is
BAD_COMMAND, with shapes beyond the plan BAD_SHAPE, with an empty grid EMPTY_DISPATCH. Under seal an image that the
manifest does not name is ACCESS_DENIED, and one not yet hashed waits for its hash, which lets it go on or denies it.
A core that becomes free later starts then; the DISPATCH commits when every core has ended its part, with the status
of its deciding trap if it has one. -/
def Obligations.Dispatches : Prop :=
  ∀ (s u v : State) (ext : Ext) (r n c : Nat) (b : W512) (f : State) (h sh : List Byte) (x : Cmd),
    let cmd := newCmd f r b
    let a := f.admitting r b
    let set := upFrom (Cb.at_ b 32 2) (Cb.at_ b 34 2)
    let rt := shapesOf sh
    let dispatches : Prop := Admits s ext r b f ∧ Cb.opcode b = 0x01
    let sealedImage : Prop := dispatches ∧ a.sealed = true ∧ a.verified.contains (Cb.addr b) = false
    let ready : Prop := dispatches ∧ a.sealed = false ∧ Cb.core1 b = 0 ∧ (∀ j ∈ set, coreInService a j = true) ∧
      escReadAt false ext (Cb.addr b) 128 a = (.ok h, u) ∧ escReadAt false ext (Cb.at_ b 24 8) 96 u = (.ok sh, v)
    let fits : Prop := badHeader h = false ∧ set ≠ [] ∧ exceedsPlan rt (shapesOf (h.drop 16)) = false
    let part (k : Core) (uid rank size : Nat) : Prop := k.mode = .running ∧ k.disp = some uid ∧ k.hold = none ∧ k.pc = 0 ∧
      k.entry = bytesAt h 8 4 ∧ k.f = [] ∧ k.v = [] ∧
      ∀ j, Tab.get 0 k.x j = if j = 1 then BitVec.ofNat 64 rank else if j = 2 then BitVec.ofNat 64 size else 0
    let ends (status : Nat) : Prop := exec (.cmdDispatch r ext) s =
      .next (commit ext r cmd status 0 (2 * b2n (Cb.det b)) { v with disps := Tab.erase v.disps cmd.uid })
    let d := s.disp x.uid
    let running : Prop := runningAt s r n = some x ∧ Cb.opcode x.body = 0x01
    (ready → fits → (rt.headD {}).m ≠ 0 → (rt.headD {}).n ≠ 0 → ∃ t, exec (.cmdDispatch r ext) s = .next t ∧
      (t.disp cmd.uid).live = true ∧ (t.disp cmd.uid).set = set ∧
      t = { v with cores := t.cores, disps := t.disps, ctr := t.ctr, regs := t.regs, streams := t.streams } ∧
      ∀ k, (k ∈ set ∧ coreFree v k = true → part (t.core k) cmd.uid (k - Cb.at_ b 32 2) (Cb.at_ b 34 2)) ∧
        (k ∉ set ∨ coreFree v k = false → t.core k = v.core k)) ∧
    (ready → badHeader h = true → ends 0x15) ∧
    (ready → badHeader h = false → set ≠ [] → exceedsPlan rt (shapesOf (h.drop 16)) = true → ends 0x14) ∧
    (ready → fits → (rt.headD {}).m = 0 → ends 0x01) ∧
    (sealedImage → imageOf a b = none →
      exec (.cmdDispatch r ext) s = .next (commit ext r cmd 0x16 0 (2 * b2n (Cb.det b)) a)) ∧
    (sealedImage → (imageOf a b).isSome = true → ∃ t, exec (.cmdDispatch r ext) s = .next t ∧
      (t.disp cmd.uid).verifying = true ∧ (t.disp cmd.uid).live = false ∧ t = { a with disps := t.disps }) ∧
    (running → d.verifying = true → ∀ i l w, imageOf s x.body = some i → escReadAt false ext i.addr i.bytes s = (.ok l, w) →
      BitVec.ofNat 256 (ofBytes (sha256 l)) ≠ i.digest →
      exec (.imageVerifyDone r n ext) s = .next (endCommand ext r x 0x16 w)) ∧
    (running → d.verifying = true → ∀ i l w, imageOf s x.body = some i → escReadAt false ext i.addr i.bytes s = (.ok l, w) →
      BitVec.ofNat 256 (ofBytes (sha256 l)) = i.digest → w.verified.contains i.addr = false →
      exec (.imageVerifyDone r n ext) s = .next (checkDispatch ext r x { w with verified := w.verified ++ [i.addr]
                                                                                xlat := (protectImage i w).xlat })) ∧
    (running → d.verifying = true → imageOf s x.body = none →
      exec (.imageVerifyDone r n ext) s = .next (endCommand ext r x 0x16 s)) ∧
    (running → d.live = true → c ∈ d.set → c ∉ d.started → d.trap = none → d.fault = none → coreFree s c = true →
      d.entry = bytesAt h 8 4 → ∃ t, exec (.dispatchCoreStart r n c) s = .next t ∧
        part (t.core c) x.uid (d.set.filter (· < c)).length d.set.length ∧ OthersKeep s t c ∧
        (t.disp x.uid).started = d.started ++ [c] ∧ t.mem = s.mem ∧ t.rings = s.rings) ∧
    (running → d.live = true → d.trap = none → d.fault = none → (∀ j ∈ d.set, j ∈ d.started) →
      (∀ j ∈ d.started, (s.core j).mode = .idle) → ∃ status, exec (.dispatchComplete r n ext) s =
        .next (releaseCores x.uid (commit ext r x status (dispDetail s d status).1 (dispDetail s d status).2 s)) ∧
        status = if dispSum s d (·.nonfinite) = 0 then 0x00 else 0x04) ∧
    (running → d.live = true → ∀ t, d.trap = some t →
      (∀ j ∈ d.started, (s.core j).mode ≠ .running ∧ (s.core j).mode ≠ .resetting) →
      exec (.dispatchComplete r n ext) s = .next (releaseCores x.uid (commit ext r x (trapStatus t.1)
        (dispDetail s d (trapStatus t.1)).1 (dispDetail s d (trapStatus t.1)).2 s)))

/-- The chain runner (R286, Tables 8.11, 8.12). A write of ESC_CHAIN_HI starts the chain at its address. A descriptor
begins its work when it is read, whatever row shows it; a malformed one is BAD_COMMAND, a misaligned one ends the
chain. When its work has ended its STATUS and END_BEAT are written and the chain goes on at NEXT; at the last, at an
error and at a limit that has passed the chain ends with its status and the address of its descriptor. -/
def Obligations.Chains : Prop :=
  ∀ (s u : State) (ext : Ext) (rq : Requester) (v : W32) (good : Nat) (c : Chain) (l : List Byte),
    let d : W512 := BitVec.ofNat 512 (ofBytes l)
    let now : Chain := { c with desc := d, start := s.beat }
    let fetches (kind : Nat) : Prop := s.chain = some c ∧ c.work = .fetch ∧ cruHolds s = false ∧ c.addr % 64 = 0 ∧
      escReadAt false ext c.addr 64 s = (.ok l, u) ∧ u.chain = s.chain ∧ Cd.kind d = kind
    let begins (i : Instr) (w : ChainWork) : Prop := exec i s = .next { u with chain := some { now with work := w } }
    let works (w : ChainWork) : Prop := s.chain = some { c with work := w } ∧ cruHolds s = false
    let quiet (t : State) : Prop := t.mem = u.mem ∧ t.cores = u.cores ∧ t.rings = u.rings
    (Admitted s rq Reg.escChainHi v → Performs s rq (.chainStart rq v) fun s =>
      { s with posted := s.posted ++ [(Reg.escChainHi, v)]
               chain := some { addr := v.toNat % 2 ^ 16 * 2 ^ 32 + s.fld Reg.escChainLo 31 6 * 64, desc := 0,
                               start := s.beat, work := .fetch } }) ∧
    (fetches 1 → Cd.bad d = false → begins (.chainCopy ext) .copy) ∧
    (fetches 2 → Cd.bad d = false → begins (.chainFill ext) .fill) ∧
    (fetches 4 → Cd.bad d = false → begins (.chainPoll ext) .poll) ∧
    (fetches 3 → Cd.bad d = false → regOffset u (Cd.arg d 1) = none → ∀ va w,
      fabric u (BitVec.ofNat 64 (Cd.arg d 1)) = .loc va → escWrite false ext va (toBytes 8 (Cd.arg d 2)) u = (.ok (), w) →
      w.chain = s.chain →
      exec (.chainWrite good ext) s = .next { w with chain := some { now with work := .done 0 } }) ∧
    (fetches 5 → Cd.bad d = false → ∃ t, exec (.chainWipe ext) s = .next t ∧ t.chain = some { now with work := .wipe } ∧
      t.wiping = some .cru ∧ t.nqs = [] ∧ t.wcs = []) ∧
    (fetches 6 → Cd.bad d = false → 0x10 ≤ Cd.arg d 3 % 256 → Cd.arg d 3 % 256 ≤ 0x3F → nqEnabled u (Cd.arg d 2 % 64) = true →
      nqInWindow u (Cd.arg d 2 % 64) = false →
      (u.nq (Cd.arg d 2 % 64)).entries.length < 2 ^ (u.nq (Cd.arg d 2 % 64)).depth - 1 →
      ∃ t prio, exec (.chainNotice ext) s = .next t ∧ t.chain = some { now with work := .done 0 } ∧ quiet t ∧
        (t.nq (Cd.arg d 2 % 64)).entries = (u.nq (Cd.arg d 2 % 64)).entries ++ [mkNotice (Cd.arg d 3 % 256) prio 0x100
          (u.reg (Reg.nqPosted (Cd.arg d 2 % 64))).toNat (u.copyOf (32 + Cd.arg d 2 % 64 % 16)) (Cd.arg d 0 + Cd.arg d 1 * 2 ^ 64)]) ∧
    (∀ kind, fetches kind → Cd.bad d = true → begins (.chainCopy ext) (.done 0x15)) ∧
    (s.chain = some c → c.work = .fetch → cruHolds s = false → c.addr % 64 ≠ 0 →
      exec (.chainCopy ext) s = .next (chainEnd c.addr 0x15 s)) ∧
    (works .poll → escReadAt false ext (Cd.arg c.desc 1) 8 s = (.ok l, u) → u.chain = s.chain →
      exec (.chainPollMatch ext) s = .next (if Nat.land (ofBytes l) (Cd.arg c.desc 2) = Cd.arg c.desc 3
        then { u with chain := some { c with work := .done 0 } } else s)) ∧
    (∀ st w z, works (.done st) → escWrite false ext (c.addr + 2) (toBytes 1 st) s = (.ok (), w) → w.beat = s.beat →
      escWrite false ext (c.addr + 48) (toBytes 8 s.beat.toNat) w = (.ok (), z) → z.beat = s.beat → Cd.notify c.desc = false →
      exec (.chainDescriptorDone ext) s = .next (if st < 0x10 ∧ Cd.next c.desc ≠ 0
        then { z with chain := some { addr := Cd.next c.desc, desc := 0, start := s.beat, work := .fetch } }
        else chainEnd c.addr st z)) ∧
    (works .fill → ∀ va w, Cd.arg c.desc 0 ≠ 0 → fabric s (BitVec.ofNat 64 (Cd.arg c.desc 1)) = .loc va →
      escWrite false ext va (fillBytes (Cd.arg c.desc 0) (Cd.arg c.desc 2)) s = (.ok (), w) →
      exec (.chainDescriptorDone ext) s = .next (descriptorEnd ext { c with work := .fill } 0 w)) ∧
    (works .copy → ∀ st w, chainCopyAll ext c.desc s = (st, w) → Cd.arg c.desc 0 ≠ 0 →
      exec (.chainDescriptorDone ext) s = .next (descriptorEnd ext { c with work := .copy } st w)) ∧
    (works .poll → exec (.chainDescriptorDone ext) s = .next s) ∧
    (works .poll → 1000 * Cd.timeout c.desc < (s.beat - c.start).toNat → ∃ t, exec (.chainTimeout ext) s = .next t ∧
      t.chain = none ∧ t.reg Reg.escChainStatus = 0x12 ∧ t.posted = s.posted.filter fun p => p.1 != Reg.escChainHi) ∧
    (works .poll → (s.beat - c.start).toNat ≤ 1000 * Cd.timeout c.desc → exec (.chainTimeout ext) s = .next s) ∧
    (∃ t, chainEnd c.addr 0x15 s = t ∧ t.chain = none ∧ t.reg Reg.escChainStatus = 0x15 ∧
      t.reg Reg.escChainFailLo = BitVec.ofNat 32 (c.addr / 64 * 64))

/-- The collective operations (R303 to R305, R307, R310, R312, R314, R317, R324, R326, Tables 9.5, 9.6). A
descriptor's first offending field makes the COLLECTIVE BAD_COMMAND. REDUCE_OPEN opens its record, adopts the messages
held for it, and with INIT_ZERO clears its shard; REDUCE_SEND sends each shard and its RACC_END to the shard's owner,
and one whose deadline has passed sends nothing and is late; a ring reduction sends the first chunk of each of its two
directions; in a group of one device the ring reductions and ALL_GATHER copy SRC to DST, MULTICAST sends to nobody,
and PARAM_COMMIT writes DST and adds to the norms; CHECKPOINT sends to the + neighbour on the axis of the data. A
vetoed step refuses what would reduce; the send operations commit when their last message has been accepted, with the
status of what they met. -/
def Obligations.Collectives : Prop :=
  ∀ (s u : State) (ext : Ext) (r n off : Nat) (b : W512) (f : State) (l : List Byte) (x : Cmd) (k : Coll),
    let c := newCmd f r b
    let a := f.admitting r b
    let d := CollDesc.parse l
    let flags := if d.det then 2 else 0
    let runs (op : Nat) : Prop := Admits s ext r b f ∧ Cb.opcode b = 0x03 ∧ Cb.addr b % 128 = 0 ∧
      descOp s ext b = some op ∧ escReadAt false ext (Cb.addr b) 128 a = (.ok l, u) ∧ d.op = op
    let starts (op : Nat) : Prop := runs op ∧ CollDesc.offence l (axisSize u d.axis) = none
    let alone (op : Nat) : Prop := starts op ∧ groupSize u d = 1 ∧ groupPos u d = 0 ∧ vetoActs u = false
    let ends (i : Instr) (p q : Blob) (wrote : Nat) (z : State) : Prop := exec i s =
      .next (collDone ext c.uid (z.setColl c.uid { desc := d, poisoned := p.any || q.any, wrote := wrote }))
    let refuses (i : Instr) (status detail : Nat) : Prop := exec i s = .next (commit ext r c status detail flags u)
    let copies (i : Instr) (wrote : Nat) : Prop := ∀ p q w z, readSrc ext d 0 d.count u = (.ok (p, q), w) →
      groupSize w d = 1 → writeDst ext d 0 p q w = (.ok (), z) → groupSize z d = 1 → z.early = [] →
      p.data.length = d.bytes d.count → q.data.length = d.scales d.count → ends i p q wrote z
    let whole := d.bytes d.count + d.scales d.count
    let message (opc : Nat) (p : Blob) : RunMsg :=
      { opc := opc, vc := dataVc (ownId u) (groupId u d 0), dest := groupId u d 0, src := ownId u, stream := collStream r
        addr := d.dst, ring := r, seq := c.seq.toNat, ext := collExt d 0 d.rank 0, data := p.data, poison := p.mask
        late := if d.det then 0 else d.deadline }
    let ckpt (w : State) (p : Blob) : RunMsg :=
      { opc := 0x30, vc := 5, dest := withCoord (ownId w) 3 ((coordOf (ownId w) 3 + 1) % axisSize w 3), src := ownId w
        stream := collStream r, addr := d.dst, ring := r, seq := c.seq.toNat, data := p.data, poison := p.mask, ackReq := true }
    let opened (pa : Nat) : Rec :=
      { state := .opened, uid := c.uid, die := stackOf pa, base := d.dst, elems := d.count, units := d.units
        deadline := d.deadline, layer := d.layer, norm := d.normAddr, det := d.det, staged := d.staged, mean := d.mean
        norms := d.norms, ranked := d.ranked }
    let open_ (pa : Nat) : Prop := (u.recOf d.red).state ≠ .opened ∧ (u.recOf d.red).state ≠ .closing ∧
      ((d.det = true ∨ d.deadline ≠ 0) → d.staged = true) ∧ (u.flag Reg.trnCtl 0 = false ∨ u.gateSent = false) ∧
      hbmAt u d.dst = some pa ∧ shardInAperture u d.dst d.count = false ∧
      recCount u (fun k => (k.state == .opened || k.state == .closing) && k.die == stackOf pa) < 256
    let late (w : State) : Prop := d.deadline ≠ 0 ∧ d.det = false ∧ deadlinePassed w d.deadline = true
    let begins (i : Instr) : Prop := ∀ p p' w w', d.fmt.isBlock = false → groupSize u d ≠ 0 → groupSize u d ≠ 1 →
      let half := shardElems u d / 2
      let size := groupSize u d
      let fst := chunkFirst u d ((groupPos u d + size - 1) % size) false
      let v (p : Blob) (w : State) : State := sendPart r c d false 0 0 fst p {} w
      let snd := chunkFirst (v p w) d ((groupPos u d + 1) % size) true
      0 < half → half ≤ 1024 → readSrc ext d fst half (u.setColl c.uid { desc := d }) = (.ok (p, {}), w) → p.any = false →
      readSrc ext d snd half (v p w) = (.ok (p', {}), w') → p'.any = false →
      exec i s = .next (sendPart r c d true 0 0 snd p' {} w')
    let added (p q p' q' : List Byte) (z : State) : State := normWrite ext d.normAddr (fun rec =>
      [(4, (fadd FFmt.fp32 (bytesAt rec 4 4) (scanSquares (fp32Codes d d.count p q))).1),
       (8, (fadd FFmt.fp32 (bytesAt rec 8 4) (scanSquares (((fp32Codes d d.count p q).zip (fp32Codes d d.count p' q')).map
         fun e => (fsub FFmt.fp32 e.1 e.2).1))).1)]) z
    let offered : Prop := runningAt s r n = some x ∧ Cb.opcode x.body = 0x03 ∧ s.coll x.uid = some k ∧ cruHolds s = false ∧
      (k.desc.op = 2 ∨ k.desc.op = 6 ∨ k.desc.op = 7) ∧ stillSends s x.uid = false
    (runs 6 → CollDesc.offence l (axisSize u d.axis) = some off → refuses (.multicast r ext) 0x15 off) ∧
    (starts 1 → vetoActs u = false → ∀ pa, open_ pa → ∃ w, exec (.reduceOpen r ext) s =
        .next (forEach redMessage (u.recOf d.red).held (if d.initZero = true then zeroShard d.dst d.count w else w)) ∧
      w = { u with recs := w.recs, ctr := w.ctr, regs := w.regs, streams := w.streams } ∧
      w.recOf d.red = opened pa ∧ ∀ j, j ≠ d.red → w.recOf j = u.recOf j) ∧
    (alone 2 → d.comp = 0 → 0 < d.count → d.count ≤ 1024 → ∀ p q w, readSrc ext d 0 d.count u = (.ok (p, q), w) →
      (¬late w → exec (.reduceSend r ext) s = .next (raccSend (message 0x12 {}) (raccSend (message 0x10 (p.append q))
        (w.setColl c.uid { desc := d, poisoned := (p.append q).mask != 0 })))) ∧
      (late w → exec (.reduceSend r ext) s =
        .next (collDone ext c.uid (w.setColl c.uid { desc := d, late := true, unsent := 2 })))) ∧
    (starts 2 → vetoActs u = true → refuses (.reduceSend r ext) 0x1A 0) ∧
    (alone 3 → copies (.ringReduceScatter r ext) 0) ∧
    (starts 3 → vetoActs u = false → begins (.ringReduceScatter r ext)) ∧
    (starts 3 → vetoActs u = true → refuses (.ringReduceScatter r ext) 0x1A 0) ∧
    (alone 4 → copies (.ringAllReduce r ext) 0) ∧
    (starts 4 → vetoActs u = false → begins (.ringAllReduce r ext)) ∧
    (alone 5 → copies (.allGather r ext) whole) ∧
    (alone 6 → ∀ p q w, readSrc ext d 0 d.count u = (.ok (p, q), w) → groupSize w d = 1 →
      exec (.multicast r ext) s = .next (w.setColl c.uid { desc := d, poisoned := p.any || q.any })) ∧
    (starts 7 → u.flag Reg.trnCtl 0 = true → u.flag Reg.trnStatus 1 = false → refuses (.paramCommit r ext) 0x15 0) ∧
    (alone 7 → (u.flag Reg.trnCtl 0 = true → u.flag Reg.trnStatus 1 = true) → ∀ p q w p' q' w' z,
      readVals ext d 0 d.count u = (.ok (p, q), w) →
      readVals ext { d with src := d.dst, ssrc := d.sdst } 0 d.count w = (.ok (p', q'), w') →
      writeDst ext d 0 { data := p } { data := q } w' = (.ok (), z) → groupSize (added p q p' q' z) d = 1 →
      let y := (added p q p' q' z).setColl c.uid { desc := d }
      exec (.paramCommit r ext) s = .next (if d.buddy = false then y else
        let y' := sendCkpt r c d.dst { data := p } y
        if q = [] then y' else sendCkpt r c d.sdst { data := q } y')) ∧
    (starts 8 → d.count ≤ 4096 → ∀ p w, collFetch ext d.src d.count u = (.ok p, w) → p.data.length = d.count →
      exec (.checkpoint r ext) s = .next (neighbourSend 3 false (ckpt w (p.slice 0 4096))
        (w.setColl c.uid { desc := d, acks := 1, poisoned := p.any }))) ∧
    (offered → k.resid = [] → findCmd s x.uid = some (r, x) → k.desc.det = false → s.sealed = false → k.unsent = 0 →
      k.raised = [] → k.nonfinite = 0 → exec (.collectiveSendAccepted r n ext) s =
        .next ((commit ext r x (if k.poisoned then 0x17 else if k.late then 0x02 else 0) 0 0 s).dropColl x.uid)) ∧
    (offered → k.resid ≠ [] → ∀ w, collWrite ext k.desc.resid k.resid s = (.ok (), w) →
      exec (.collectiveSendAccepted r n ext) s = .next (collDone ext x.uid w))

/-- The messages that a device takes at the end of the local path (R76, R77, R206, R207, R299 to R301, R305, R306,
R308, R327, R346, R351, Table 9.3). PUT, SQ_DATA, CKPT and MCAST write their data, PUT_FLAG its data and then its
flag; a destination that cannot be written answers NAK and writes nothing. SQ_PUBLISH shows slots to the consumer in
the order of their reservation and SQ_CREDIT frees slots of the producer; WACK and NAK act on the command they name;
barrier messages move their tree; a VETO of this step vetoes it, one of the next step is kept, one of another is
noted, and each goes on once; STRIKE_SET sets the strike target; SYNC_REQ is answered and SYNC_RSP ends the exchange
it answers. -/
def Obligations.RunnerMessages : Prop :=
  ∀ (s : State) (ext : Ext) (m : RunMsg) (before after : List RunMsg) (pa : Nat) (na : Bool) (x : Cmd),
    let w : State := { s with localPath := before ++ after }
    let here (opc : Nat) : Prop := s.localPath = before ++ m :: after ∧ (∀ y ∈ before, y.stream ≠ m.stream ∨ y.vc ≠ m.vc) ∧
      mustWait s m = false ∧ m.opc = opc
    let does (i : Nat → Instr) (t : State) : Prop := exec (i 16) s = .next t
    let inScratch : Prop := 0 < m.data.length ∧ m.data.length ≤ 2048 ∧ m.addr % 2 ^ 21 + m.data.length ≤ 2 ^ 21 ∧
      translate s .write m.addr = some (pa, na) ∧ m.poison = 0 ∧ m.ackReq = false ∧ s.win.misses = [] ∧
      writeRefusal w ext m.addr m.data.length = none ∧
      ∀ j, j < m.data.length → ∃ key, place s (pa + j) = .scratch key ∧ inNoticeRing s key = false
    let written (t : State) : Prop :=
      (∀ j key, j < m.data.length → place s (pa + j) = .scratch key → t.byte key = (m.data[j]?).getD 0) ∧
      (∀ key, (∀ j, j < m.data.length → place s (pa + j) ≠ .scratch key) → t.byte key = s.byte key) ∧ t.regs = s.regs
    let puts (opc : Nat) (i : Nat → Instr) : Prop :=
      (here opc → inScratch → ∃ t, does i t ∧ written t ∧ t.localPath = before ++ after ∧ t.links = s.links) ∧
      (here opc → ∀ st, writeRefusal w ext m.addr m.data.length = some (st, none) → does i (runSend (nakOf (ownId w) m st) w))
    let q := m.hi / 4
    let step := bytesAt m.data 0 4
    let job := bytesAt m.data 4 2
    let bar := s.bar m.seq
    let word (o : Nat) : W64 := BitVec.ofNat 64 (bytesAt m.data o 8)
    let entry : SqEntry :=
      { first := (m.addr - (s.fld (Reg.sqBaseHi q) 15 0 * 2 ^ 32 + s.fld (Reg.sqBaseLo q) 31 12 * 4096)) / sqSlot s q
        count := bytesAt m.data 8 8, len := some (word 0) }
    let ours : Prop := job = s.fld Reg.runJob 15 0 ∧ s.flag Reg.trnCtl 0 = true
    let now := (s.reg Reg.trnStep).toNat
    puts 0x01 (.runnerPut · m ext) ∧ puts 0x03 (.sqData · m ext) ∧ puts 0x30 (.ckpt · m ext) ∧
    (here 0x02 → writeRefusal w ext (bits m.x 47 0) 8 = none → writeRefusal w ext m.addr m.data.length = none →
      m.ackReq = false → does (.putFlag · m ext) (writeVirt ext {} (fun _ => true) (bits m.x 47 0)
        (toBytes 8 (bits m.x 127 64)) (writeData ext m w)).2) ∧
    (here 0x02 → ∀ st, writeRefusal w ext (bits m.x 47 0) 8 = some (st, none) → does (.putFlag · m ext) (runSend (nakOf (ownId w) m st) w)) ∧
    (here 0x18 → inScratch → m.hi = 0 → s.colls = [] → ∃ t, does (.mcast · m ext) t ∧ written t ∧
      t.early = s.early.filter (fun e => !(e.src == m.src && e.addr == m.addr))
        ++ [{ src := m.src, addr := m.addr, bytes := m.data.length }]) ∧
    (here 0x04 → sqHas s q 2 = true → (s.sq q).early = [] → ∃ t, does (.sqPublish · m ext) t ∧
      ((s.sq q).expect = entry.first → (t.sq q).visible = (s.sq q).visible ++ [entry] ∧ (t.sq q).early = []) ∧
      ((s.sq q).expect ≠ entry.first → (t.sq q).visible = (s.sq q).visible ∧ (t.sq q).early = [entry]) ∧
      t = { w with sqs := t.sqs } ∧ ∀ j, j ≠ q → t.sq j = s.sq j) ∧
    (here 0x04 → sqHas s q 2 = false → does (.sqPublish · m ext) w) ∧
    (here 0x05 → sqHas s q 1 = true → ∃ t, does (.sqCredit · m ext) t ∧ (t.sq q).used = (s.sq q).used - m.seq ∧
      t = { w with sqs := t.sqs } ∧ ∀ j, j ≠ q → t.sq j = s.sq j) ∧
    (here 0x06 → cmdsAt s m.ring (BitVec.ofNat 32 m.seq) = [x] → Cb.opcode x.body = 0x10 → ∃ t, does (.wack · m ext) t ∧
      t = { w with rings := t.rings } ∧ (s.ring m.ring).running = [x] →
        (t.ring m.ring).running = [{ x with acks := x.acks - m.addr % 2 ^ 16 }]) ∧
    (here 0x3E → ofCommand m.hi = true → cmdsAt s m.ring (BitVec.ofNat 32 m.seq) = [x] →
      does (.nak · m ext) (endCommand ext m.ring x (m.addr % 256) w)) ∧
    (here 0x20 → bar.own = [] → ∃ t, does (.barArrive · m ext) t ∧ t = { w with bars := t.bars } ∧
      (∀ j, j ≠ m.seq → t.bar j = s.bar j) ∧ m.src ∈ (t.bar m.seq).arrived ∧ (t.bar m.seq).own = [] ∧
      (t.bar m.seq).veto = (bar.veto || bit m.addr 1)) ∧
    (here 0x21 → bar.sent = true → does (.barRelease · m ext) (releaseBar ext m.seq (bit m.addr 0) (bit m.addr 1) w)) ∧
    (here 0x21 → bar.sent = false → does (.barRelease · m ext) w) ∧
    (here 0x22 → m.src ∈ bar.arrived → bar.sent = false → bar.own ≠ [] → ∃ t, does (.barWithdraw · m ext) t ∧
      (t.bar m.seq).arrived = bar.arrived.filter (· != m.src) ∧ (t.bar m.seq).own = bar.own ∧
      t = { w with bars := t.bars, gateSent := t.gateSent }) ∧
    (here 0x23 → ¬ours → does (.veto · m ext) (passVeto m w)) ∧
    (here 0x23 → ours → step = now → does (.veto · m ext) (vetoStep ext 4 m.data (passVeto m w))) ∧
    (here 0x23 → ours → step = (now + 1) % 2 ^ 32 → does (.veto · m ext) (vetoNext m (passVeto m w))) ∧
    (here 0x23 → ours → step ≠ now → step ≠ (now + 1) % 2 ^ 32 → does (.veto · m ext) (w.setFlag Reg.trnErr 2)) ∧
    (s.vetoesSeen.contains (job, step) = true → passVeto m w = w) ∧
    (here 0x24 → barChildren s 0xF = [] → s.flag Reg.beatSsCtl 12 = true → recording s = false → ∃ t, does (.strikeSet · m ext) t ∧
      t.bt.strike = some (word 0) ∧ t.reg Reg.beatSsCount = s.reg Reg.beatSsCount + 1 ∧ t.mem = s.mem ∧
      ∀ c, (s.core c).hold = none → t.core c = s.core c) ∧
    (here 0x24 → barChildren s 0xF = [] → s.flag Reg.beatSsCtl 12 = false → does (.strikeSet · m ext) w) ∧
    (here 0x38 → bytesAt m.data 0 1 = 1 → does (.syncReq · m ext) (syncRequest 16 m w)) ∧
    (here 0x38 → bytesAt m.data 0 1 = 2 → ∀ n t1, s.bt.waiting = some (n, t1) → bytesAt m.data 2 2 = n.toNat → word 8 = t1 →
      let theta := 8 * ((word 16 - t1).toInt - (s.copyOf 56 - word 24).toInt) - (s.reg Reg.beatAsym).toInt
      ∃ t, does (.syncRsp · m ext) t ∧ t.bt.theta = BitVec.ofInt 32 theta ∧ t.bt.waiting = none ∧ t.mem = s.mem ∧
        (theta.natAbs ≤ 16000 → t.beat = s.beat)) ∧
    (here 0x38 → bytesAt m.data 0 1 ≠ 1 → bytesAt m.data 0 1 ≠ 2 → does (.maint · m ext) w)

/-- Reductions at their owner (R307 to R314, R331, Tables 9.7, 9.9). A contribution to a staged record is held until
its unit is committed or ended; a commit or an end completes its unit once, and the last unit closes the record, as
its deadline does; RACC_TAINT marks an unstaged record. A hop of a ring reduction adds the local chunk and sends the
sums on. When the close work is done the REDUCE_OPEN completes, and norms of a record with non-finite elements veto
the step; when the last record has closed, the step gate's arrival goes on. -/
def Obligations.ReductionMessages : Prop :=
  ∀ (s : State) (ext : Ext) (m : RunMsg) (before after : List RunMsg) (uid : Nat) (k : Coll) (r : Nat) (c : Cmd),
    let w : State := { s with localPath := before ++ after }
    let here (opc : Nat) : Prop := s.localPath = before ++ m :: after ∧ (∀ y ∈ before, y.stream ≠ m.stream ∨ y.vc ≠ m.vc) ∧
      mustWait s m = false ∧ m.opc = opc
    let red := RedX.red m.x
    let x := s.recOf red
    let opened : Prop := x.state = .opened
    let plain : Prop := opened ∧ x.staged = false ∧ x.held = []
    let moves (i : Instr) (y : Rec) : Prop := ∃ t, exec i s = .next t ∧ t.recOf red = y ∧ (∀ j, j ≠ red → t.recOf j = s.recOf j) ∧
      t = { w with recs := t.recs, ctr := t.ctr }
    let completes (i : Instr) (u : UnitKey) : Prop :=
      (x.received + 1 < x.units → moves i { x with received := x.received + 1, keys := x.keys ++ [u] }) ∧
      (x.units ≤ x.received + 1 → ∃ t, exec i s = .next t ∧ (t.recOf red).state = .closing ∧
        (t.recOf red).received = x.received + 1 ∧ (∀ j, j ≠ red → t.recOf j = s.recOf j) ∧ t.mem = s.mem)
    let d := k.desc
    let n := elemCount .fp32 m.data.length
    let first := (m.addr - d.dst) / 4
    let minus := decide (shardElems s d / 2 ≤ first % shardElems s d)
    let ringHop : Prop := here 0x14 ∧ ringOpOf w red = some (uid, k) ∧ findCmd s uid = some (r, c) ∧ d.wfmt = 0 ∧ m.poison = 0
    let values (la : Blob) : List Val := hopSums .fp32 n (m.data.take (d.bytes n))
      ((m.data.drop (d.bytes n)).take m.data.length) la.data []
    let sums (la : Blob) : List Byte := codeBytes .fp32 ((values la).map fun y => (convertTo .fp32 .rne 0 false y).1)
    let closing : Prop := x.state = .closing ∧ x.mean = false ∧ x.norms = false
    let z := readShard red s
    let y := z.modRec red fun r => { r with state := .closed }
    (here 0x10 → raccRefusal w m = none → opened → x.staged = true → x.det = false → RedX.tileValid m.x = false →
      moves (.runnerRacc 16 m ext) { x with held := x.held ++ [m] }) ∧
    (here 0x10 → ∀ st, raccRefusal w m = some (st, none) → exec (.runnerRacc 16 m ext) s = .next (runSend (nakOf (ownId w) m st) w)) ∧
    (here 0x11 → plain → x.keys.contains m.unit = false → completes (.raccCommit 16 m ext) m.unit) ∧
    (here 0x11 → plain → x.keys.contains m.unit = true → moves (.raccCommit 16 m ext) { x with dups := x.dups + 1 }) ∧
    (here 0x12 → plain → completes (.raccEnd 16 m ext) (.rank (RedX.key m.x) m.src)) ∧
    (here 0x13 → plain → moves (.raccTaint 16 m ext) { x with tainted := true }) ∧
    (here 0x13 → opened → x.staged = true → moves (.raccTaint 16 m ext) x) ∧
    (ringHop → RedX.key m.x + 2 < groupSize s d → ∀ la v, readSrc ext d first n w = (.ok (la, {}), v) → la.any = false →
      ∃ k' raised, k'.desc = d ∧ k'.wrote = k.wrote ∧ exec (.ringPart 16 m ext) s =
        .next (sendPart r c d minus (RedX.key m.x + 1) raised first { data := sums la } {} (v.setColl uid k'))) ∧
    (ringHop → groupSize s d ≤ RedX.key m.x + 2 → d.op = 3 → ∀ la v, readSrc ext d first n w = (.ok (la, {}), v) →
      la.any = false → ∃ k', k'.desc = d ∧ k'.wrote = k.wrote ∧
        k'.nonfinite = k.nonfinite + ((values la).filter Val.nonfinite).length ∧
        ∀ z, writeDst ext d first { data := sums la } {} (v.setColl uid k') = (.ok (), z) →
          exec (.ringPart 16 m ext) s = .next (collWrote ext uid (sums la).length z)) ∧
    (here 0x14 → ringOpOf w red = none → exec (.ringPart 16 m ext) s = .next (w.addSat Reg.runDropCount 1)) ∧
    (opened → x.det = false → x.deadline ≠ 0 → deadlinePassed s x.deadline = true → ∃ t,
      exec (.reductionDeadline red) s = .next t ∧ (t.recOf red).state = .closing ∧ (t.recOf red).held = [] ∧
      (t.recOf red).excluded = (heldUnits x.held).length ∧ t.mem = s.mem ∧ t.cores = s.cores) ∧
    (x.state ≠ .opened ∨ deadlinePassed s x.deadline = false → exec (.reductionDeadline red) s = .next s) ∧
    (closing → ∃ t, exec (.reductionCloseDone red ext) s = .next (commitRec ext red x.status t) ∧
      (t.recOf red).state = .closed ∧ t = { s with recs := t.recs }) ∧
    (x.state = .closing → z.recOf red = { x with poisoned := (z.recOf red).poisoned } → x.mean = false → x.norms = true →
      x.nonfinite ≠ 0 → z.flag Reg.trnCtl 0 = true → exec (.reductionCloseDone red ext) s = .next (commitRec ext red 0x1A
        (traceReduction red 2 (vetoStep ext 1 (vetoData y x.layer red 1) y)))) ∧
    (x.state ≠ .closing → exec (.reductionCloseDone red ext) s = .next s) ∧
    (recordsOpen s = true → exec (.stepGateArrive ext) s = .next s) ∧
    (∀ id b, recordsOpen s = false → s.bars = [(id, b)] → b.held = true → exec (.stepGateArrive ext) s =
      .next (advanceBar ext id (s.modBar id fun b => { b with held := false })))

/-- The runner links (R290 to R292, R295, R299, R302, R412, R432, R453, R475, R496, Table 9.1). A good frame in its
turn advances the expected number and returns its credits, and one with a NAK has the kept frames sent again; one that
fails its CRC is counted, and the eighth failure of one frame starts a retrain, as 100 µs without an acknowledgement
do; a retrain that ends well brings the link up, else it goes down. A write of RUN_LINK_CTL is posted, and when it
takes effect ENABLE takes the link into training or down, RETRAIN retrains it, and LOOPBACK takes it from use.
Training takes a link up only to the peer and the port it is bound to. A flood is relayed for 2 µs and applied when it
names the device's job; a message that arrives on a link is taken as one on the local path is. -/
def Obligations.LinkEvents : Prop :=
  ∀ (s : State) (ext : Ext) (l : Nat) (frame : RunnerFrame) (m : RunMsg) (rq : Requester) (v : W32) (job serial : Nat),
    let k := s.link l
    let st := s.fld (Reg.runLinkStatus l) 31 30
    let ctl := s.reg (Reg.runLinkCtl l)
    let sealed := s.flag (Reg.runLinkStatus l) 28
    let keeps (t : State) : Prop := t.mem = s.mem ∧ t.cores = s.cores ∧ t.rings = s.rings ∧ t.recs = s.recs
    let others (t : State) : Prop := ∀ j, j ≠ l → t.link j = s.link j
    let does (i : Instr) (p : State → Prop) : Prop := ∃ t, exec i s = .next t ∧ p t ∧ keeps t
    let trains (t : State) : Prop := t.fld (Reg.runLinkStatus l) 31 30 = 1 ∧ (t.link l).training = true ∧ others t ∧
      (t.link l).unacked = k.unacked ∧ (t.link l).waiting = k.waiting
    let empty : Prop := k.waiting = [] ∧ k.unacked = []
    let counted : State := s.count (0x100 + 8 * l + 1) ((32 * msgUnits m + 63) / 64)
    let comes (opc : Nat) : Prop := linkUp s l = true ∧ s.flag Reg.beatStatus 2 = false ∧ s.sealed = false ∧
      s.flag Reg.rsrStatus 6 = false ∧ recording s = false ∧ m.dest = ownId s ∧ idInSystem s m.dest = true ∧ m.e2eOk = true ∧
      k.rx = [] ∧ m.opc = opc ∧ mustWait counted m = false
    let posts (c : Instr) (v : W32) : Prop :=
      Admitted s rq (Reg.runLinkCtl l) v → Performs s rq c (postWrite (Reg.runLinkCtl l) v)
    let due : Prop := s.posted = [(Reg.runLinkCtl l, v)] ∧ st ≠ 3
    let was := s.flag (Reg.runLinkCtl l) 0
    let applies : Instr := .rwpWriteDone (Reg.runLinkCtl l) ext
    l < 16 →
    (linkUp s l = true → frame.crcOk = false → k.failures < 7 → k.sealFails = [] → does (.runnerFrameRx l frame ext) fun t =>
      (t.link l).failures = k.failures + 1 ∧ others t ∧ t.fld (Reg.runLinkErr l) 7 0 = min (s.fld (Reg.runLinkErr l) 7 0 + 1) 0xFF) ∧
    (linkUp s l = true → frame.crcOk = false → k.failures = 7 → k.sealFails = [] → does (.runnerFrameRx l frame ext) trains) ∧
    (linkUp s l = true → frame.crcOk = true → sealed = false → 2 ≤ frame.ftype ∨ frame.seq ≠ k.rxSeq →
      exec (.runnerFrameRx l frame ext) s = .next s) ∧
    (linkUp s l = true → frame.crcOk = true → sealed = false → frame.ftype < 2 → frame.seq = k.rxSeq → k.waiting = [] →
      (∀ e ∈ k.unacked, e.1 ≠ frame.ack) → does (.runnerFrameRx l frame ext) fun t =>
        (t.link l).rxSeq = (k.rxSeq + 1) % 4096 ∧ (t.link l).failures = 0 ∧ (t.link l).nakDue = false ∧ others t ∧
        (t.link l).unacked = k.unacked ∧ (∀ c, c < 8 → credit t l c = min (credit s l c + (frame.credits[c]?).getD 0) 0xFFFF) ∧
        t.runOut = s.runOut ++ if frame.nak then k.unacked.map fun e => (l, e.2) else []) ∧
    (comes 0x01 → exec (.runnerPut l m ext) s = .next (drainRx l (takeEffect ext l m (freeUnits l m counted)))) ∧
    (comes 0x38 → bytesAt m.data 0 1 ≠ 1 → bytesAt m.data 0 1 ≠ 2 →
      does (.maint l m ext) fun t => (Tab.get 0 (t.link l).returned (m.vc % 8)) =
        Tab.get 0 k.returned (m.vc % 8) + msgUnits m ∧ others t ∧ t.regs = s.regs) ∧
    (linkUp s l = true → k.unacked ≠ [] → 100000 ≤ (s.beat - k.lastAck).toNat → does (.runnerAckTimeout l) trains) ∧
    (k.unacked = [] ∨ (s.beat - k.lastAck).toNat < 100000 → exec (.runnerAckTimeout l) s = .next s) ∧
    (k.training = true → st = 1 → k.waiting = [] → 16 ≤ s.fld (Reg.runLinkStatus l) 20 16 →
      does (.runnerRetrainDone l true [] ext) fun t => t.fld (Reg.runLinkStatus l) 31 30 = 2 ∧ (t.link l).training = false ∧
        (t.link l).unacked = k.unacked ∧ (t.link l).lastAck = s.beat ∧ others t) ∧
    (k.training = true → st = 1 → exec (.runnerRetrainDone l false [] ext) s = .next (linkDown ext l 0 s)) ∧
    (linkUp s l = true → recording s = false → (job % 2 ^ 16, serial % 256) ∉ s.floodsSeen →
      job % 2 ^ 16 ≠ s.fld Reg.runJob 15 0 → exec (.flood l job serial ext) s = .next { s with
        floodOut := some (job % 2 ^ 16, serial % 256, s.beat)
        floodsSeen := ((job % 2 ^ 16, serial % 256) :: s.floodsSeen).take 16 }) ∧
    (linkUp s l = true → recording s = false → (job % 2 ^ 16, serial % 256) ∉ s.floodsSeen → job % 2 ^ 16 = s.fld Reg.runJob 15 0 →
      job % 2 ^ 16 ≠ 0 → (∀ r, r < 64 → (s.ring r).state = .disabled) → does (.flood l job serial ext) fun t =>
        t.floodOut = some (job % 2 ^ 16, serial % 256, s.beat) ∧ t.flag Reg.rsrStatus 5 = true ∧ t.flag Reg.rsrStatus 6 = true ∧
        t.quietSince = s.beat ∧ t.fld Reg.runFloodStatus 15 0 = job % 2 ^ 16 ∧ t.fld Reg.runFloodStatus 23 16 = serial % 256) ∧
    (linkUp s l = true → (job % 2 ^ 16, serial % 256) ∈ s.floodsSeen → exec (.flood l job serial ext) s = .next s) ∧
    (∀ b, s.floodOut = some (job, serial, b) → exec .floodRelayEnd s =
      .next (if 2000 ≤ (s.beat - b).toNat then { s with floodOut := none } else s)) ∧
    (s.flag Reg.rsrStatus 6 = true → 1000 * s.fld Reg.rsrCtl 31 16 ≤ (s.beat - s.quietSince).toNat →
      exec .quietEnd s = .next (s.clearFlag Reg.rsrStatus 6)) ∧
    (s.flag Reg.rsrStatus 6 = false → exec .quietEnd s = .next s) ∧
    posts (.linkEnable rq l true) (ctl ||| 1) ∧ posts (.linkEnable rq l false) (ctl &&& ~~~1#32) ∧
    posts (.linkRetrain rq l) (ctl ||| 2) ∧
    posts (.linkLoopback rq l true) (ctl ||| 4) ∧ posts (.linkLoopback rq l false) (ctl &&& ~~~4#32) ∧
    (due → was = false → v.getLsbD 0 = true → does applies fun t => t.flag (Reg.runLinkCtl l) 0 = true ∧
      t.fld (Reg.runLinkStatus l) 31 30 = 1 ∧ (t.link l).unacked = [] ∧ (t.link l).waiting = [] ∧ others t) ∧
    (due → was = false → v.getLsbD 0 = false → does applies fun t => t.flag (Reg.runLinkCtl l) 0 = false ∧
      t.links = s.links ∧ t.fld (Reg.runLinkStatus l) 31 30 = st) ∧
    (due → was = true → v.getLsbD 0 = true → v.getLsbD 1 = true → v.getLsbD 2 = false → st = 2 → does applies trains) ∧
    (due → was = true → v.getLsbD 0 = true → v.getLsbD 1 = false → v.getLsbD 2 = true → empty → does applies fun t =>
      t.flag (Reg.runLinkCtl l) 2 = true ∧ linkUp t l = false ∧ others t) ∧
    (due → was = true → v.getLsbD 0 = true → v.getLsbD 1 = false → v.getLsbD 2 = false → st = 2 → does applies fun t =>
      linkUp t l = true ∧ t.links = s.links) ∧
    (due → was = true → v.getLsbD 0 = false → empty → inJobSet s (s.fld (Reg.runPortmap l) 12 0) = false →
      does applies fun t => t.fld (Reg.runLinkStatus l) 31 30 = 0 ∧ t.flag (Reg.runLinkCtl l) 0 = false ∧ others t) ∧
    (∀ peer port lanes credits, st = 1 → k.training = false → s.flag (Reg.runLinkCtl l) 0 = true → 16 ≤ lanes →
      peer < 2 ^ 13 → port < 16 →
      let bound := s.fld (Reg.runPortmap l) 12 0
      let facing := Nat.xor (s.fld (Reg.runPortmap l) 19 16) 2
      (peer = bound → port = facing → k.waiting = [] →
        does (.linkTrainDone l true peer port lanes credits) fun t => t.fld (Reg.runLinkStatus l) 31 30 = 2 ∧
          t.flag (Reg.runLinkStatus l) 29 = false ∧ t.fld (Reg.runLinkStatus l) 12 0 = peer ∧ others t ∧
          ∀ c, c < 8 → credit t l c = min ((credits[c]?).getD 0) 0xFFFF) ∧
      (peer = bound → port ≠ facing → does (.linkTrainDone l true peer port lanes credits) fun t =>
        t.fld (Reg.runLinkStatus l) 31 30 = 0 ∧ t.flag (Reg.runLinkStatus l) 29 = false ∧ t.links = s.links) ∧
      (peer ≠ bound → does (.linkTrainDone l true peer port lanes credits) fun t =>
        t.fld (Reg.runLinkStatus l) 31 30 = 0 ∧ t.flag (Reg.runLinkStatus l) 29 = true ∧ t.links = s.links)) ∧
    (Admitted s rq Reg.runJobSet v →
      let t := storeReg Reg.runJobSet v s
      let fits : Prop := ∀ x, x < 4 → (jobRange t x).1 ≤ (jobRange t x).2 ∧ (jobRange t x).2 < axisSize t x ∧
        (jobRange t x).1 ≤ coordOf (ownId s) x ∧ coordOf (ownId s) x ≤ (jobRange t x).2
      (fits → Performs s rq (.runJobSetWrite rq v) (storeReg Reg.runJobSet v)) ∧
      (¬ fits → Performs s rq (.runJobSetWrite rq v) fun s => s.setFlag Reg.glbAccessStatus 5))

/-- The step of a training job (R325, R326, R331, R333, Table 10.5): software vetoes the step before its gate, and at
its end the update is counted and the loss scale moves; each in its turn alone, else TRN_ERR records why not. The
first veto of a step sets VETOED and its cause, writes the step word and tells the neighbours. -/
def Obligations.TrainingSteps : Prop :=
  ∀ (s : State) (rq : Requester) (ext : Ext),
    let v := s.reg Reg.trnCtl
    let enabled : Prop := s.flag Reg.trnCtl 0 = true
    let vetoed : Prop := s.flag Reg.trnStatus 0 = true
    let idle : Prop := s.recs = [] ∧ s.colls = []
    let vetoes : Prop := Admitted s rq Reg.trnCtl (v ||| 2) ∧ v.getLsbD 2 = false ∧ (enabled → vetoed → idle)
    let ends : Prop := Admitted s rq Reg.trnCtl (v ||| 4) ∧ v.getLsbD 1 = false ∧ (enabled → vetoed → idle)
    let mirror := s.fld Reg.trnMirrorHi 15 0 * 2 ^ 32 + s.fld Reg.trnMirrorLo 31 6 * 64
    let noWord : Prop := ∀ key, place s mirror ≠ .scratch key
    let scale := (s.reg Reg.trnScale).toNat
    let writesVeto (go : State → State) : Prop :=
      Performs s rq (.softwareVeto rq ext) fun u => go (storeReg Reg.trnCtl (v ||| 2) u)
    (vetoes → ¬ enabled → writesVeto fun u => u.setFlag Reg.trnErr 0) ∧
    (vetoes → enabled → s.gateSent = true → writesVeto fun u => u.setFlag Reg.trnErr 3) ∧
    (vetoes → enabled → s.gateSent = false → vetoed → writesVeto fun u => u) ∧
    (vetoes → enabled → s.gateSent = false → ¬ vetoed → writesVeto fun u =>
      vetoEffects ext 3 (vetoData u 0 0 3) (writeStepWord (u.setFlag Reg.trnStatus 0))) ∧
    (vetoes → enabled → s.gateSent = false → ¬ vetoed → idle → (∀ p, p < 16 → vetoLink s p = none) → noWord →
      ∃ t, exec (.softwareVeto rq ext) s = .next t ∧ t.flag Reg.trnStatus 0 = true ∧ t.fld Reg.trnStatus 11 8 = 3 ∧
        t.mem = s.mem ∧ t.cores = s.cores ∧ t.rings = s.rings ∧ t.reg Reg.trnStep = s.reg Reg.trnStep) ∧
    (ends → s.flag Reg.trnStatus 1 = false → Performs s rq (.stepEnd rq ext) fun u =>
      (storeReg Reg.trnCtl (v ||| 4) u).setFlag Reg.trnErr 1) ∧
    (ends → s.flag Reg.trnStatus 1 = true → s.flag Reg.trnStatus 2 = false → noWord →
      ∃ t, exec (.stepEnd rq ext) s = .next t ∧ t.reg Reg.trnStep = s.reg Reg.trnStep + 1 ∧ t.reg Reg.trnStatus = 0 ∧
        t.gateSent = false ∧ t.mem = s.mem ∧ t.cores = s.cores ∧ t.rings = s.rings ∧ t.recs = s.recs ∧
        (vetoed → t.reg Reg.trnClean = 0 ∧ t.reg Reg.trnUpdates = s.reg Reg.trnUpdates ∧
          t.reg Reg.trnVetoes = BitVec.ofNat 32 (satAdd 32 (s.reg Reg.trnVetoes).toNat 1) ∧
          t.reg Reg.trnScale = BitVec.ofNat 32 (max (scale - 2 ^ 23) ((127 + s.fld Reg.trnLimits 4 0) * 2 ^ 23))) ∧
        (¬ vetoed → t.reg Reg.trnUpdates = s.reg Reg.trnUpdates + 1 ∧ t.reg Reg.trnVetoes = s.reg Reg.trnVetoes ∧
          (s.reg Reg.trnGrowth ≠ 0 ∧ s.reg Reg.trnClean + 1 = s.reg Reg.trnGrowth → t.reg Reg.trnClean = 0 ∧
            t.reg Reg.trnScale = BitVec.ofNat 32 (min (scale + 2 ^ 23) ((127 + s.fld Reg.trnLimits 12 8) * 2 ^ 23))) ∧
          (s.reg Reg.trnGrowth = 0 ∨ s.reg Reg.trnClean + 1 ≠ s.reg Reg.trnGrowth →
            t.reg Reg.trnClean = s.reg Reg.trnClean + 1 ∧ t.reg Reg.trnScale = s.reg Reg.trnScale)))

/-- The Beat, its copies, the counter latch and the trace streams (R340, R341, R344, R346, R351, R359 to R362, R364,
R433). The Beat advances where no command waits, once bring-up has begun (the model's clock: log entry 1), by one
count that the rate trim withholds or doubles now and then. A broadcast reports and corrects the copies that differ; a
copy that has reloaded serves again, one that has not within 4 µs fails uncontained; a SYNC_REQ goes out at each
interval. The latch copies every assigned counter with its tag at its target; a sample enters its stream and a record
leaves for the stream's queue; a packet group closes after 4,096 Beats. -/
def Obligations.BeatAndTrace : Prop :=
  ∀ (s : State) (rq : Requester) (ext : Ext) (v : W32) (n die l c : Nat) (b : W64) (rec : TraceRec) (rest : List TraceRec),
    let target : W64 := BitVec.ofNat 64 ((s.reg Reg.cntLatchLo).toNat + v.toNat * 2 ^ 32)
    let keeps (t : State) : Prop := t.mem = s.mem ∧ t.cores = s.cores ∧ t.rings = s.rings ∧ t.beat = s.beat
    let snaps (t : State) (k : Nat) : Prop := t.bt.latch = none ∧ t.reg Reg.cntStatus = BitVec.ofNat 32 k ∧ keeps t ∧
      ∀ sel, counterAssigned sel = true → Tab.get 0 t.bt.bank sel = counterSnap s sel
    let micros := s.fld (Reg.trcSample n) 31 16
    let sel := s.fld (Reg.trcSample n) 10 0
    let samples : Prop := n < 8 ∧ streamTakes s n 0x84 none = true ∧ micros ≠ 0 ∧
      1000 * micros ≤ (s.beat - (s.stream n).lastSample).toNat
    let due : Prop := s.flag Reg.beatCtl 3 = true ∧ s.flag Reg.beatCtl 4 = false ∧ s.flag Reg.beatStatus 2 = false ∧
      1000 * s.fld Reg.beatSyncInterval 15 0 ≤ (s.beat - s.bt.lastSent).toNat
    let q := s.fld (Reg.trcCtl n) 21 16
    let g := Tab.get {} s.rrGroups (8 * l + c % 8)
    let ticks : Prop := s.pending = [] ∧ bootState s ≠ 0
    let gathered := s.bt.slew + s.bt.trim.toInt
    let counts : Int := if 1000000000 ≤ gathered then 2 else if gathered ≤ -1000000000 then 0 else 1
    (ticks → (∀ e ∈ s.links, e.2.rx = []) → ∃ t, step s = .next t ∧
      t.beat = s.beat + BitVec.ofInt 64 counts ∧ t.bt.slew = gathered - 1000000000 * (counts - 1)) ∧
    (ticks → s.links = [] → s.rrQueue = [] → (∀ e ∈ s.cores, e.2.hold = none ∧ e.2.stopping = false) → ∃ t, step s = .next t ∧
      t.mem = s.mem ∧ t.cores = s.cores ∧ t.rings = s.rings ∧ t.nqs = s.nqs ∧ t.links = s.links ∧ t.spr = s.spr ∧
      (s.bt.lost = true → t.regs = s.regs)) ∧
    (s.pending = [] → bootState s = 0 → step s = .next s) ∧
    (s.beat.toNat % 1024 = 0 → s.drift = [(die, b)] → ∃ t, exec (.beatBroadcast []) s = .next t ∧
      t.flag Reg.beatFault 1 = true ∧ t.drift = [] ∧ Tab.get 0 t.ctr 0x005 = Tab.get 0 s.ctr 0x005 + 1 ∧ keeps t) ∧
    (s.beat.toNat % 1024 = 0 → s.drift = [] → die < 64 → die ≠ ctrlDie s → dieReloads s die = false → b ≠ 0 →
      exec (.beatBroadcast [(die, b)]) s = .next { s with drift := [(die, b)] }) ∧
    (s.beat.toNat % 1024 ≠ 0 → exec (.beatBroadcast [(die, b)]) s = .next s) ∧
    (dieReloads s die = true → 32 ≤ die → ∃ t, exec (.beatReloadDone die) s = .next t ∧
      t.reloading = s.reloading.filter (fun p => p.1 != die) ∧ Tab.get 0 t.ctr 0x005 = Tab.get 0 s.ctr 0x005 + 1 ∧ keeps t) ∧
    (dieReloads s die = false → exec (.beatReloadDone die) s = .next s) ∧
    (s.reloading = [(die, b)] → 4000 ≤ (s.beat - b).toNat → s.fld Reg.runJob 15 0 = 0 → ∃ t, exec (.reloadFail die ext) s = .next t ∧
      t.reloading = [] ∧ die ∈ t.rgl.failed ∧ t.flag Reg.beatFault 2 = true ∧ t.flag Reg.rsrStatus 1 = true ∧
      t.boot.faultN = true ∧ keeps t) ∧
    (s.reloading = [(die, b)] → (s.beat - b).toNat < 4000 → exec (.reloadFail die ext) s = .next s) ∧
    (due → ∃ t, exec .syncInterval s = .next t ∧ (∃ t1, t.bt.waiting = some (s.bt.exchange, t1)) ∧
      t.bt.exchange = s.bt.exchange + 1 ∧ t.bt.lastSent = s.beat ∧ keeps t) ∧
    (¬ due → exec .syncInterval s = .next s) ∧
    (Admitted s rq Reg.beatSsSendHi v → Performs s rq (.strikeSetSend rq v) fun u =>
      let w := storeReg Reg.beatSsSendHi v u
      runSend { opc := 0x24, dest := treeRoot w, src := ownId w, data := toBytes 4 (w.reg Reg.beatSsSendLo).toNat ++ toBytes 4 v.toNat } w) ∧
    (Admitted s rq Reg.cntLatchHi v → s.beat.toNat ≤ target.toNat → ∃ t, exec (.latchArm rq v) s = .next t ∧
      t.bt.latch = some target ∧ t.reg Reg.cntStatus = 1 ∧ keeps t) ∧
    (Admitted s rq Reg.cntLatchHi v → isSprue rq = false → target.toNat < s.beat.toNat →
      ∃ t, exec (.latchArm rq v) s = .next t ∧ snaps t 6) ∧
    (s.bt.latch = some b → b.toNat ≤ s.beat.toNat → ∃ t, exec .latchFire s = .next t ∧ snaps t 2) ∧
    (s.bt.latch = some b → s.beat.toNat < b.toNat → exec .latchFire s = .next s) ∧
    (samples → ((s.stream n).buf.filter fun r => r.die == counterDie s sel).length < 16 → ∃ t r,
      exec (.traceSample n) s = .next t ∧ (t.stream n).buf = (s.stream n).buf ++ [r] ∧ (t.stream n).lastSample = s.beat ∧
      r.type = 0x84 ∧ r.die = counterDie s sel ∧ t = { s with streams := t.streams } ∧ ∀ j, j ≠ n → t.stream j = s.stream j) ∧
    (¬ samples → exec (.traceSample n) s = .next s) ∧
    (n < 8 → (s.stream n).buf = rec :: rest → rec.die = die → rec.beat ≠ none → cruHolds s = false → (s.stream n).lastAcc = none → s.flag (Reg.trcCtl n) 0 = true →
      s.flag (Reg.trcCtl n) 1 = false → nqEnabled s q = true → nqInWindow s q = false →
      (s.nq q).entries.length < nqRoom s q → ∃ t, exec (.traceRecordAccept n die) s = .next t ∧
        (t.stream n).buf = rest ∧ (t.stream n).lastAcc = some s.beat ∧ keeps t ∧ (t.nq q).entries = (s.nq q).entries ++
          [mkNotice rec.type (s.fld (Reg.trcCtl n) 9 8) rec.source (s.reg (Reg.nqPosted q)).toNat (s.copyOf (nqDie q)) rec.payload]) ∧
    (g.count ≠ 0 → 4096 ≤ (s.beat - g.first).toNat → recording s = false → ∃ t, exec (.groupCloseTimeout l c) s = .next t ∧
      t = { s with rrGroups := t.rrGroups } ∧ (Tab.get {} t.rrGroups (8 * l + c % 8)).count = 0) ∧
    (g.count = 0 → exec (.groupCloseTimeout l c) s = .next s)

/-- Recording, replay and the debug port (R363 to R366, R394, R396, R397, Tables 11.7, 11.8, 12.11, 12.12). RECORD
begins at the region's start with a MARK, which waits for the writer; REPLAY needs a MARK at RR_START, with the rings
disabled, and takes its Beat; OFF ends it, and the rings then wait for a compute reset. In replay the record whose
Beat has come enters, the end of the log ends the replay, and a millisecond's delay is a divergence. The port answers
its own instructions always, and reaches the device only within an unlocked scope. -/
def Obligations.RecordReplayAndPort : Prop :=
  ∀ (s : State) (rq : Requester) (wrap : Bool) (ext : Ext) (c i part : Nat) (file : CoreFile) (v : W256) (dop : DbgOp),
    let mode := s.fld Reg.rrCtl 1 0
    let start := (s.reg Reg.rrStart).toNat
    let next := s.replay.next
    let keeps (t : State) : Prop := t.cores = s.cores ∧ t.rings = s.rings
    let runs : Prop := replaying s = true ∧ s.fld Reg.rrStatus 3 0 = 2
    let ended := replayEnded s
    let kind := recField s next 0 1
    let plain : Prop := s.dbg.halted = [] ∧ coreReach s c = true
    let answers (op : Instr) (x : W256) : Prop := exec op s = .next { s with rdata := x }
    (Admitted s rq Reg.rrCtl (if wrap then 0x11 else 0x01) → mode = 0 → s.rrGroups = [] → s.rrLost = [] →
      ∃ t, exec (.rrRecordStart rq wrap) s = .next t ∧ t.fld Reg.rrCtl 1 0 = 1 ∧ t.fld Reg.rrStatus 3 0 = 1 ∧
        t.reg Reg.rrPos = 0 ∧ recording t = true ∧ t.mem = s.mem ∧ t.rrQueue = s.rrQueue ++ [markRec s 17 0 0] ∧ keeps t) ∧
    (Admitted s rq Reg.rrCtl 2 → mode = 0 → replayOk s = true → ∃ t, exec (.rrReplayStart rq) s = .next t ∧
      t.fld Reg.rrCtl 1 0 = 2 ∧ t.fld Reg.rrStatus 3 0 = 2 ∧ replaying t = true ∧ t.beat = recBeat s start ∧
      t.replay.next = recAfter s start ∧ t.mem = s.mem ∧ keeps t) ∧
    (Admitted s rq Reg.rrCtl 2 → mode = 0 → replayOk s = false →
      Performs s rq (.rrReplayStart rq) fun u => u.setFlag Reg.rrStatus 4) ∧
    (Admitted s rq Reg.rrCtl 0 → mode = 2 → ∃ t, exec (.rrOff rq) s = .next t ∧ t.fld Reg.rrCtl 1 0 = 0 ∧
      t.fld Reg.rrStatus 3 0 = 0 ∧ replaying t = false ∧ t.replay.stale = true ∧ t.beat = s.beat ∧ t.mem = s.mem ∧ keeps t) ∧
    (Admitted s rq Reg.rrCtl (s.reg Reg.rrCtl ||| 0x20) → mode ≠ 1 → mode ≠ 3 → s.rrGroups = [] → ∃ t,
      exec (.rrMark rq) s = .next t ∧ t.reg Reg.rrPos = s.reg Reg.rrPos ∧ t.mem = s.mem ∧ keeps t) ∧
    (Admitted s rq Reg.rrCtl (s.reg Reg.rrCtl ||| 0x20) → recording s = true → s.rrGroups = [] →
      s.rrLost = [] → ∃ t, exec (.rrMark rq) s = .next t ∧ t.rrQueue = s.rrQueue ++ [markRec s 17 2 0] ∧
        t.reg Reg.rrPos = s.reg Reg.rrPos ∧ recording t = true ∧ t.mem = s.mem ∧ keeps t) ∧
    (runs → ended = true → exec (.replayInject ext) s = .next (s.setFld Reg.rrStatus 3 0 4)) ∧
    (runs → ended = false → (recBeat s next).toNat ≤ s.beat.toNat → 7 ≤ kind →
      exec (.replayInject ext) s = .next { s with replay := { s.replay with next := recAfter s next, inGroup := 0 } }) ∧
    (runs → ended = false → s.beat.toNat < (recBeat s next).toNat → exec (.replayInject ext) s = .next s) ∧
    (replaying s = false → exec (.replayInject ext) s = .next s) ∧
    (runs → ended = false → (recBeat s next).toNat + 1000000 < s.beat.toNat →
      exec .replayDiverged s = .next (s.setFld Reg.rrStatus 3 0 5)) ∧
    (runs → s.beat.toNat ≤ (recBeat s next).toNat + 1000000 → exec .replayDiverged s = .next s) ∧
    answers .idcode (Config.idcode.setWidth 256) ∧ answers .bypass 0 ∧
    (boundaryOpen s = true → (∃ x, exec .sample s = .next { s with rdata := x, free := s.free + 1 }) ∧
      ∃ x, exec .extest s = .next { s with rdata := x, free := s.free + 1 }) ∧
    (boundaryOpen s = false → exec .sample s = .next s ∧ exec .extest s = .next s) ∧
    (debugScope s (dbgScope dop) = false → exec (.dbgAccess dop ext) s = .next s) ∧
    (debugScope s 0 = true → plain → exec (.dbgAccess (.halt c) ext) s =
      .next { s with dbg := { s.dbg with halted := [c] } }) ∧
    (debugScope s 0 = true → plain → answers (.dbgAccess (.coreRead c .pc i part) ext) (BitVec.ofNat 256 (s.core c).pc.toNat)) ∧
    (debugScope s 0 = true → plain → ∃ t, exec (.dbgAccess (.coreWrite c file i part v) ext) s = .next t ∧ OthersKeep s t c ∧
      t = { s with cores := t.cores } ∧ (t.core c).mode = (s.core c).mode ∧
      (file = .pc → (t.core c).pc = BitVec.ofNat 64 v.toNat) ∧
      (file = .x → i < 32 → i ≠ 0 → (t.core c).xr i = BitVec.ofNat 64 v.toNat)) ∧
    (asyIn s [2, 3] = true → s.dbg.fails < 3 → s.assay.entropyOk = true → ∃ t, exec (.dbgChallenge .debug) s = .next t ∧
      (∃ l, t.dbg.challenge = some l ∧ l.length = 32 ∧ t.rdata = BitVec.ofNat 256 (ofBytes l)) ∧ t.regs = s.regs ∧
      t.mem = s.mem ∧ keeps t) ∧
    (∀ l, asyIn s [2, 3] = true → l.length = 2 * 7952 + 32 + (if lifecycle s = 2 then 7952 else 0) → unlockCheck s l = 4 →
      exec (.dbgUnlock .debug l) s = .next { s with
        dbg := { s.dbg with challenge := none, fails := s.dbg.fails + 1 }
        rdata := 4 }) ∧
    (∀ l, asyIn s [2, 3] = true → l.length = 2 * 7952 + 32 + (if lifecycle s = 2 then 7952 else 0) → unlockCheck s l = 0 →
      ∃ t, exec (.dbgUnlock .debug l) s = .next t ∧ t.dbg.unlocked = false ∧ t.mem = [] ∧ t.rdata = 0 ∧
        t.dbg.granted = some (BitVec.ofNat 32 (numAt l 4 4) &&& BitVec.ofNat 32 (numAt l (7952 + 4) 4)))

/-- Assay's operations (R374, R376, R399 to R405, R408, R409, R416 to R421, Tables 12.4, 13.2, 13.3, 13.10, 13.11). A
write of ASY_CMD sets BUSY and empties the output; the operation out of its place ends with its result alone, and in
its place has its effect: a challenge or an offer is drawn, a Hallmark is signed, a policy comes into force, a
life-cycle statement programs both copies of the storage and makes its transition pending, a seal entry and a seal
exit quiet the device and start their wipe, COMPLETE resets. ASSAY_DONE shows the result and the output; the wipe's
end sets SEALED with the manifest of an entry, or ends the exit. -/
def Obligations.AssayOperations : Prop :=
  ∀ (s : State) (rq : Requester) (ext : Ext) (good : Nat) (m : Manifest) (o : AsyOp),
    let asked (u : State) : State :=
      { (u.setFlag Reg.asyStatus 0).setReg Reg.asyOutLen 0 with assay := { u.assay with out := [] } }
    let b := asked s
    let l := asyInput b
    let starts (code : Nat) : Prop := Admitted s rq Reg.asyCmd (BitVec.ofNat 32 code)
    let ends (i : Instr) (code result : Nat) (out : State → List Byte) (go : State → State) : Prop :=
      Performs s rq i fun u => { go (asked u) with
        assay := { (go (asked u)).assay with op := some { code := code, result := result, out := out (asked u) } } }
    let fails (i : Instr) (code result : Nat) : Prop := ends i code result (fun _ => []) fun u => u
    let stated (act : Nat) : Prop := starts 3 ∧ asyIn b [1, 2, 3] = true ∧ numAt l 3 1 = act ∧ statementBars b l 0 = 0 ∧
      statementVerify b l = 0 ∧ 2 * (programSteps (storage b) l 0).length ≤ good
    let programs (i : Instr) (moves : Bool) (p : Storage → Prop) : Prop := ∃ t, exec i s = .next t ∧ p t.assay.storageA ∧
      p t.assay.storageB ∧ t.assay.challenge = none ∧ ∃ x, t.assay.op = some x ∧ x.result = 0 ∧ x.lc = moves
    let owns (k : Storage) : Prop := ∃ n : Nat, k.owners[n]? = some ({ key := some (keyOf (cut l 56 32)), revoked := false } : Owner)
    let whole : Prop := ∃ n, n < 8 ∧ (∀ k, k = b.assay.storageA ∨ k = b.assay.storageB → k.owners.length = 8) ∧
      freeSlot (storage b) = n
    let man := l.drop 1152
    let exits : Prop := starts 7 ∧ b.manifest = some m ∧ b.sealed = true ∧ lcPending b = false ∧ l.length = 96 ∧
      numAt l 0 2 = 1 ∧ zeroAt l 4 4 = true ∧ zeroAt l 56 8 = true
    (starts 1 → asyIn b [1, 2, 3] = true → l = [] → b.assay.entropyOk = true → ∃ t, exec (.challenge rq) s = .next t ∧
      ∃ c, c.length = 32 ∧ t.assay.challenge = some c ∧ t.assay.op = some { code := 1, result := 0, out := c } ∧
        t.regs = b.regs ∧ t.mem = s.mem) ∧
    (starts 1 → asyIn b [1, 2, 3] = false → fails (.challenge rq) 1 1) ∧
    (starts 1 → asyIn b [1, 2, 3] = true → l = [] → b.assay.entropyOk = false → fails (.challenge rq) 1 12) ∧
    (starts 2 → asyIn b [2, 3] = true → l.length = 32 → ends (.hallmark rq) 2 0 (fun u => hallmarkNow u 1 l [] []) fun u => u) ∧
    (stated 1 → programs (.provision rq good ext) true fun k => 8 ≤ k.provCells ∧ k.seed.isSome = true) ∧
    (stated 2 → whole → programs (.enroll rq good ext) true owns) ∧
    (stated 3 → whole → programs (.transfer rq good ext) true owns) ∧
    (stated 4 → b.assay.storageA = b.assay.storageB → programs (.release rq good ext) true fun k => ∀ x, k.owners[ownerSlot (storage b)]? = some x → x.revoked = true) ∧
    (stated 5 → programs (.retire rq good ext) true fun k => 8 ≤ k.retiredCells ∧ k.seed = some (BitVec.allOnes 384) ∧
      ∀ x ∈ k.owners, x.key = some (BitVec.allOnes 256)) ∧
    (stated 7 → programs (.advanceSvn rq good ext) false fun k => 8 * numAt l 4 4 ≤ k.svnCells) ∧
    (numAt (asyInput s) 3 1 = 2 → exec (.provision rq good ext) s = .next s) ∧
    (starts 4 → asyIn b [3] = true → statementBars b l 64 = 0 → numAt l 3 1 = 6 → statementVerify b l = 0 →
      sha256 (cut l 7984 64) = cut l 88 32 → policyOk (cut l 7984 64) = true → ∃ t, exec (.policy rq) s = .next t ∧
        t.flag Reg.rglStatus 0 = true ∧ t.rgl.digest = keyOf (sha256 (cut l 7984 64)) ∧ t.mem = s.mem ∧ t.cores = s.cores ∧
        (∀ i, i < 16 → policyWord t i = numAt (clampPolicy (cut l 7984 64)) (4 * i) 4) ∧
        t.assay.op = some { code := 4, result := 0, out := [] }) ∧
    (starts 5 → asyIn b [3] = true → b.sealed = false → l.length = 32 → b.assay.entropyOk = true → ∃ t,
      exec (.sealOffer rq) s = .next t ∧ t.assay.offer.isSome = true ∧ t.assay.offerNonce = l ∧
        t.flag Reg.asyStatus 3 = true ∧ t.mem = s.mem ∧ t.cores = s.cores) ∧
    (starts 6 → b.assay.offer = none → asyIn b [3] = true → fails (.sealEnter rq ext) 6 10) ∧
    (∀ rnd jms, starts 6 → b.assay.offer = some rnd → asyIn b [3] = true → 160 ≤ man.length →
      man.length = 160 + 48 * numAt man 4 2 → zeroAt (cut l 1088 64) 60 4 = true →
      Config.gcmOpen (bundleKey b rnd (cut l 0 1088)) (cut l 1088 12)
        (sha256 man ++ sha256 (cut l 0 1088) ++ toBytes 16 (serialOf b).toNat) (cut l 1100 32) (cut l 1132 16) = some jms →
      manifestOk (setOffer none b) man = true → ∃ t, exec (.sealEnter rq ext) s = .next t ∧
        t.wiping = some (.sealEntry (parseManifest man)) ∧ t.assay.offer = none ∧
        t.assay.op = some { code := 6, result := 0, out := [], entering := some (b.assay.offerNonce, sha256 (cut l 0 1088), jms) }) ∧
    (exits → numAt l 8 16 = (serialOf b).toNat → b.assay.challenge = some (cut l 24 32) → numAt l 2 2 = m.job →
      hmac b.assay.keys.exit (cut l 0 64) = cut l 64 32 → ∃ t, exec (.sealExit rq ext) s = .next t ∧
        t.wiping = some .sealExit ∧ t.sealed = false ∧ t.manifest = none ∧ t.assay.keys.jms = [] ∧ t.assay.keys.exit = []) ∧
    (exits → numAt l 8 16 = (serialOf b).toNat → b.assay.challenge ≠ some (cut l 24 32) →
      ends (.sealExit rq ext) 7 5 (fun _ => []) fun u => setChallenge none u) ∧
    (starts 15 → lcPending b = true → l = [] → Performs s rq (.complete rq ext) fun u => deviceReset ext (asked u)) ∧
    (starts 15 → lcPending b = false → fails (.complete rq ext) 15 1) ∧
    (starts 8 → rq ≠ .debug → asyIn b [2, 3] = false → l = [] → fails (.dbgChallenge rq) 8 1) ∧
    (∀ input, starts 9 → rq ≠ .debug → asyIn b [2, 3] = false → fails (.dbgUnlock rq input) 9 1) ∧
    (s.assay.op = none → exec .assayDone s = .next s) ∧
    (s.assay.op = some o → s.wiping = none → o.entering = none → o.result < 2 ^ 32 → o.out.length < 2 ^ 32 → ∃ t,
      exec .assayDone s = .next t ∧ t.assay.op = none ∧ t.assay.out = o.out ∧ t.mem = s.mem ∧ t.cores = s.cores ∧
        (t.reg Reg.asyResult).toNat = o.result ∧ (t.reg Reg.asyOutLen).toNat = o.out.length ∧
        t.flag Reg.asyStatus 0 = false ∧ t.flag Reg.asyStatus 1 = true ∧ (o.lc = true → t.flag Reg.asyStatus 2 = true)) ∧
    (∀ e, NothingHeld s → s.wiping = some (.sealEntry m) → s.assay.op = some o → o.entering = some e → m.set.length = 4 → ∃ t,
      exec (.sealWipeDone ext) s = .next t ∧ t.wiping = none ∧ t.sealed = true ∧ t.manifest = some m ∧ t.verified = [] ∧
        t.fld Reg.runJob 15 0 = m.job % 2 ^ 16 ∧ t.assay.keys.jms = e.2.2 ∧ t.mem = s.mem) ∧
    (NothingHeld s → s.wiping = some .sealExit → exec (.sealWipeDone ext) s =
      .next { s.clearFlag Reg.cruStatus 1 with wiping := none }) ∧
    (s.wiping = none → exec (.sealWipeDone ext) s = .next s) ∧
    (exec (.lcPendingTimeout ext) s = .next (if lcPending s = true ∧ 10000000000 ≤ (s.beat - s.assay.lcSince).toNat
      then deviceReset ext s else s)) ∧
    (∃ t, exec .entropy s = .next t ∧ t.assay.entropyOk = false ∧ (bootState s = 13 →
      t = { s with assay := { s.assay with entropyOk := false } })) ∧
    (∀ serial root dbg, lifecycle s = 0 → (storage s).state = 0 → bootState s ≠ 0 → ∃ t,
      exec (.manufactureProgram serial root dbg 22) s = .next t ∧ t = { s with assay := t.assay } ∧
        ∀ k, k = t.assay.storageA ∨ k = t.assay.storageB → k.serial = some serial ∧ k.rootKey = some root ∧
          k.debugDigest = some dbg ∧ 8 ≤ k.testCells)

/-- The Regulator (R22, R424, R429, R431 to R446, Tables 14.5, 14.8, 14.9): a sample is shown, a decision sets the
supplies that the policy admits, an idle or too hot die loses its power and gets it back for a dispatch; a bank's
spare, a gate's spare wire and an operand-buffer row come in, or are advised while AUTO_SPARE is clear, a requested
page is retired; a repair window is granted for a pending request, begins when its unit is quiet, and ends as done,
failed or expired; an unsaved record is written again when its time has come. -/
def Obligations.RegulatorEvents : Prop :=
  ∀ (s : State) (rq : Requester) (ext : Ext) (watts die wire page slice bank id ms : Nat) (x : DieSample)
      (g : RepairWindow) (rest : List RepairWindow) (b : W64),
    let keeps (t : State) : Prop := t.cores = s.cores ∧ t.rings = s.rings ∧ t.mem = s.mem ∧ t.beat = s.beat
    let does (i : Instr) (p : State → Prop) : Prop := ∃ t, exec i s = .next t ∧ p t ∧ keeps t
    let tele (t : State) (d : Nat) : DieTele := Tab.get {} t.rgl.tele d
    let noJob : Prop := s.fld Reg.runJob 15 0 = 0
    let used := wiresUsed s die (wire / 68)
    let request (q : RepairReq) : Prop := q ∈ s.rgl.reqs ∧ q.id = id ∧ (∀ y ∈ s.rgl.reqs, y.id = id → y = q) ∧
      ∀ y ∈ s.rgl.grants, y.req.id ≠ id
    let unsaved : Prop := s.flag Reg.rsrStatus 7 = true ∧ s.rgl.recordDue.toNat ≤ s.beat.toNat ∧
      (recordSeed s = none ∨ s.assay.op = none)
    let asks (n : Nat) : Prop := Admitted s rq Reg.rglWindow (BitVec.ofNat 32 (id * 2 ^ 16 + n)) ∧ id < 2 ^ 16 ∧ n < 2 ^ 16
    let active : Prop := s.rgl.grants = g :: rest ∧ g.ends = some b ∧ (∀ y ∈ rest, y.req.id ≠ g.req.id) ∧ s.held = []
    let core := g.req.die * 8 + g.req.index / 256 % 8
    let ended (result : Nat) (t : State) : Prop := t.rgl.grants = rest ∧ t.flag Reg.rglStatus 6 = false ∧
      t.fld Reg.rglWindowStatus 15 8 = result ∧ t.fld Reg.rglWindowStatus 31 16 = 0
    (watts < 2 ^ 13 → die < 64 → does (.regulatorSample watts [(die, x)]) fun t => t.fld Reg.rglPower 12 0 = watts ∧
      (tele t die).junction = x.junction ∧ (tele t die).current = x.current ∧ (tele t die).corrected = x.corrected ∧
      (tele t die).margin = x.margin ∧ (tele t die).wear = x.wear ∧ (tele t die).fuses = (tele s die).fuses ∧
      (tele t die).rate = (tele s die).rate ∧ ∀ j, j ≠ die → tele t j = tele s j) ∧
    (∀ mv rate, 1000000 ≤ (s.beat - s.rgl.decided).toNat → supplyOk s [(die, mv, rate)] (die, mv, rate) = true →
      s.flag Reg.rsrStatus 7 = false → does (.regulatorDecide [(die, mv, rate)] true false [] ext) fun t =>
        t.rgl.decided = s.beat ∧ (tele t die).supply = mv ∧ (tele t die).rate = rate ∧ t.flag Reg.rglStatus 2 = true ∧
        t.flag Reg.rglStatus 3 = false ∧ ∀ j, j ≠ die → tele t j = tele s j) ∧
    ((s.beat - s.rgl.decided).toNat < 1000000 → exec (.regulatorDecide [] true true [] ext) s = .next s) ∧
    (die < 64 → junctionMax die ≤ x.junction → die ∉ s.rgl.dark → noJob → ∃ t, exec (.thermalTrip die x.junction ext) s = .next t ∧
      t.rgl.dark = s.rgl.dark ++ [die] ∧ t.flag Reg.rglStatus 4 = true ∧ t.flag Reg.rsrStatus 1 = true ∧
      t.boot.faultN = true ∧ t.mem = s.mem ∧ t.rings = s.rings) ∧
    (x.junction < junctionMax die → exec (.thermalTrip die x.junction ext) s = .next s) ∧
    (Tab.get none s.rgl.idleSince die = some b → policyFlag s 2 = true → die < 32 → dieIdle s die = true → die ∉ s.rgl.dark →
      1000 * policyWord s 7 ≤ (s.beat - b).toNat → ∃ t, exec (.idleGate die) s = .next t ∧ t.rgl.dark = s.rgl.dark ++ [die] ∧
        t = { s with rgl := t.rgl, cores := t.cores } ∧ ∀ c, c / 8 ≠ die → t.core c = s.core c) ∧
    (Tab.get none s.rgl.idleSince die = none → exec (.idleGate die) s = .next s) ∧
    (die ∈ s.rgl.dark → die < 32 → s.flag Reg.rglStatus 4 = false → dieWanted s die = true →
      does (.diePowerRestored die) fun t => die ∉ t.rgl.dark ∧ t.reloading = s.reloading ++ [(die, s.beat)] ∧ t.regs = s.regs) ∧
    (die ∉ s.rgl.dark → exec (.diePowerRestored die) s = .next s) ∧
    (slice < 16 → s.rgl.copying = [(slice, bank)] → does (.bankSpareDone slice) fun t => t.rgl.copying = [] ∧
      t.flag Reg.rsrBanks slice = true ∧ t.flag Reg.rsrStatus 7 = true ∧ t.rgl.entries = s.rgl.entries ++
        [{ kind := 6, fused := false, die := 32 + slice, index := bank, detail := 0 }]) ∧
    (s.rgl.pagesDue = [(page, b)] → 10000000000 ≤ (s.beat - b).toNat → page ∉ s.retired →
      (s.retired.filter fun p => p / 2 ^ 15 == page / 2 ^ 15).length < 512 → does (.retireRequestTimeout page) fun t =>
        t.retired = s.retired ++ [page] ∧ t.rgl.pagesDue = [] ∧
        t.xlat = s.xlat.filter fun e => bits e.2.toNat 47 21 != page) ∧
    (s.rgl.pagesDue = [(page, b)] → (s.beat - b).toNat < 10000000000 → exec (.retireRequestTimeout page) s = .next s) ∧
    (die < 64 → 0 < used → used < 4 → policyFlag s 0 = true → does (.gateWireFail die wire ext) fun t =>
      t.rgl.entries = s.rgl.entries ++ [{ kind := 12, fused := false, die := die, index := wire, detail := 0 }] ∧
      t.flag Reg.rsrStatus 7 = true ∧ t.fld Reg.rsrGates 15 0 = s.fld Reg.rsrGates 15 0) ∧
    (die < 64 → used < 4 → policyFlag s 0 = false → s.rgl.reqs = [] → does (.gateWireFail die wire ext) fun t =>
      t.rgl.entries = s.rgl.entries ∧ t.flag Reg.rglStatus 5 = true ∧ ∃ est, t.rgl.reqs =
        [{ id := s.rgl.nextId, kind := 0, die := die, index := wire, est := est, riser := 12 }]) ∧
    (die < 64 → 4 ≤ used → noJob → does (.gateWireFail die wire ext) fun t => t.flag Reg.rsrStatus 1 = true ∧
      t.boot.faultN = true ∧ t.rgl.entries = s.rgl.entries) ∧
    (∀ q, request q → asks ms → 0 < ms → ms ≤ policyWord s 8 → does (.windowGrant rq (BitVec.ofNat 32 (id * 2 ^ 16 + ms))) fun t =>
      t.rgl.grants = s.rgl.grants ++ [{ req := q, ms := ms, ends := none }] ∧ t.rgl.reqs = s.rgl.reqs ∧
      t.flag Reg.rglWindowStatus 0 = false) ∧
    (asks ms → 0 < ms → (∀ q ∈ s.rgl.reqs, q.id ≠ id) → does (.windowGrant rq (BitVec.ofNat 32 (id * 2 ^ 16 + ms))) fun t =>
      t.fld Reg.rglWindowStatus 15 8 = 3 ∧ t.rgl = s.rgl) ∧
    (s.rgl.grants = g :: rest → (∀ y ∈ s.rgl.grants, y.ends = none) → unitQuiet s g.req = true → g.req.id < 2 ^ 16 →
      does .windowBegin fun t => t.rgl.grants = { g with ends := some (s.beat + BitVec.ofNat 64 (1000000 * g.ms)) } :: rest ∧
        t.flag Reg.rglStatus 6 = true ∧ t.fld Reg.rglWindowStatus 31 16 = g.req.id) ∧
    (active → exec .windowBegin s = .next s) ∧
    (active → g.req.kind = 5 → (∃ y ∈ s.rgl.reqs, y.id ≠ g.req.id) → does (.repairDone true [] [] ext) fun t => ended 1 t ∧
      t.rgl.reqs = s.rgl.reqs.filter fun q => q.id != g.req.id) ∧
    (active → g.req.kind = 3 → g.req.riser = 0 → obUsed s (dieOf core) (core % 8) < 8 → does (.repairDone true [] [] ext) fun t =>
      ended 1 t ∧ t.rgl.entries = s.rgl.entries ++
        [{ kind := 5, fused := false, die := dieOf core, index := g.req.index, detail := 0 }]) ∧
    (active → does (.repairDone false [] [] ext) fun t => ended 4 t ∧ t.rgl.reqs = s.rgl.reqs) ∧
    (active → b.toNat ≤ s.beat.toNat → does .windowExpire fun t => ended 2 t ∧ t.rgl.reqs = s.rgl.reqs) ∧
    (active → s.beat.toNat < b.toNat → exec .windowExpire s = .next s) ∧
    (active → g.req.id = id → asks 0 → does (.windowEndRequest rq id) fun t => ended 4 t ∧ t.rgl.reqs = s.rgl.reqs) ∧
    (unsaved → exec (.recordRetry {}) s =
      .next { s with rgl := { s.rgl with recordDue := s.beat + 1000000000 } }) ∧
    (unsaved → (∀ u ∈ unitsOf 64 (recordHome s) (recordData s (recordSeed s)).length, ∃ d, extAnswer ext u = .ok d) → ∃ t, exec (.recordRetry ext) s = .next t ∧
      t.flag Reg.rsrStatus 7 = false ∧ t.reg Reg.rsrRecordGen = s.reg Reg.rsrRecordGen + 1 ∧ t.cores = s.cores ∧
      t.rings = s.rings) ∧
    (s.flag Reg.rsrStatus 7 = false → exec (.recordRetry ext) s = .next s)

/-- Bring-up and the package's pins (R392, R396, R461 to R475, R479 to R485, R490, Tables 15.1 to 15.4, 16.9): each
state goes on to the next when its work is good and to FAILED with its code when it is not; the Sprue trains through
its phases to UP; the management interface reads its bytes from the release of RESET_N. -/
def Obligations.BringUp : Prop :=
  ∀ (s : State) (ext : Ext) (off : Nat) (failed : List Nat) (credits : Nat × Nat × Nat × Nat),
    let at_ (n : Nat) : Prop := s.fld Reg.glbState 3 0 = n
    let goes (i : Instr) (n : Nat) (p : State → Prop) : Prop := ∃ t, exec i s = .next t ∧ t.fld Reg.glbState 3 0 = n ∧ p t
    let fails (i : Instr) (code : Nat) : Prop := goes i 15 fun t => t.boot.code = code ∧ t.boot.faultN = true ∧
      t.boot.failState = s.fld Reg.glbState 3 0
    let stays (i : Instr) : Prop := exec i s = .next s
    let good : Prop := s.boot.refLost = false ∧ s.boot.railFault = false ∧ s.boot.rails = true ∧ s.boot.refclk = true
    let phase (n : Nat) (i : Instr) : Prop :=
      (s.boot.sprPhase = n → exec i s = .next { s with boot := { s.boot with sprPhase := n + 1 } }) ∧
      (s.boot.sprPhase ≠ n → stays i)
    let img := bootRead 0x400000 (numAt (descBytes s) 4 4) s
    let l := bootRead 0 64 s
    let fresh (t : State) : Prop := t.mem = [] ∧ t.cores = [] ∧ t.rings = [] ∧ t.sealed = false ∧ t.beat = 0
    (s.boot.resetN = false → goes (.resetNRelease true) 1 fun t => fresh t ∧ t.boot.resetN = true ∧ t.boot.rails = true) ∧
    (s.boot.resetN = false → goes (.resetNRelease false) 0 fun t => fresh t ∧ t.boot.resetN = true) ∧
    (s.boot.resetN = true → stays (.resetNRelease true)) ∧
    (s.boot.resetN = true → s.boot.rails = false → s.boot.refLost = false → s.boot.railFault = false →
      goes .railsInRange 1 fun t => fresh t ∧ t.boot.rails = true ∧ t.boot.refclk = true) ∧
    (s.boot.resetN = true → good → s.flag Reg.rsrCtl 0 = false → goes (.resetNLow ext) 0 fun t => fresh t ∧ t.boot.resetN = false) ∧
    (s.boot.resetN = false → stays (.resetNLow ext)) ∧
    (goes .railFault 0 fun t => fresh t ∧ t.boot.faultN = true ∧ t.boot.railFault = true) ∧
    (goes .refclkLoss 0 fun t => fresh t ∧ t.boot.faultN = true ∧ t.boot.refLost = true) ∧
    (exec .thermtrip s = .next { s with boot := { s.boot with thermtripN := true } }) ∧
    (s.boot.resetN = true → off < 8 → ∃ t, exec (.bmiRead off) s = .next t ∧ t.rdata = ((bmiBytes s)[off]?.getD 0).setWidth 256 ∧
      t = { s with rdata := t.rdata, boot := t.boot } ∧ (off = 0 → t.boot.alertN = false) ∧ (off ≠ 0 → t.boot = s.boot)) ∧
    (s.boot.resetN = false → stays (.bmiRead off)) ∧
    (at_ 1 → goes (.ctrlSelect true true) 2 fun t => t.boot.ctrl % 2 = 0 ∧ t.assay.storageA = t.assay.storageB) ∧
    (at_ 1 → goes (.ctrlSelect false true) 2 fun t => t.boot.ctrl % 2 = 1 ∧ t.assay.storageB = s.assay.storageB) ∧
    (at_ 1 → fails (.ctrlSelect false false) 0x01) ∧
    (at_ 2 → s.assay.entropyOk = true → goes (.dieInit [] none none) 3 fun t => t.boot.excluded = s.boot.excluded) ∧
    (at_ 2 → s.assay.entropyOk = true → fails (.dieInit [] (some 40) none) 0x02) ∧
    (at_ 2 → s.assay.entropyOk = true → fails (.dieInit [] none (some (3, 5))) 0x03) ∧
    (at_ 3 → goes (.hbmInit none) 4 fun t => t.wiping = some .full ∧ t.flag Reg.cruStatus 1 = true ∧
      (∀ k, k < 8 → t.fld (Reg.hbmStatus k) 1 0 = 2) ∧ t.assay.keys.transport ≠ []) ∧
    (at_ 3 → fails (.hbmInit (some 2)) 0x04) ∧
    (at_ 4 → s.wiping = some .full → goes .fullWipeDone 5 fun t => t.wiping = none ∧
      (∀ v, s.dbg.granted = some v → t.dbg.unlocked = true ∧ t.dbg.scope = v) ∧ (s.dbg.granted = none → t.dbg = s.dbg)) ∧
    (phase 1 .sprueLock ∧ phase 2 .sprueAlign) ∧
    (s.boot.sprPhase = 3 → (halfFails failed 0).length ≤ 1 ∨ (halfFails failed 1).length ≤ 1 →
      exec (.sprueMap failed) s = .next { s with boot := { s.boot with sprPhase := 4, sprLanes := failed } }) ∧
    (s.boot.sprPhase = 3 → 1 < (halfFails failed 0).length → 1 < (halfFails failed 1).length → stays (.sprueMap failed)) ∧
    (s.boot.sprPhase = 4 → sprTrained s = false → s.boot.sprLanes = [] → ∃ t, exec (.sprueUp credits) s = .next t ∧ sprTrained t = true ∧
      t.fld Reg.sprStatus 3 2 = 2 ∧ Tab.get 0 t.spr.credits 0 = credits.1 ∧ Tab.get 0 t.spr.credits 3 = credits.2.2.2 ∧
      t.mem = s.mem ∧ t.cores = s.cores) ∧
    (s.boot.sprPhase ≠ 0 → sprTrained s = false → ¬ at_ 15 → 1000000000 ≤ (s.beat - s.boot.sprSince).toNat →
      (s.boot.sprTries < 2 → exec (.sprueTrainTimeout 0) s = .next { s with boot := { s.boot with
        sprPhase := 1, sprTries := s.boot.sprTries + 1, sprSince := s.beat, sprLanes := [] } }) ∧
      (2 ≤ s.boot.sprTries → fails (.sprueTrainTimeout 0) 0x05)) ∧
    (at_ 5 → 60000000000 < (s.beat - s.boot.waitSince).toNat → fails .fwTimeout 0x06) ∧
    (at_ 5 → (s.beat - s.boot.waitSince).toNat ≤ 60000000000 → stays .fwTimeout) ∧
    (at_ 5 → ofBytes (bootRead 56 8 s) = 1 → descOffence l = none → goes .bootGo 6 fun t =>
      t.boot.desc = BitVec.ofNat 512 (ofBytes l)) ∧
    (at_ 5 → ofBytes (bootRead 56 8 s) ≠ 1 → stays .bootGo) ∧
    (∀ n, at_ 5 → ofBytes (bootRead 56 8 s) = 1 → descOffence l = some n → s.boot.tries < 2 → goes .bootGo 5 fun t =>
      t.boot.tries = s.boot.tries + 1 ∧ t.boot.code = 0x08 ∧ t.boot.detail = BitVec.ofNat 64 n) ∧
    (at_ 6 → imageOffence s img = none → goes .fwVerify 7 fun t => t.assay.fwHead = cut img 0 128) ∧
    (∀ n, at_ 6 → imageOffence s img = some n → s.boot.tries = 2 → fails .fwVerify 0x07) ∧
    (at_ 7 → goes .fwStart 8 fun t => t.boot.fwStarted = true ∧ t.reg Reg.glbCoord = BitVec.ofNat 32 (numAt (descBytes s) 8 4) ∧
      t.reg Reg.glbAxes = BitVec.ofNat 32 (numAt (descBytes s) 12 4)) ∧
    (at_ 8 → numAt (descBytes s) 16 4 = 0 → goes .record 9 fun t => t.rgl = s.rgl ∧ t.retired = s.retired) ∧
    (at_ 9 → (∀ k, k < 8 → (retiredOf s k).length ≤ 512) → goes (.memTest [] [] [] none) 10 fun t => t.retired = s.retired ∧ t.boot.newRetired = 0) ∧
    (at_ 9 → fails (.memTest [] [] [] (some 4)) 0x0A) ∧
    (at_ 10 → s.boot.excluded = 0 → s.rgl.entries = [] → goes (.coreTest [] []) 11 fun t => coresActive t = 256) ∧
    (at_ 11 → goes (.characterise [] []) 12 fun t => t.boot.excluded = s.boot.excluded) ∧
    (at_ 11 → fails (.characterise [40] []) 0x0C) ∧
    (at_ 12 → (∀ k, k < 16 → s.fld (Reg.runLinkStatus k) 31 30 ≠ 1) → goes .links 13 fun t => t.links = s.links) ∧
    (at_ 12 → s.fld (Reg.runLinkStatus 3) 31 30 = 1 → (s.beat - s.boot.waitSince).toNat < 500000000 → stays .links)

/-- Resets (R163, R168, R261, R449, R450, R452, Table 14.4). A compute reset stops every core and zeroes its
registers, disables the rings with their counts at 0, closes the records, and shows BUSY until it is done; memory and
the event slots stay. A device reset starts bring-up again with nothing but what is fused. RSR_FLOOD starts a flood
for the device's job. -/
def Obligations.Resets : Prop :=
  ∀ (s : State) (rq : Requester) (ext : Ext),
    let quiet : Prop := s.flag Reg.rsrCtl 0 = false
    let job := s.fld Reg.runJob 15 0
    let idle : Prop := ∀ r, r < 64 → (s.ring r).state = .disabled
    (Admitted s rq Reg.rsrReset 1 → quiet → ∃ t, exec (.computeReset rq ext) s = .next t ∧ t.flag Reg.rsrStatus 8 = true ∧
      (∀ c, (t.core c).x = [] ∧ (t.core c).v = [] ∧ (t.core c).tiles = [] ∧ (t.core c).ob = [] ∧ (t.core c).mode ≠ .running ∧
        (t.core c).hold = none ∧ (t.core c).disp = none) ∧
      (∀ r, r < 64 → (t.ring r).state = .disabled ∧ (t.ring r).running = [] ∧ t.flag (Reg.ringCtl r) 0 = false ∧
        t.reg (Reg.ringTail r) = 0 ∧ t.reg (Reg.ringCqTail r) = 0) ∧
      t.disps = [] ∧ t.colls = [] ∧ t.mem = s.mem ∧ t.events = s.events ∧ t.beat = s.beat ∧ t.links = s.links) ∧
    (s.flag Reg.rsrStatus 8 = true → ∃ t, exec .computeResetDone s = .next t ∧ t.flag Reg.rsrStatus 8 = false ∧
      t.mem = s.mem ∧ t.cores = s.cores ∧ t.rings = s.rings) ∧
    (s.flag Reg.rsrStatus 8 = false → exec .computeResetDone s = .next s) ∧
    (Admitted s rq Reg.rsrReset 2 → quiet → s.boot.resetN = true → s.boot.rails = true → s.boot.refclk = true →
      s.boot.refLost = false → s.boot.railFault = false → ∃ t, exec (.deviceReset rq ext) s = .next t ∧
        t.fld Reg.glbState 3 0 = 1 ∧ t.mem = [] ∧ t.cores = [] ∧ t.rings = [] ∧ t.events = [] ∧ t.links = [] ∧ t.sealed = false ∧
        t.assay.storageA = s.assay.storageA ∧ t.assay.storageB = s.assay.storageB ∧ t.assay.keys = {} ∧
        t.pending = s.pending ∧ t.rgl.entries = s.rgl.entries.filter (·.fused)) ∧
    (Admitted s rq Reg.rsrFlood 1 → job ≠ 0 → idle → recording s = false → ∃ t, exec (.floodStart rq ext) s = .next t ∧
      t.floodSerial = s.floodSerial + 1 ∧ t.floodOut = some (job, (s.floodSerial + 1).toNat, s.beat) ∧
      t.flag Reg.rsrStatus 6 = true ∧ t.quietSince = s.beat ∧ t.flag Reg.runFloodStatus 30 = true ∧
      t.mem = s.mem ∧ t.cores = s.cores ∧ t.rings = s.rings) ∧
    (Admitted s rq Reg.rsrFlood 1 → job = 0 → Performs s rq (.floodStart rq ext) fun u => u)

/-- The part right after reset (R9, R247, R343, Tables 7.4 to 7.6, 15.1): bring-up stands in POWER; every register
holds the reset value that the register map gives it, the Beat is 0, memory reads as zero, nothing is queued, no ring,
dispatch, collective, record or window is in use, and no seal holds; the memory has its canonical form. Register x0
reads as zero and discards a write (Table 0.4). -/
def Obligations.ResetStateAndRegisterZero : Prop :=
  (let s := State.reset
   (∀ off, s.reg off = regReset off) ∧ s.fld Reg.glbState 3 0 = 0 ∧ s.beat = 0 ∧ s.mem = [] ∧ Memory.wf s ∧ s.pending = [] ∧
     (∀ c, (s.core c).pc = 0 ∧ ∀ j, (s.core c).xr j = 0) ∧ (∀ r, (s.ring r).state = .disabled) ∧ (∀ j, s.event j = 0) ∧
     s.disps = [] ∧ s.colls = [] ∧ s.recs = [] ∧ s.rgl.grants = [] ∧ s.sealed = false ∧ s.spr.out = [] ∧ s.runOut = []) ∧
  (∀ (k : Core) (v : W64) (i : Nat), k.xr 0 = 0 ∧ k.setX 0 v = k ∧ (0 < i → i < 32 → (k.setX i v).xr i = v) ∧
     ∀ j, j ≠ i → (k.setX i v).xr j = k.xr j)

/-- The memory keeps its canonical form in every step (derived from the form's own definition, with R41 and R42). -/
def Obligations.StepsKeepMemoryForm : Prop :=
  ∀ (s t : State), Memory.wf s → step s = .next t → Memory.wf t
end

