-- ==== Sys2Proof/Laws/Tab.lean ====
section
/-! SUPPORT. What the sparse tables do: a read after a write, and that every operation keeps the canonical form. -/

namespace Sys2Proof.Machine.Tab
variable {α : Type}

theorem find?_of_above {t : Tab α} {b k : Nat} (h : above b t = true) (hk : k ≤ b) : find? t k = none := by
  induction t with
  | nil => rfl
  | cons e t ih =>
    obtain ⟨k', v⟩ := e
    simp only [above, Bool.and_eq_true, decide_eq_true_eq] at h
    have : k' ≠ k := by omega
    simp [find?, this, ih h.2]

theorem above_mono {t : Tab α} {a b : Nat} (h : above b t = true) (hab : a ≤ b) : above a t = true := by
  induction t with
  | nil => rfl
  | cons e t ih =>
    obtain ⟨k, v⟩ := e
    simp only [above, Bool.and_eq_true, decide_eq_true_eq] at h ⊢
    exact ⟨by omega, ih h.2⟩

theorem above_insert {t : Tab α} {b k : Nat} {v : α} (h : above b t = true) (hk : b < k) :
    above b (insert t k v) = true := by
  induction t with
  | nil => simp [insert, above, hk]
  | cons e t ih =>
    obtain ⟨k', v'⟩ := e
    simp only [above, Bool.and_eq_true, decide_eq_true_eq] at h
    unfold insert
    split
    · simp [above, h, hk]
    · split
      · simp [above, h.2, hk]
      · simp [above, h.1, ih h.2]

theorem above_erase {t : Tab α} {b k : Nat} (h : above b t = true) : above b (erase t k) = true := by
  induction t with
  | nil => rfl
  | cons e t ih =>
    obtain ⟨k', v'⟩ := e
    simp only [above, Bool.and_eq_true, decide_eq_true_eq] at h
    unfold erase
    split
    · exact ih h.2
    · simp [above, h.1, ih h.2]

theorem wf_insert [DecidableEq α] {d v : α} {t : Tab α} {k : Nat} (h : wf d t = true) (hv : v ≠ d) :
    wf d (insert t k v) = true := by
  induction t with
  | nil => simp [insert, wf, above, hv]
  | cons e t ih =>
    obtain ⟨k', v'⟩ := e
    have h0 := h
    simp only [wf, Bool.and_eq_true, decide_eq_true_eq] at h
    unfold insert
    split
    · rename_i hlt
      simp [wf, h, hv, above, hlt, above_mono h.1.2 (Nat.le_of_lt hlt)]
    · split
      · rename_i _ he
        subst he
        simp [wf, h, hv]
      · rename_i hlt he
        have : k' < k := by omega
        simp [wf, h, ih h.2, above_insert h.1.2 this]

theorem wf_erase [DecidableEq α] {d : α} {t : Tab α} {k : Nat} (h : wf d t = true) : wf d (erase t k) = true := by
  induction t with
  | nil => rfl
  | cons e t ih =>
    obtain ⟨k', v'⟩ := e
    simp only [wf, Bool.and_eq_true, decide_eq_true_eq] at h
    unfold erase
    split
    · exact ih h.2
    · simp [wf, h, ih h.2, above_erase h.1.2]

/-- Writing keeps the canonical form. -/
theorem wf_set [DecidableEq α] {d v : α} {t : Tab α} {k : Nat} (h : wf d t = true) : wf d (set d t k v) = true := by
  unfold set
  split
  · exact wf_erase h
  · exact wf_insert h ‹_›

/-- Changing one key keeps the canonical form. -/
theorem wf_modify [DecidableEq α] {d : α} {t : Tab α} {k : Nat} {f : α → α} (h : wf d t = true) :
    wf d (modify d t k f) = true := wf_set h

theorem find?_insert_self {t : Tab α} {k : Nat} {v : α} : find? (insert t k v) k = some v := by
  induction t with
  | nil => simp [insert, find?]
  | cons e t ih =>
    obtain ⟨k', v'⟩ := e
    unfold insert
    split
    · simp [find?]
    · split
      · simp [find?]
      · simp [find?, *]

theorem find?_insert_ne {t : Tab α} {k j : Nat} {v : α} (h : j ≠ k) : find? (insert t k v) j = find? t j := by
  induction t with
  | nil => simp [insert, find?, h.symm]
  | cons e t ih =>
    obtain ⟨k', v'⟩ := e
    unfold insert
    split
    · simp [find?, h.symm]
    · split
      · rename_i _ he
        subst he
        simp [find?, h.symm]
      · simp only [find?, ih]

theorem find?_erase_ne {t : Tab α} {k j : Nat} (h : j ≠ k) : find? (erase t k) j = find? t j := by
  induction t with
  | nil => rfl
  | cons e t ih =>
    obtain ⟨k', v'⟩ := e
    unfold erase
    split
    · rename_i he
      subst he
      simp [find?, h.symm, ih]
    · simp only [find?, ih]

theorem find?_erase_self {t : Tab α} {k : Nat} : find? (erase t k) k = none := by
  induction t with
  | nil => rfl
  | cons e t ih =>
    obtain ⟨k', v'⟩ := e
    unfold erase
    split
    · exact ih
    · rename_i he
      simp [find?, he, ih]

/-- A key just written reads as the value written. -/
@[simp] theorem get_set_self [DecidableEq α] {d v : α} {t : Tab α} {k : Nat} :
    get d (set d t k v) k = v := by
  unfold set get
  split
  · rename_i he
    simp [find?_erase_self, he]
  · simp [find?_insert_self]

/-- Writing one key leaves every other key as it was. -/
@[simp] theorem get_set_ne [DecidableEq α] {d v : α} {t : Tab α} {k j : Nat} (h : j ≠ k) :
    get d (set d t k v) j = get d t j := by
  unfold set get
  split
  · simp [find?_erase_ne h]
  · simp [find?_insert_ne h]

@[simp] theorem get_modify_ne [DecidableEq α] {d : α} {t : Tab α} {k j : Nat} {f : α → α} (h : j ≠ k) :
    get d (modify d t k f) j = get d t j := get_set_ne h

@[simp] theorem get_modify_self [DecidableEq α] {d : α} {t : Tab α} {k : Nat} {f : α → α} :
    get d (modify d t k f) k = f (get d t k) := get_set_self

@[simp] theorem get_nil {d : α} {k : Nat} : get d ([] : Tab α) k = d := rfl

theorem erase_insert (t : Tab α) (k : Nat) (v : α) : erase (insert t k v) k = erase t k := by
  induction t with
  | nil => simp [insert, erase]
  | cons e t ih =>
    obtain ⟨k', v'⟩ := e
    simp only [insert]
    split
    · simp [erase]
    · split
      · subst_vars; simp [erase]
      · simp only [erase]; simp [*]

theorem insert_insert (t : Tab α) (k : Nat) (v u : α) : insert (insert t k v) k u = insert t k u := by
  induction t with
  | nil => simp [insert]
  | cons e t ih =>
    obtain ⟨k', v'⟩ := e
    simp only [insert]
    split
    · simp [insert]
    · split
      · subst_vars; simp [insert]
      · simp only [insert]; simp [*]

theorem set_set [DecidableEq α] {d : α} {t : Tab α} {k : Nat} {v u : α} (hv : v ≠ d) :
    set d (set d t k v) k u = set d t k u := by
  unfold set
  simp only [hv, if_false]
  split
  · exact erase_insert _ _ _
  · exact insert_insert _ _ _ _

end Sys2Proof.Machine.Tab
end

