-- ==== Sys2Proof/Laws/CoreIssue.lean ====
section
/-! SUPPORT. What the issue of an instruction does: it runs its row's body, or traps. -/

namespace Sys2Proof.Machine

/-- The words of a wide instruction reach 8 bytes further than those of a narrow one. -/
theorem pcInRange_of_wide {k : Core} (h : pcInRange k 16 = true) : pcInRange k 8 = true := by
  simp only [pcInRange, Bool.and_eq_true, decide_eq_true_eq] at *
  omega

/-- An instruction that executes normally runs its row's body. -/
theorem issue_eq {s : State} {c : Nat} {op : CoreOp} {w e : W64} {body : Body} (h : Issues s c op w e) :
    issue op body c w e s = body c w.toNat e.toNat (stepTaken c s) := by
  have h8 : pcInRange (s.core c) 8 = true := by
    have := h.inCode
    split at this
    · exact pcInRange_of_wide this
    · exact this
  have h16 : op.wide = true → pcInRange (s.core c) 16 = true := by
    intro hw
    simpa [hw] using h.inCode
  have hg : ¬(1 ≤ Iw.guard w.toNat ∧ Iw.guard w.toNat < 8) := by
    have := h.guard
    omega
  have hc : (cruHolds (stepTaken c s) && op.reaches w.toNat) = false := by
    have : cruHolds (stepTaken c s) = cruHolds s := rfl
    rcases h.crucible with hc | hc <;> simp [this, hc]
  unfold issue
  simp only [canIssue, h.running, h.free, h.notStopping, h.notHeld, h8, h.first, h.row, h.width, h.legal, h.guardOn, hc, hg]
  have : ¬(op.wide = true ∧ (bits e.toNat 63 56 ≠ 0xFF ∨ pcInRange (s.core c) 16 = false)) := by
    rintro ⟨hw, hs | hs⟩
    · exact hs (h.second hw)
    · simp [h16 hw] at hs
  simp [this]

/-- Retiring the present instruction, of a core that waits for nothing. -/
theorem finish_stepTaken (c len : Nat) (f : Core → Core) (s : State) (hf : (s.core c).hold = none) :
    finish c len f (stepTaken c s) = s.retiring c len (f (s.core c)) := by
  have h1 : (stepTaken c s).core c = s.core c := rfl
  have h2 : ({ s.core c with hold := none } : Core) = s.core c := by
    cases hk : s.core c
    simp_all
  simp only [finish, h1, h2]
  rfl

/-- Retiring with conditions none of which has its trap enabled (R221). -/
theorem finishWith_stepTaken (c len : Nat) (cd : Conds) (f : Core → Core) (s : State) (hf : (s.core c).hold = none)
    (ht : (f (s.core c)).arithTrap cd = false) :
    finishWith c len cd f (stepTaken c s) = s.retiring c len ((f (s.core c)).raise cd) := by
  unfold finishWith
  simp only [finish_stepTaken _ _ _ _ hf]
  have : ((s.retiring c len ((f (s.core c)).raise cd)).core c).arithTrap cd = (f (s.core c)).arithTrap cd := by
    simp [State.core, State.retiring, Core.arithTrap, Core.raise]
  simp [this, ht]

/-- Retiring after a change of a core that runs and waits for nothing. -/
theorem setCore_retiring {s : State} {c len : Nat} {k : Core} (f : Core → Core) (hk : k.mode = .running) (hf : k.hold = none) :
    finish c len f (stepTaken c (s.setCore c k)) = s.retiring c len (f k) := by
  have hk' : k ≠ {} := by rintro rfl; simp at hk
  have h0 : (s.setCore c k).core c = k := by simp [State.core, State.setCore]
  rw [finish_stepTaken]
  · rw [h0]
    simp only [State.retiring, State.setCore, Tab.set_set hk']
  · rw [h0]; exact hf

/-- A transfer to a good target (R196). -/
theorem jump_stepTaken (c : Nat) (t : W64) (f : Core → Core) (s : State)
    (h8 : t.toNat % 8 = 0) (hr : pcInRange { s.core c with pc := t } 8 = true) (hk : (f (s.core c)).hold = none) :
    jumpTo c t f (stepTaken c s) = s.retiring c 0 { f (s.core c) with pc := t } := by
  have h1 : (stepTaken c s).core c = s.core c := rfl
  unfold jumpTo
  simp only [h1, h8, hr]
  simp only [State.retiring, Core.retire, State.setCore, stepTaken]
  simp
  cases hk' : f (s.core c); simp_all

end Sys2Proof.Machine
end

