-- ==== Sys2Proof/Laws/State.lean ====
section
/-! SUPPORT. What each update of the state leaves as it was, and what it reads back: no proof unfolds a record update. -/

namespace Sys2Proof.Machine

@[simp] theorem setReg_frame (s : State) (o : Nat) (v : W32) :
    (s.setReg o v).pending = s.pending ∧ (s.setReg o v).posted = s.posted ∧ (s.setReg o v).rdata = s.rdata ∧
    (s.setReg o v).denyArmed = s.denyArmed ∧ (s.setReg o v).parityBad = s.parityBad ∧
    (s.setReg o v).parityDirty = s.parityDirty ∧ (s.setReg o v).mem = s.mem ∧ (s.setReg o v).poison = s.poison ∧
    (s.setReg o v).errs = s.errs ∧ (s.setReg o v).retired = s.retired ∧ (s.setReg o v).scrubbed = s.scrubbed ∧
    (s.setReg o v).xlat = s.xlat ∧ (s.setReg o v).tables = s.tables ∧ (s.setReg o v).xlatReq = s.xlatReq ∧
    (s.setReg o v).fwBase = s.fwBase ∧ (s.setReg o v).win = s.win ∧ (s.setReg o v).held = s.held ∧
    (s.setReg o v).cores = s.cores ∧ (s.setReg o v).disps = s.disps ∧ (s.setReg o v).nextUid = s.nextUid ∧
    (s.setReg o v).rings = s.rings ∧ (s.setReg o v).events = s.events ∧ (s.setReg o v).mwSince = s.mwSince ∧
    (s.setReg o v).mwBroken = s.mwBroken ∧ (s.setReg o v).chain = s.chain ∧ (s.setReg o v).streams = s.streams ∧
    (s.setReg o v).reloading = s.reloading ∧ (s.setReg o v).nqs = s.nqs ∧ (s.setReg o v).sqs = s.sqs ∧
    (s.setReg o v).wcs = s.wcs ∧ (s.setReg o v).spr = s.spr ∧ (s.setReg o v).links = s.links ∧
    (s.setReg o v).runOut = s.runOut ∧ (s.setReg o v).localPath = s.localPath ∧ (s.setReg o v).recs = s.recs ∧
    (s.setReg o v).colls = s.colls ∧ (s.setReg o v).early = s.early ∧ (s.setReg o v).bars = s.bars ∧
    (s.setReg o v).gateSent = s.gateSent ∧ (s.setReg o v).floodsSeen = s.floodsSeen ∧
    (s.setReg o v).vetoesSeen = s.vetoesSeen ∧ (s.setReg o v).nextVeto = s.nextVeto ∧
    (s.setReg o v).floodOut = s.floodOut ∧ (s.setReg o v).floodSerial = s.floodSerial ∧
    (s.setReg o v).rrSeq = s.rrSeq ∧ (s.setReg o v).rrGroups = s.rrGroups ∧ (s.setReg o v).rrQueue = s.rrQueue ∧
    (s.setReg o v).rrLost = s.rrLost ∧ (s.setReg o v).quietSince = s.quietSince ∧
    (s.setReg o v).manifest = s.manifest ∧ (s.setReg o v).verified = s.verified ∧ (s.setReg o v).wiping = s.wiping ∧
    (s.setReg o v).dbg = s.dbg ∧ (s.setReg o v).assay = s.assay ∧ (s.setReg o v).rgl = s.rgl ∧
    (s.setReg o v).boot = s.boot ∧ (s.setReg o v).bt = s.bt ∧ (s.setReg o v).replay = s.replay ∧
    (s.setReg o v).beat = s.beat ∧ (s.setReg o v).drift = s.drift ∧ (s.setReg o v).ctr = s.ctr ∧
    (s.setReg o v).ctrT = s.ctrT ∧ (s.setReg o v).ringDrops = s.ringDrops ∧ (s.setReg o v).free = s.free :=
  by simp only [State.setReg, and_self]

@[simp] theorem setFld_frame (s : State) (o hi lo x : Nat) :
    (s.setFld o hi lo x).pending = s.pending ∧ (s.setFld o hi lo x).posted = s.posted ∧
    (s.setFld o hi lo x).rdata = s.rdata ∧ (s.setFld o hi lo x).denyArmed = s.denyArmed ∧
    (s.setFld o hi lo x).parityBad = s.parityBad ∧ (s.setFld o hi lo x).parityDirty = s.parityDirty ∧
    (s.setFld o hi lo x).mem = s.mem ∧ (s.setFld o hi lo x).poison = s.poison ∧ (s.setFld o hi lo x).errs = s.errs ∧
    (s.setFld o hi lo x).retired = s.retired ∧ (s.setFld o hi lo x).scrubbed = s.scrubbed ∧
    (s.setFld o hi lo x).xlat = s.xlat ∧ (s.setFld o hi lo x).tables = s.tables ∧
    (s.setFld o hi lo x).xlatReq = s.xlatReq ∧ (s.setFld o hi lo x).fwBase = s.fwBase ∧
    (s.setFld o hi lo x).win = s.win ∧ (s.setFld o hi lo x).held = s.held ∧ (s.setFld o hi lo x).cores = s.cores ∧
    (s.setFld o hi lo x).disps = s.disps ∧ (s.setFld o hi lo x).nextUid = s.nextUid ∧
    (s.setFld o hi lo x).rings = s.rings ∧ (s.setFld o hi lo x).events = s.events ∧
    (s.setFld o hi lo x).mwSince = s.mwSince ∧ (s.setFld o hi lo x).mwBroken = s.mwBroken ∧
    (s.setFld o hi lo x).chain = s.chain ∧ (s.setFld o hi lo x).streams = s.streams ∧
    (s.setFld o hi lo x).reloading = s.reloading ∧ (s.setFld o hi lo x).nqs = s.nqs ∧
    (s.setFld o hi lo x).sqs = s.sqs ∧ (s.setFld o hi lo x).wcs = s.wcs ∧ (s.setFld o hi lo x).spr = s.spr ∧
    (s.setFld o hi lo x).links = s.links ∧ (s.setFld o hi lo x).runOut = s.runOut ∧
    (s.setFld o hi lo x).localPath = s.localPath ∧ (s.setFld o hi lo x).recs = s.recs ∧
    (s.setFld o hi lo x).colls = s.colls ∧ (s.setFld o hi lo x).early = s.early ∧
    (s.setFld o hi lo x).bars = s.bars ∧ (s.setFld o hi lo x).gateSent = s.gateSent ∧
    (s.setFld o hi lo x).floodsSeen = s.floodsSeen ∧ (s.setFld o hi lo x).vetoesSeen = s.vetoesSeen ∧
    (s.setFld o hi lo x).nextVeto = s.nextVeto ∧ (s.setFld o hi lo x).floodOut = s.floodOut ∧
    (s.setFld o hi lo x).floodSerial = s.floodSerial ∧ (s.setFld o hi lo x).rrSeq = s.rrSeq ∧
    (s.setFld o hi lo x).rrGroups = s.rrGroups ∧ (s.setFld o hi lo x).rrQueue = s.rrQueue ∧
    (s.setFld o hi lo x).rrLost = s.rrLost ∧ (s.setFld o hi lo x).quietSince = s.quietSince ∧
    (s.setFld o hi lo x).manifest = s.manifest ∧ (s.setFld o hi lo x).verified = s.verified ∧
    (s.setFld o hi lo x).wiping = s.wiping ∧ (s.setFld o hi lo x).dbg = s.dbg ∧
    (s.setFld o hi lo x).assay = s.assay ∧ (s.setFld o hi lo x).rgl = s.rgl ∧ (s.setFld o hi lo x).boot = s.boot ∧
    (s.setFld o hi lo x).bt = s.bt ∧ (s.setFld o hi lo x).replay = s.replay ∧ (s.setFld o hi lo x).beat = s.beat ∧
    (s.setFld o hi lo x).drift = s.drift ∧ (s.setFld o hi lo x).ctr = s.ctr ∧ (s.setFld o hi lo x).ctrT = s.ctrT ∧
    (s.setFld o hi lo x).ringDrops = s.ringDrops ∧ (s.setFld o hi lo x).free = s.free :=
  by simp only [State.setFld, State.setReg, and_self]

@[simp] theorem setFlag_frame (s : State) (o i : Nat) :
    (s.setFlag o i).pending = s.pending ∧ (s.setFlag o i).posted = s.posted ∧ (s.setFlag o i).rdata = s.rdata ∧
    (s.setFlag o i).denyArmed = s.denyArmed ∧ (s.setFlag o i).parityBad = s.parityBad ∧
    (s.setFlag o i).parityDirty = s.parityDirty ∧ (s.setFlag o i).mem = s.mem ∧ (s.setFlag o i).poison = s.poison ∧
    (s.setFlag o i).errs = s.errs ∧ (s.setFlag o i).retired = s.retired ∧ (s.setFlag o i).scrubbed = s.scrubbed ∧
    (s.setFlag o i).xlat = s.xlat ∧ (s.setFlag o i).tables = s.tables ∧ (s.setFlag o i).xlatReq = s.xlatReq ∧
    (s.setFlag o i).fwBase = s.fwBase ∧ (s.setFlag o i).win = s.win ∧ (s.setFlag o i).held = s.held ∧
    (s.setFlag o i).cores = s.cores ∧ (s.setFlag o i).disps = s.disps ∧ (s.setFlag o i).nextUid = s.nextUid ∧
    (s.setFlag o i).rings = s.rings ∧ (s.setFlag o i).events = s.events ∧ (s.setFlag o i).mwSince = s.mwSince ∧
    (s.setFlag o i).mwBroken = s.mwBroken ∧ (s.setFlag o i).chain = s.chain ∧ (s.setFlag o i).streams = s.streams ∧
    (s.setFlag o i).reloading = s.reloading ∧ (s.setFlag o i).nqs = s.nqs ∧ (s.setFlag o i).sqs = s.sqs ∧
    (s.setFlag o i).wcs = s.wcs ∧ (s.setFlag o i).spr = s.spr ∧ (s.setFlag o i).links = s.links ∧
    (s.setFlag o i).runOut = s.runOut ∧ (s.setFlag o i).localPath = s.localPath ∧ (s.setFlag o i).recs = s.recs ∧
    (s.setFlag o i).colls = s.colls ∧ (s.setFlag o i).early = s.early ∧ (s.setFlag o i).bars = s.bars ∧
    (s.setFlag o i).gateSent = s.gateSent ∧ (s.setFlag o i).floodsSeen = s.floodsSeen ∧
    (s.setFlag o i).vetoesSeen = s.vetoesSeen ∧ (s.setFlag o i).nextVeto = s.nextVeto ∧
    (s.setFlag o i).floodOut = s.floodOut ∧ (s.setFlag o i).floodSerial = s.floodSerial ∧
    (s.setFlag o i).rrSeq = s.rrSeq ∧ (s.setFlag o i).rrGroups = s.rrGroups ∧ (s.setFlag o i).rrQueue = s.rrQueue ∧
    (s.setFlag o i).rrLost = s.rrLost ∧ (s.setFlag o i).quietSince = s.quietSince ∧
    (s.setFlag o i).manifest = s.manifest ∧ (s.setFlag o i).verified = s.verified ∧
    (s.setFlag o i).wiping = s.wiping ∧ (s.setFlag o i).dbg = s.dbg ∧ (s.setFlag o i).assay = s.assay ∧
    (s.setFlag o i).rgl = s.rgl ∧ (s.setFlag o i).boot = s.boot ∧ (s.setFlag o i).bt = s.bt ∧
    (s.setFlag o i).replay = s.replay ∧ (s.setFlag o i).beat = s.beat ∧ (s.setFlag o i).drift = s.drift ∧
    (s.setFlag o i).ctr = s.ctr ∧ (s.setFlag o i).ctrT = s.ctrT ∧ (s.setFlag o i).ringDrops = s.ringDrops ∧
    (s.setFlag o i).free = s.free :=
  by simp only [State.setFlag, State.setReg, and_self]

@[simp] theorem clearFlag_frame (s : State) (o i : Nat) :
    (s.clearFlag o i).pending = s.pending ∧ (s.clearFlag o i).posted = s.posted ∧ (s.clearFlag o i).rdata = s.rdata ∧
    (s.clearFlag o i).denyArmed = s.denyArmed ∧ (s.clearFlag o i).parityBad = s.parityBad ∧
    (s.clearFlag o i).parityDirty = s.parityDirty ∧ (s.clearFlag o i).mem = s.mem ∧
    (s.clearFlag o i).poison = s.poison ∧ (s.clearFlag o i).errs = s.errs ∧ (s.clearFlag o i).retired = s.retired ∧
    (s.clearFlag o i).scrubbed = s.scrubbed ∧ (s.clearFlag o i).xlat = s.xlat ∧ (s.clearFlag o i).tables = s.tables ∧
    (s.clearFlag o i).xlatReq = s.xlatReq ∧ (s.clearFlag o i).fwBase = s.fwBase ∧ (s.clearFlag o i).win = s.win ∧
    (s.clearFlag o i).held = s.held ∧ (s.clearFlag o i).cores = s.cores ∧ (s.clearFlag o i).disps = s.disps ∧
    (s.clearFlag o i).nextUid = s.nextUid ∧ (s.clearFlag o i).rings = s.rings ∧ (s.clearFlag o i).events = s.events ∧
    (s.clearFlag o i).mwSince = s.mwSince ∧ (s.clearFlag o i).mwBroken = s.mwBroken ∧
    (s.clearFlag o i).chain = s.chain ∧ (s.clearFlag o i).streams = s.streams ∧
    (s.clearFlag o i).reloading = s.reloading ∧ (s.clearFlag o i).nqs = s.nqs ∧ (s.clearFlag o i).sqs = s.sqs ∧
    (s.clearFlag o i).wcs = s.wcs ∧ (s.clearFlag o i).spr = s.spr ∧ (s.clearFlag o i).links = s.links ∧
    (s.clearFlag o i).runOut = s.runOut ∧ (s.clearFlag o i).localPath = s.localPath ∧
    (s.clearFlag o i).recs = s.recs ∧ (s.clearFlag o i).colls = s.colls ∧ (s.clearFlag o i).early = s.early ∧
    (s.clearFlag o i).bars = s.bars ∧ (s.clearFlag o i).gateSent = s.gateSent ∧
    (s.clearFlag o i).floodsSeen = s.floodsSeen ∧ (s.clearFlag o i).vetoesSeen = s.vetoesSeen ∧
    (s.clearFlag o i).nextVeto = s.nextVeto ∧ (s.clearFlag o i).floodOut = s.floodOut ∧
    (s.clearFlag o i).floodSerial = s.floodSerial ∧ (s.clearFlag o i).rrSeq = s.rrSeq ∧
    (s.clearFlag o i).rrGroups = s.rrGroups ∧ (s.clearFlag o i).rrQueue = s.rrQueue ∧
    (s.clearFlag o i).rrLost = s.rrLost ∧ (s.clearFlag o i).quietSince = s.quietSince ∧
    (s.clearFlag o i).manifest = s.manifest ∧ (s.clearFlag o i).verified = s.verified ∧
    (s.clearFlag o i).wiping = s.wiping ∧ (s.clearFlag o i).dbg = s.dbg ∧ (s.clearFlag o i).assay = s.assay ∧
    (s.clearFlag o i).rgl = s.rgl ∧ (s.clearFlag o i).boot = s.boot ∧ (s.clearFlag o i).bt = s.bt ∧
    (s.clearFlag o i).replay = s.replay ∧ (s.clearFlag o i).beat = s.beat ∧ (s.clearFlag o i).drift = s.drift ∧
    (s.clearFlag o i).ctr = s.ctr ∧ (s.clearFlag o i).ctrT = s.ctrT ∧ (s.clearFlag o i).ringDrops = s.ringDrops ∧
    (s.clearFlag o i).free = s.free :=
  by simp only [State.clearFlag, State.setReg, and_self]

@[simp] theorem addSat_frame (s : State) (o n : Nat) :
    (s.addSat o n).pending = s.pending ∧ (s.addSat o n).posted = s.posted ∧ (s.addSat o n).rdata = s.rdata ∧
    (s.addSat o n).denyArmed = s.denyArmed ∧ (s.addSat o n).parityBad = s.parityBad ∧
    (s.addSat o n).parityDirty = s.parityDirty ∧ (s.addSat o n).mem = s.mem ∧ (s.addSat o n).poison = s.poison ∧
    (s.addSat o n).errs = s.errs ∧ (s.addSat o n).retired = s.retired ∧ (s.addSat o n).scrubbed = s.scrubbed ∧
    (s.addSat o n).xlat = s.xlat ∧ (s.addSat o n).tables = s.tables ∧ (s.addSat o n).xlatReq = s.xlatReq ∧
    (s.addSat o n).fwBase = s.fwBase ∧ (s.addSat o n).win = s.win ∧ (s.addSat o n).held = s.held ∧
    (s.addSat o n).cores = s.cores ∧ (s.addSat o n).disps = s.disps ∧ (s.addSat o n).nextUid = s.nextUid ∧
    (s.addSat o n).rings = s.rings ∧ (s.addSat o n).events = s.events ∧ (s.addSat o n).mwSince = s.mwSince ∧
    (s.addSat o n).mwBroken = s.mwBroken ∧ (s.addSat o n).chain = s.chain ∧ (s.addSat o n).streams = s.streams ∧
    (s.addSat o n).reloading = s.reloading ∧ (s.addSat o n).nqs = s.nqs ∧ (s.addSat o n).sqs = s.sqs ∧
    (s.addSat o n).wcs = s.wcs ∧ (s.addSat o n).spr = s.spr ∧ (s.addSat o n).links = s.links ∧
    (s.addSat o n).runOut = s.runOut ∧ (s.addSat o n).localPath = s.localPath ∧ (s.addSat o n).recs = s.recs ∧
    (s.addSat o n).colls = s.colls ∧ (s.addSat o n).early = s.early ∧ (s.addSat o n).bars = s.bars ∧
    (s.addSat o n).gateSent = s.gateSent ∧ (s.addSat o n).floodsSeen = s.floodsSeen ∧
    (s.addSat o n).vetoesSeen = s.vetoesSeen ∧ (s.addSat o n).nextVeto = s.nextVeto ∧
    (s.addSat o n).floodOut = s.floodOut ∧ (s.addSat o n).floodSerial = s.floodSerial ∧
    (s.addSat o n).rrSeq = s.rrSeq ∧ (s.addSat o n).rrGroups = s.rrGroups ∧ (s.addSat o n).rrQueue = s.rrQueue ∧
    (s.addSat o n).rrLost = s.rrLost ∧ (s.addSat o n).quietSince = s.quietSince ∧
    (s.addSat o n).manifest = s.manifest ∧ (s.addSat o n).verified = s.verified ∧ (s.addSat o n).wiping = s.wiping ∧
    (s.addSat o n).dbg = s.dbg ∧ (s.addSat o n).assay = s.assay ∧ (s.addSat o n).rgl = s.rgl ∧
    (s.addSat o n).boot = s.boot ∧ (s.addSat o n).bt = s.bt ∧ (s.addSat o n).replay = s.replay ∧
    (s.addSat o n).beat = s.beat ∧ (s.addSat o n).drift = s.drift ∧ (s.addSat o n).ctr = s.ctr ∧
    (s.addSat o n).ctrT = s.ctrT ∧ (s.addSat o n).ringDrops = s.ringDrops ∧ (s.addSat o n).free = s.free :=
  by simp only [State.addSat, State.setReg, and_self]

@[simp] theorem count_frame (s : State) (sel n : Nat) :
    (s.count sel n).pending = s.pending ∧ (s.count sel n).regs = s.regs ∧ (s.count sel n).posted = s.posted ∧
    (s.count sel n).rdata = s.rdata ∧ (s.count sel n).denyArmed = s.denyArmed ∧
    (s.count sel n).parityBad = s.parityBad ∧ (s.count sel n).parityDirty = s.parityDirty ∧
    (s.count sel n).mem = s.mem ∧ (s.count sel n).poison = s.poison ∧ (s.count sel n).errs = s.errs ∧
    (s.count sel n).retired = s.retired ∧ (s.count sel n).scrubbed = s.scrubbed ∧ (s.count sel n).xlat = s.xlat ∧
    (s.count sel n).tables = s.tables ∧ (s.count sel n).xlatReq = s.xlatReq ∧ (s.count sel n).fwBase = s.fwBase ∧
    (s.count sel n).win = s.win ∧ (s.count sel n).held = s.held ∧ (s.count sel n).cores = s.cores ∧
    (s.count sel n).disps = s.disps ∧ (s.count sel n).nextUid = s.nextUid ∧ (s.count sel n).rings = s.rings ∧
    (s.count sel n).events = s.events ∧ (s.count sel n).mwSince = s.mwSince ∧ (s.count sel n).mwBroken = s.mwBroken ∧
    (s.count sel n).chain = s.chain ∧ (s.count sel n).streams = s.streams ∧ (s.count sel n).reloading = s.reloading ∧
    (s.count sel n).nqs = s.nqs ∧ (s.count sel n).sqs = s.sqs ∧ (s.count sel n).wcs = s.wcs ∧
    (s.count sel n).spr = s.spr ∧ (s.count sel n).links = s.links ∧ (s.count sel n).runOut = s.runOut ∧
    (s.count sel n).localPath = s.localPath ∧ (s.count sel n).recs = s.recs ∧ (s.count sel n).colls = s.colls ∧
    (s.count sel n).early = s.early ∧ (s.count sel n).bars = s.bars ∧ (s.count sel n).gateSent = s.gateSent ∧
    (s.count sel n).floodsSeen = s.floodsSeen ∧ (s.count sel n).vetoesSeen = s.vetoesSeen ∧
    (s.count sel n).nextVeto = s.nextVeto ∧ (s.count sel n).floodOut = s.floodOut ∧
    (s.count sel n).floodSerial = s.floodSerial ∧ (s.count sel n).rrSeq = s.rrSeq ∧
    (s.count sel n).rrGroups = s.rrGroups ∧ (s.count sel n).rrQueue = s.rrQueue ∧ (s.count sel n).rrLost = s.rrLost ∧
    (s.count sel n).quietSince = s.quietSince ∧ (s.count sel n).manifest = s.manifest ∧
    (s.count sel n).verified = s.verified ∧ (s.count sel n).wiping = s.wiping ∧ (s.count sel n).dbg = s.dbg ∧
    (s.count sel n).assay = s.assay ∧ (s.count sel n).rgl = s.rgl ∧ (s.count sel n).boot = s.boot ∧
    (s.count sel n).bt = s.bt ∧ (s.count sel n).replay = s.replay ∧ (s.count sel n).beat = s.beat ∧
    (s.count sel n).drift = s.drift ∧ (s.count sel n).ctrT = s.ctrT ∧ (s.count sel n).ringDrops = s.ringDrops ∧
    (s.count sel n).free = s.free :=
  by simp only [State.count, and_self]

@[simp] theorem setCore_frame (s : State) (c : Nat) (k : Core) :
    (s.setCore c k).pending = s.pending ∧ (s.setCore c k).regs = s.regs ∧ (s.setCore c k).posted = s.posted ∧
    (s.setCore c k).rdata = s.rdata ∧ (s.setCore c k).denyArmed = s.denyArmed ∧
    (s.setCore c k).parityBad = s.parityBad ∧ (s.setCore c k).parityDirty = s.parityDirty ∧
    (s.setCore c k).mem = s.mem ∧ (s.setCore c k).poison = s.poison ∧ (s.setCore c k).errs = s.errs ∧
    (s.setCore c k).retired = s.retired ∧ (s.setCore c k).scrubbed = s.scrubbed ∧ (s.setCore c k).xlat = s.xlat ∧
    (s.setCore c k).tables = s.tables ∧ (s.setCore c k).xlatReq = s.xlatReq ∧ (s.setCore c k).fwBase = s.fwBase ∧
    (s.setCore c k).win = s.win ∧ (s.setCore c k).held = s.held ∧ (s.setCore c k).disps = s.disps ∧
    (s.setCore c k).nextUid = s.nextUid ∧ (s.setCore c k).rings = s.rings ∧ (s.setCore c k).events = s.events ∧
    (s.setCore c k).mwSince = s.mwSince ∧ (s.setCore c k).mwBroken = s.mwBroken ∧ (s.setCore c k).chain = s.chain ∧
    (s.setCore c k).streams = s.streams ∧ (s.setCore c k).reloading = s.reloading ∧ (s.setCore c k).nqs = s.nqs ∧
    (s.setCore c k).sqs = s.sqs ∧ (s.setCore c k).wcs = s.wcs ∧ (s.setCore c k).spr = s.spr ∧
    (s.setCore c k).links = s.links ∧ (s.setCore c k).runOut = s.runOut ∧ (s.setCore c k).localPath = s.localPath ∧
    (s.setCore c k).recs = s.recs ∧ (s.setCore c k).colls = s.colls ∧ (s.setCore c k).early = s.early ∧
    (s.setCore c k).bars = s.bars ∧ (s.setCore c k).gateSent = s.gateSent ∧
    (s.setCore c k).floodsSeen = s.floodsSeen ∧ (s.setCore c k).vetoesSeen = s.vetoesSeen ∧
    (s.setCore c k).nextVeto = s.nextVeto ∧ (s.setCore c k).floodOut = s.floodOut ∧
    (s.setCore c k).floodSerial = s.floodSerial ∧ (s.setCore c k).rrSeq = s.rrSeq ∧
    (s.setCore c k).rrGroups = s.rrGroups ∧ (s.setCore c k).rrQueue = s.rrQueue ∧ (s.setCore c k).rrLost = s.rrLost ∧
    (s.setCore c k).quietSince = s.quietSince ∧ (s.setCore c k).manifest = s.manifest ∧
    (s.setCore c k).verified = s.verified ∧ (s.setCore c k).wiping = s.wiping ∧ (s.setCore c k).dbg = s.dbg ∧
    (s.setCore c k).assay = s.assay ∧ (s.setCore c k).rgl = s.rgl ∧ (s.setCore c k).boot = s.boot ∧
    (s.setCore c k).bt = s.bt ∧ (s.setCore c k).replay = s.replay ∧ (s.setCore c k).beat = s.beat ∧
    (s.setCore c k).drift = s.drift ∧ (s.setCore c k).ctr = s.ctr ∧ (s.setCore c k).ctrT = s.ctrT ∧
    (s.setCore c k).ringDrops = s.ringDrops ∧ (s.setCore c k).free = s.free :=
  by simp only [State.setCore, and_self]

@[simp] theorem modCore_frame (s : State) (c : Nat) (f : Core → Core) :
    (s.modCore c f).pending = s.pending ∧ (s.modCore c f).regs = s.regs ∧ (s.modCore c f).posted = s.posted ∧
    (s.modCore c f).rdata = s.rdata ∧ (s.modCore c f).denyArmed = s.denyArmed ∧
    (s.modCore c f).parityBad = s.parityBad ∧ (s.modCore c f).parityDirty = s.parityDirty ∧
    (s.modCore c f).mem = s.mem ∧ (s.modCore c f).poison = s.poison ∧ (s.modCore c f).errs = s.errs ∧
    (s.modCore c f).retired = s.retired ∧ (s.modCore c f).scrubbed = s.scrubbed ∧ (s.modCore c f).xlat = s.xlat ∧
    (s.modCore c f).tables = s.tables ∧ (s.modCore c f).xlatReq = s.xlatReq ∧ (s.modCore c f).fwBase = s.fwBase ∧
    (s.modCore c f).win = s.win ∧ (s.modCore c f).held = s.held ∧ (s.modCore c f).disps = s.disps ∧
    (s.modCore c f).nextUid = s.nextUid ∧ (s.modCore c f).rings = s.rings ∧ (s.modCore c f).events = s.events ∧
    (s.modCore c f).mwSince = s.mwSince ∧ (s.modCore c f).mwBroken = s.mwBroken ∧ (s.modCore c f).chain = s.chain ∧
    (s.modCore c f).streams = s.streams ∧ (s.modCore c f).reloading = s.reloading ∧ (s.modCore c f).nqs = s.nqs ∧
    (s.modCore c f).sqs = s.sqs ∧ (s.modCore c f).wcs = s.wcs ∧ (s.modCore c f).spr = s.spr ∧
    (s.modCore c f).links = s.links ∧ (s.modCore c f).runOut = s.runOut ∧ (s.modCore c f).localPath = s.localPath ∧
    (s.modCore c f).recs = s.recs ∧ (s.modCore c f).colls = s.colls ∧ (s.modCore c f).early = s.early ∧
    (s.modCore c f).bars = s.bars ∧ (s.modCore c f).gateSent = s.gateSent ∧
    (s.modCore c f).floodsSeen = s.floodsSeen ∧ (s.modCore c f).vetoesSeen = s.vetoesSeen ∧
    (s.modCore c f).nextVeto = s.nextVeto ∧ (s.modCore c f).floodOut = s.floodOut ∧
    (s.modCore c f).floodSerial = s.floodSerial ∧ (s.modCore c f).rrSeq = s.rrSeq ∧
    (s.modCore c f).rrGroups = s.rrGroups ∧ (s.modCore c f).rrQueue = s.rrQueue ∧ (s.modCore c f).rrLost = s.rrLost ∧
    (s.modCore c f).quietSince = s.quietSince ∧ (s.modCore c f).manifest = s.manifest ∧
    (s.modCore c f).verified = s.verified ∧ (s.modCore c f).wiping = s.wiping ∧ (s.modCore c f).dbg = s.dbg ∧
    (s.modCore c f).assay = s.assay ∧ (s.modCore c f).rgl = s.rgl ∧ (s.modCore c f).boot = s.boot ∧
    (s.modCore c f).bt = s.bt ∧ (s.modCore c f).replay = s.replay ∧ (s.modCore c f).beat = s.beat ∧
    (s.modCore c f).drift = s.drift ∧ (s.modCore c f).ctr = s.ctr ∧ (s.modCore c f).ctrT = s.ctrT ∧
    (s.modCore c f).ringDrops = s.ringDrops ∧ (s.modCore c f).free = s.free :=
  by simp only [State.modCore, State.setCore, and_self]

@[simp] theorem modNq_frame (s : State) (q : Nat) (f : NQueue → NQueue) :
    (s.modNq q f).pending = s.pending ∧ (s.modNq q f).regs = s.regs ∧ (s.modNq q f).posted = s.posted ∧
    (s.modNq q f).rdata = s.rdata ∧ (s.modNq q f).denyArmed = s.denyArmed ∧ (s.modNq q f).parityBad = s.parityBad ∧
    (s.modNq q f).parityDirty = s.parityDirty ∧ (s.modNq q f).mem = s.mem ∧ (s.modNq q f).poison = s.poison ∧
    (s.modNq q f).errs = s.errs ∧ (s.modNq q f).retired = s.retired ∧ (s.modNq q f).scrubbed = s.scrubbed ∧
    (s.modNq q f).xlat = s.xlat ∧ (s.modNq q f).tables = s.tables ∧ (s.modNq q f).xlatReq = s.xlatReq ∧
    (s.modNq q f).fwBase = s.fwBase ∧ (s.modNq q f).win = s.win ∧ (s.modNq q f).held = s.held ∧
    (s.modNq q f).cores = s.cores ∧ (s.modNq q f).disps = s.disps ∧ (s.modNq q f).nextUid = s.nextUid ∧
    (s.modNq q f).rings = s.rings ∧ (s.modNq q f).events = s.events ∧ (s.modNq q f).mwSince = s.mwSince ∧
    (s.modNq q f).mwBroken = s.mwBroken ∧ (s.modNq q f).chain = s.chain ∧ (s.modNq q f).streams = s.streams ∧
    (s.modNq q f).reloading = s.reloading ∧ (s.modNq q f).sqs = s.sqs ∧ (s.modNq q f).wcs = s.wcs ∧
    (s.modNq q f).spr = s.spr ∧ (s.modNq q f).links = s.links ∧ (s.modNq q f).runOut = s.runOut ∧
    (s.modNq q f).localPath = s.localPath ∧ (s.modNq q f).recs = s.recs ∧ (s.modNq q f).colls = s.colls ∧
    (s.modNq q f).early = s.early ∧ (s.modNq q f).bars = s.bars ∧ (s.modNq q f).gateSent = s.gateSent ∧
    (s.modNq q f).floodsSeen = s.floodsSeen ∧ (s.modNq q f).vetoesSeen = s.vetoesSeen ∧
    (s.modNq q f).nextVeto = s.nextVeto ∧ (s.modNq q f).floodOut = s.floodOut ∧
    (s.modNq q f).floodSerial = s.floodSerial ∧ (s.modNq q f).rrSeq = s.rrSeq ∧ (s.modNq q f).rrGroups = s.rrGroups ∧
    (s.modNq q f).rrQueue = s.rrQueue ∧ (s.modNq q f).rrLost = s.rrLost ∧ (s.modNq q f).quietSince = s.quietSince ∧
    (s.modNq q f).manifest = s.manifest ∧ (s.modNq q f).verified = s.verified ∧ (s.modNq q f).wiping = s.wiping ∧
    (s.modNq q f).dbg = s.dbg ∧ (s.modNq q f).assay = s.assay ∧ (s.modNq q f).rgl = s.rgl ∧
    (s.modNq q f).boot = s.boot ∧ (s.modNq q f).bt = s.bt ∧ (s.modNq q f).replay = s.replay ∧
    (s.modNq q f).beat = s.beat ∧ (s.modNq q f).drift = s.drift ∧ (s.modNq q f).ctr = s.ctr ∧
    (s.modNq q f).ctrT = s.ctrT ∧ (s.modNq q f).ringDrops = s.ringDrops ∧ (s.modNq q f).free = s.free :=
  by simp only [State.modNq, and_self]

@[simp] theorem modSq_frame (s : State) (q : Nat) (f : SQueue → SQueue) :
    (s.modSq q f).pending = s.pending ∧ (s.modSq q f).regs = s.regs ∧ (s.modSq q f).posted = s.posted ∧
    (s.modSq q f).rdata = s.rdata ∧ (s.modSq q f).denyArmed = s.denyArmed ∧ (s.modSq q f).parityBad = s.parityBad ∧
    (s.modSq q f).parityDirty = s.parityDirty ∧ (s.modSq q f).mem = s.mem ∧ (s.modSq q f).poison = s.poison ∧
    (s.modSq q f).errs = s.errs ∧ (s.modSq q f).retired = s.retired ∧ (s.modSq q f).scrubbed = s.scrubbed ∧
    (s.modSq q f).xlat = s.xlat ∧ (s.modSq q f).tables = s.tables ∧ (s.modSq q f).xlatReq = s.xlatReq ∧
    (s.modSq q f).fwBase = s.fwBase ∧ (s.modSq q f).win = s.win ∧ (s.modSq q f).held = s.held ∧
    (s.modSq q f).cores = s.cores ∧ (s.modSq q f).disps = s.disps ∧ (s.modSq q f).nextUid = s.nextUid ∧
    (s.modSq q f).rings = s.rings ∧ (s.modSq q f).events = s.events ∧ (s.modSq q f).mwSince = s.mwSince ∧
    (s.modSq q f).mwBroken = s.mwBroken ∧ (s.modSq q f).chain = s.chain ∧ (s.modSq q f).streams = s.streams ∧
    (s.modSq q f).reloading = s.reloading ∧ (s.modSq q f).nqs = s.nqs ∧ (s.modSq q f).wcs = s.wcs ∧
    (s.modSq q f).spr = s.spr ∧ (s.modSq q f).links = s.links ∧ (s.modSq q f).runOut = s.runOut ∧
    (s.modSq q f).localPath = s.localPath ∧ (s.modSq q f).recs = s.recs ∧ (s.modSq q f).colls = s.colls ∧
    (s.modSq q f).early = s.early ∧ (s.modSq q f).bars = s.bars ∧ (s.modSq q f).gateSent = s.gateSent ∧
    (s.modSq q f).floodsSeen = s.floodsSeen ∧ (s.modSq q f).vetoesSeen = s.vetoesSeen ∧
    (s.modSq q f).nextVeto = s.nextVeto ∧ (s.modSq q f).floodOut = s.floodOut ∧
    (s.modSq q f).floodSerial = s.floodSerial ∧ (s.modSq q f).rrSeq = s.rrSeq ∧ (s.modSq q f).rrGroups = s.rrGroups ∧
    (s.modSq q f).rrQueue = s.rrQueue ∧ (s.modSq q f).rrLost = s.rrLost ∧ (s.modSq q f).quietSince = s.quietSince ∧
    (s.modSq q f).manifest = s.manifest ∧ (s.modSq q f).verified = s.verified ∧ (s.modSq q f).wiping = s.wiping ∧
    (s.modSq q f).dbg = s.dbg ∧ (s.modSq q f).assay = s.assay ∧ (s.modSq q f).rgl = s.rgl ∧
    (s.modSq q f).boot = s.boot ∧ (s.modSq q f).bt = s.bt ∧ (s.modSq q f).replay = s.replay ∧
    (s.modSq q f).beat = s.beat ∧ (s.modSq q f).drift = s.drift ∧ (s.modSq q f).ctr = s.ctr ∧
    (s.modSq q f).ctrT = s.ctrT ∧ (s.modSq q f).ringDrops = s.ringDrops ∧ (s.modSq q f).free = s.free :=
  by simp only [State.modSq, and_self]

@[simp] theorem modWc_frame (s : State) (n : Nat) (f : WCounter → WCounter) :
    (s.modWc n f).pending = s.pending ∧ (s.modWc n f).regs = s.regs ∧ (s.modWc n f).posted = s.posted ∧
    (s.modWc n f).rdata = s.rdata ∧ (s.modWc n f).denyArmed = s.denyArmed ∧ (s.modWc n f).parityBad = s.parityBad ∧
    (s.modWc n f).parityDirty = s.parityDirty ∧ (s.modWc n f).mem = s.mem ∧ (s.modWc n f).poison = s.poison ∧
    (s.modWc n f).errs = s.errs ∧ (s.modWc n f).retired = s.retired ∧ (s.modWc n f).scrubbed = s.scrubbed ∧
    (s.modWc n f).xlat = s.xlat ∧ (s.modWc n f).tables = s.tables ∧ (s.modWc n f).xlatReq = s.xlatReq ∧
    (s.modWc n f).fwBase = s.fwBase ∧ (s.modWc n f).win = s.win ∧ (s.modWc n f).held = s.held ∧
    (s.modWc n f).cores = s.cores ∧ (s.modWc n f).disps = s.disps ∧ (s.modWc n f).nextUid = s.nextUid ∧
    (s.modWc n f).rings = s.rings ∧ (s.modWc n f).events = s.events ∧ (s.modWc n f).mwSince = s.mwSince ∧
    (s.modWc n f).mwBroken = s.mwBroken ∧ (s.modWc n f).chain = s.chain ∧ (s.modWc n f).streams = s.streams ∧
    (s.modWc n f).reloading = s.reloading ∧ (s.modWc n f).nqs = s.nqs ∧ (s.modWc n f).sqs = s.sqs ∧
    (s.modWc n f).spr = s.spr ∧ (s.modWc n f).links = s.links ∧ (s.modWc n f).runOut = s.runOut ∧
    (s.modWc n f).localPath = s.localPath ∧ (s.modWc n f).recs = s.recs ∧ (s.modWc n f).colls = s.colls ∧
    (s.modWc n f).early = s.early ∧ (s.modWc n f).bars = s.bars ∧ (s.modWc n f).gateSent = s.gateSent ∧
    (s.modWc n f).floodsSeen = s.floodsSeen ∧ (s.modWc n f).vetoesSeen = s.vetoesSeen ∧
    (s.modWc n f).nextVeto = s.nextVeto ∧ (s.modWc n f).floodOut = s.floodOut ∧
    (s.modWc n f).floodSerial = s.floodSerial ∧ (s.modWc n f).rrSeq = s.rrSeq ∧ (s.modWc n f).rrGroups = s.rrGroups ∧
    (s.modWc n f).rrQueue = s.rrQueue ∧ (s.modWc n f).rrLost = s.rrLost ∧ (s.modWc n f).quietSince = s.quietSince ∧
    (s.modWc n f).manifest = s.manifest ∧ (s.modWc n f).verified = s.verified ∧ (s.modWc n f).wiping = s.wiping ∧
    (s.modWc n f).dbg = s.dbg ∧ (s.modWc n f).assay = s.assay ∧ (s.modWc n f).rgl = s.rgl ∧
    (s.modWc n f).boot = s.boot ∧ (s.modWc n f).bt = s.bt ∧ (s.modWc n f).replay = s.replay ∧
    (s.modWc n f).beat = s.beat ∧ (s.modWc n f).drift = s.drift ∧ (s.modWc n f).ctr = s.ctr ∧
    (s.modWc n f).ctrT = s.ctrT ∧ (s.modWc n f).ringDrops = s.ringDrops ∧ (s.modWc n f).free = s.free :=
  by simp only [State.modWc, and_self]

@[simp] theorem modStream_frame (s : State) (i : Nat) (f : Stream → Stream) :
    (s.modStream i f).pending = s.pending ∧ (s.modStream i f).regs = s.regs ∧ (s.modStream i f).posted = s.posted ∧
    (s.modStream i f).rdata = s.rdata ∧ (s.modStream i f).denyArmed = s.denyArmed ∧
    (s.modStream i f).parityBad = s.parityBad ∧ (s.modStream i f).parityDirty = s.parityDirty ∧
    (s.modStream i f).mem = s.mem ∧ (s.modStream i f).poison = s.poison ∧ (s.modStream i f).errs = s.errs ∧
    (s.modStream i f).retired = s.retired ∧ (s.modStream i f).scrubbed = s.scrubbed ∧
    (s.modStream i f).xlat = s.xlat ∧ (s.modStream i f).tables = s.tables ∧ (s.modStream i f).xlatReq = s.xlatReq ∧
    (s.modStream i f).fwBase = s.fwBase ∧ (s.modStream i f).win = s.win ∧ (s.modStream i f).held = s.held ∧
    (s.modStream i f).cores = s.cores ∧ (s.modStream i f).disps = s.disps ∧ (s.modStream i f).nextUid = s.nextUid ∧
    (s.modStream i f).rings = s.rings ∧ (s.modStream i f).events = s.events ∧ (s.modStream i f).mwSince = s.mwSince ∧
    (s.modStream i f).mwBroken = s.mwBroken ∧ (s.modStream i f).chain = s.chain ∧
    (s.modStream i f).reloading = s.reloading ∧ (s.modStream i f).nqs = s.nqs ∧ (s.modStream i f).sqs = s.sqs ∧
    (s.modStream i f).wcs = s.wcs ∧ (s.modStream i f).spr = s.spr ∧ (s.modStream i f).links = s.links ∧
    (s.modStream i f).runOut = s.runOut ∧ (s.modStream i f).localPath = s.localPath ∧
    (s.modStream i f).recs = s.recs ∧ (s.modStream i f).colls = s.colls ∧ (s.modStream i f).early = s.early ∧
    (s.modStream i f).bars = s.bars ∧ (s.modStream i f).gateSent = s.gateSent ∧
    (s.modStream i f).floodsSeen = s.floodsSeen ∧ (s.modStream i f).vetoesSeen = s.vetoesSeen ∧
    (s.modStream i f).nextVeto = s.nextVeto ∧ (s.modStream i f).floodOut = s.floodOut ∧
    (s.modStream i f).floodSerial = s.floodSerial ∧ (s.modStream i f).rrSeq = s.rrSeq ∧
    (s.modStream i f).rrGroups = s.rrGroups ∧ (s.modStream i f).rrQueue = s.rrQueue ∧
    (s.modStream i f).rrLost = s.rrLost ∧ (s.modStream i f).quietSince = s.quietSince ∧
    (s.modStream i f).manifest = s.manifest ∧ (s.modStream i f).verified = s.verified ∧
    (s.modStream i f).wiping = s.wiping ∧ (s.modStream i f).dbg = s.dbg ∧ (s.modStream i f).assay = s.assay ∧
    (s.modStream i f).rgl = s.rgl ∧ (s.modStream i f).boot = s.boot ∧ (s.modStream i f).bt = s.bt ∧
    (s.modStream i f).replay = s.replay ∧ (s.modStream i f).beat = s.beat ∧ (s.modStream i f).drift = s.drift ∧
    (s.modStream i f).ctr = s.ctr ∧ (s.modStream i f).ctrT = s.ctrT ∧ (s.modStream i f).ringDrops = s.ringDrops ∧
    (s.modStream i f).free = s.free :=
  by simp only [State.modStream, and_self]

@[simp] theorem modDisp_frame (s : State) (d : Nat) (f : Disp → Disp) :
    (s.modDisp d f).pending = s.pending ∧ (s.modDisp d f).regs = s.regs ∧ (s.modDisp d f).posted = s.posted ∧
    (s.modDisp d f).rdata = s.rdata ∧ (s.modDisp d f).denyArmed = s.denyArmed ∧
    (s.modDisp d f).parityBad = s.parityBad ∧ (s.modDisp d f).parityDirty = s.parityDirty ∧
    (s.modDisp d f).mem = s.mem ∧ (s.modDisp d f).poison = s.poison ∧ (s.modDisp d f).errs = s.errs ∧
    (s.modDisp d f).retired = s.retired ∧ (s.modDisp d f).scrubbed = s.scrubbed ∧ (s.modDisp d f).xlat = s.xlat ∧
    (s.modDisp d f).tables = s.tables ∧ (s.modDisp d f).xlatReq = s.xlatReq ∧ (s.modDisp d f).fwBase = s.fwBase ∧
    (s.modDisp d f).win = s.win ∧ (s.modDisp d f).held = s.held ∧ (s.modDisp d f).cores = s.cores ∧
    (s.modDisp d f).nextUid = s.nextUid ∧ (s.modDisp d f).rings = s.rings ∧ (s.modDisp d f).events = s.events ∧
    (s.modDisp d f).mwSince = s.mwSince ∧ (s.modDisp d f).mwBroken = s.mwBroken ∧ (s.modDisp d f).chain = s.chain ∧
    (s.modDisp d f).streams = s.streams ∧ (s.modDisp d f).reloading = s.reloading ∧ (s.modDisp d f).nqs = s.nqs ∧
    (s.modDisp d f).sqs = s.sqs ∧ (s.modDisp d f).wcs = s.wcs ∧ (s.modDisp d f).spr = s.spr ∧
    (s.modDisp d f).links = s.links ∧ (s.modDisp d f).runOut = s.runOut ∧ (s.modDisp d f).localPath = s.localPath ∧
    (s.modDisp d f).recs = s.recs ∧ (s.modDisp d f).colls = s.colls ∧ (s.modDisp d f).early = s.early ∧
    (s.modDisp d f).bars = s.bars ∧ (s.modDisp d f).gateSent = s.gateSent ∧
    (s.modDisp d f).floodsSeen = s.floodsSeen ∧ (s.modDisp d f).vetoesSeen = s.vetoesSeen ∧
    (s.modDisp d f).nextVeto = s.nextVeto ∧ (s.modDisp d f).floodOut = s.floodOut ∧
    (s.modDisp d f).floodSerial = s.floodSerial ∧ (s.modDisp d f).rrSeq = s.rrSeq ∧
    (s.modDisp d f).rrGroups = s.rrGroups ∧ (s.modDisp d f).rrQueue = s.rrQueue ∧ (s.modDisp d f).rrLost = s.rrLost ∧
    (s.modDisp d f).quietSince = s.quietSince ∧ (s.modDisp d f).manifest = s.manifest ∧
    (s.modDisp d f).verified = s.verified ∧ (s.modDisp d f).wiping = s.wiping ∧ (s.modDisp d f).dbg = s.dbg ∧
    (s.modDisp d f).assay = s.assay ∧ (s.modDisp d f).rgl = s.rgl ∧ (s.modDisp d f).boot = s.boot ∧
    (s.modDisp d f).bt = s.bt ∧ (s.modDisp d f).replay = s.replay ∧ (s.modDisp d f).beat = s.beat ∧
    (s.modDisp d f).drift = s.drift ∧ (s.modDisp d f).ctr = s.ctr ∧ (s.modDisp d f).ctrT = s.ctrT ∧
    (s.modDisp d f).ringDrops = s.ringDrops ∧ (s.modDisp d f).free = s.free :=
  by simp only [State.modDisp, and_self]

@[simp] theorem modRing_frame (s : State) (r : Nat) (f : Ring → Ring) :
    (s.modRing r f).pending = s.pending ∧ (s.modRing r f).regs = s.regs ∧ (s.modRing r f).posted = s.posted ∧
    (s.modRing r f).rdata = s.rdata ∧ (s.modRing r f).denyArmed = s.denyArmed ∧
    (s.modRing r f).parityBad = s.parityBad ∧ (s.modRing r f).parityDirty = s.parityDirty ∧
    (s.modRing r f).mem = s.mem ∧ (s.modRing r f).poison = s.poison ∧ (s.modRing r f).errs = s.errs ∧
    (s.modRing r f).retired = s.retired ∧ (s.modRing r f).scrubbed = s.scrubbed ∧ (s.modRing r f).xlat = s.xlat ∧
    (s.modRing r f).tables = s.tables ∧ (s.modRing r f).xlatReq = s.xlatReq ∧ (s.modRing r f).fwBase = s.fwBase ∧
    (s.modRing r f).win = s.win ∧ (s.modRing r f).held = s.held ∧ (s.modRing r f).cores = s.cores ∧
    (s.modRing r f).disps = s.disps ∧ (s.modRing r f).nextUid = s.nextUid ∧ (s.modRing r f).events = s.events ∧
    (s.modRing r f).mwSince = s.mwSince ∧ (s.modRing r f).mwBroken = s.mwBroken ∧ (s.modRing r f).chain = s.chain ∧
    (s.modRing r f).streams = s.streams ∧ (s.modRing r f).reloading = s.reloading ∧ (s.modRing r f).nqs = s.nqs ∧
    (s.modRing r f).sqs = s.sqs ∧ (s.modRing r f).wcs = s.wcs ∧ (s.modRing r f).spr = s.spr ∧
    (s.modRing r f).links = s.links ∧ (s.modRing r f).runOut = s.runOut ∧ (s.modRing r f).localPath = s.localPath ∧
    (s.modRing r f).recs = s.recs ∧ (s.modRing r f).colls = s.colls ∧ (s.modRing r f).early = s.early ∧
    (s.modRing r f).bars = s.bars ∧ (s.modRing r f).gateSent = s.gateSent ∧
    (s.modRing r f).floodsSeen = s.floodsSeen ∧ (s.modRing r f).vetoesSeen = s.vetoesSeen ∧
    (s.modRing r f).nextVeto = s.nextVeto ∧ (s.modRing r f).floodOut = s.floodOut ∧
    (s.modRing r f).floodSerial = s.floodSerial ∧ (s.modRing r f).rrSeq = s.rrSeq ∧
    (s.modRing r f).rrGroups = s.rrGroups ∧ (s.modRing r f).rrQueue = s.rrQueue ∧ (s.modRing r f).rrLost = s.rrLost ∧
    (s.modRing r f).quietSince = s.quietSince ∧ (s.modRing r f).manifest = s.manifest ∧
    (s.modRing r f).verified = s.verified ∧ (s.modRing r f).wiping = s.wiping ∧ (s.modRing r f).dbg = s.dbg ∧
    (s.modRing r f).assay = s.assay ∧ (s.modRing r f).rgl = s.rgl ∧ (s.modRing r f).boot = s.boot ∧
    (s.modRing r f).bt = s.bt ∧ (s.modRing r f).replay = s.replay ∧ (s.modRing r f).beat = s.beat ∧
    (s.modRing r f).drift = s.drift ∧ (s.modRing r f).ctr = s.ctr ∧ (s.modRing r f).ctrT = s.ctrT ∧
    (s.modRing r f).ringDrops = s.ringDrops ∧ (s.modRing r f).free = s.free :=
  by simp only [State.modRing, and_self]

@[simp] theorem modLink_frame (s : State) (l : Nat) (f : Link → Link) :
    (s.modLink l f).pending = s.pending ∧ (s.modLink l f).regs = s.regs ∧ (s.modLink l f).posted = s.posted ∧
    (s.modLink l f).rdata = s.rdata ∧ (s.modLink l f).denyArmed = s.denyArmed ∧
    (s.modLink l f).parityBad = s.parityBad ∧ (s.modLink l f).parityDirty = s.parityDirty ∧
    (s.modLink l f).mem = s.mem ∧ (s.modLink l f).poison = s.poison ∧ (s.modLink l f).errs = s.errs ∧
    (s.modLink l f).retired = s.retired ∧ (s.modLink l f).scrubbed = s.scrubbed ∧ (s.modLink l f).xlat = s.xlat ∧
    (s.modLink l f).tables = s.tables ∧ (s.modLink l f).xlatReq = s.xlatReq ∧ (s.modLink l f).fwBase = s.fwBase ∧
    (s.modLink l f).win = s.win ∧ (s.modLink l f).held = s.held ∧ (s.modLink l f).cores = s.cores ∧
    (s.modLink l f).disps = s.disps ∧ (s.modLink l f).nextUid = s.nextUid ∧ (s.modLink l f).rings = s.rings ∧
    (s.modLink l f).events = s.events ∧ (s.modLink l f).mwSince = s.mwSince ∧ (s.modLink l f).mwBroken = s.mwBroken ∧
    (s.modLink l f).chain = s.chain ∧ (s.modLink l f).streams = s.streams ∧ (s.modLink l f).reloading = s.reloading ∧
    (s.modLink l f).nqs = s.nqs ∧ (s.modLink l f).sqs = s.sqs ∧ (s.modLink l f).wcs = s.wcs ∧
    (s.modLink l f).spr = s.spr ∧ (s.modLink l f).runOut = s.runOut ∧ (s.modLink l f).localPath = s.localPath ∧
    (s.modLink l f).recs = s.recs ∧ (s.modLink l f).colls = s.colls ∧ (s.modLink l f).early = s.early ∧
    (s.modLink l f).bars = s.bars ∧ (s.modLink l f).gateSent = s.gateSent ∧
    (s.modLink l f).floodsSeen = s.floodsSeen ∧ (s.modLink l f).vetoesSeen = s.vetoesSeen ∧
    (s.modLink l f).nextVeto = s.nextVeto ∧ (s.modLink l f).floodOut = s.floodOut ∧
    (s.modLink l f).floodSerial = s.floodSerial ∧ (s.modLink l f).rrSeq = s.rrSeq ∧
    (s.modLink l f).rrGroups = s.rrGroups ∧ (s.modLink l f).rrQueue = s.rrQueue ∧ (s.modLink l f).rrLost = s.rrLost ∧
    (s.modLink l f).quietSince = s.quietSince ∧ (s.modLink l f).manifest = s.manifest ∧
    (s.modLink l f).verified = s.verified ∧ (s.modLink l f).wiping = s.wiping ∧ (s.modLink l f).dbg = s.dbg ∧
    (s.modLink l f).assay = s.assay ∧ (s.modLink l f).rgl = s.rgl ∧ (s.modLink l f).boot = s.boot ∧
    (s.modLink l f).bt = s.bt ∧ (s.modLink l f).replay = s.replay ∧ (s.modLink l f).beat = s.beat ∧
    (s.modLink l f).drift = s.drift ∧ (s.modLink l f).ctr = s.ctr ∧ (s.modLink l f).ctrT = s.ctrT ∧
    (s.modLink l f).ringDrops = s.ringDrops ∧ (s.modLink l f).free = s.free :=
  by simp only [State.modLink, and_self]

@[simp] theorem setByte_frame (s : State) (k : Nat) (b : Byte) :
    (s.setByte k b).pending = s.pending ∧ (s.setByte k b).regs = s.regs ∧ (s.setByte k b).posted = s.posted ∧
    (s.setByte k b).rdata = s.rdata ∧ (s.setByte k b).denyArmed = s.denyArmed ∧
    (s.setByte k b).parityBad = s.parityBad ∧ (s.setByte k b).parityDirty = s.parityDirty ∧
    (s.setByte k b).poison = s.poison ∧ (s.setByte k b).errs = s.errs ∧ (s.setByte k b).retired = s.retired ∧
    (s.setByte k b).scrubbed = s.scrubbed ∧ (s.setByte k b).xlat = s.xlat ∧ (s.setByte k b).tables = s.tables ∧
    (s.setByte k b).xlatReq = s.xlatReq ∧ (s.setByte k b).fwBase = s.fwBase ∧ (s.setByte k b).win = s.win ∧
    (s.setByte k b).held = s.held ∧ (s.setByte k b).cores = s.cores ∧ (s.setByte k b).disps = s.disps ∧
    (s.setByte k b).nextUid = s.nextUid ∧ (s.setByte k b).rings = s.rings ∧ (s.setByte k b).events = s.events ∧
    (s.setByte k b).mwSince = s.mwSince ∧ (s.setByte k b).mwBroken = s.mwBroken ∧ (s.setByte k b).chain = s.chain ∧
    (s.setByte k b).streams = s.streams ∧ (s.setByte k b).reloading = s.reloading ∧ (s.setByte k b).nqs = s.nqs ∧
    (s.setByte k b).sqs = s.sqs ∧ (s.setByte k b).wcs = s.wcs ∧ (s.setByte k b).spr = s.spr ∧
    (s.setByte k b).links = s.links ∧ (s.setByte k b).runOut = s.runOut ∧ (s.setByte k b).localPath = s.localPath ∧
    (s.setByte k b).recs = s.recs ∧ (s.setByte k b).colls = s.colls ∧ (s.setByte k b).early = s.early ∧
    (s.setByte k b).bars = s.bars ∧ (s.setByte k b).gateSent = s.gateSent ∧
    (s.setByte k b).floodsSeen = s.floodsSeen ∧ (s.setByte k b).vetoesSeen = s.vetoesSeen ∧
    (s.setByte k b).nextVeto = s.nextVeto ∧ (s.setByte k b).floodOut = s.floodOut ∧
    (s.setByte k b).floodSerial = s.floodSerial ∧ (s.setByte k b).rrSeq = s.rrSeq ∧
    (s.setByte k b).rrGroups = s.rrGroups ∧ (s.setByte k b).rrQueue = s.rrQueue ∧ (s.setByte k b).rrLost = s.rrLost ∧
    (s.setByte k b).quietSince = s.quietSince ∧ (s.setByte k b).manifest = s.manifest ∧
    (s.setByte k b).verified = s.verified ∧ (s.setByte k b).wiping = s.wiping ∧ (s.setByte k b).dbg = s.dbg ∧
    (s.setByte k b).assay = s.assay ∧ (s.setByte k b).rgl = s.rgl ∧ (s.setByte k b).boot = s.boot ∧
    (s.setByte k b).bt = s.bt ∧ (s.setByte k b).replay = s.replay ∧ (s.setByte k b).beat = s.beat ∧
    (s.setByte k b).drift = s.drift ∧ (s.setByte k b).ctr = s.ctr ∧ (s.setByte k b).ctrT = s.ctrT ∧
    (s.setByte k b).ringDrops = s.ringDrops ∧ (s.setByte k b).free = s.free :=
  by simp only [State.setByte, and_self]

@[simp] theorem setPoison_frame (s : State) (k : Nat) (b : Bool) :
    (s.setPoison k b).pending = s.pending ∧ (s.setPoison k b).regs = s.regs ∧ (s.setPoison k b).posted = s.posted ∧
    (s.setPoison k b).rdata = s.rdata ∧ (s.setPoison k b).denyArmed = s.denyArmed ∧
    (s.setPoison k b).parityBad = s.parityBad ∧ (s.setPoison k b).parityDirty = s.parityDirty ∧
    (s.setPoison k b).mem = s.mem ∧ (s.setPoison k b).retired = s.retired ∧ (s.setPoison k b).scrubbed = s.scrubbed ∧
    (s.setPoison k b).xlat = s.xlat ∧ (s.setPoison k b).tables = s.tables ∧ (s.setPoison k b).xlatReq = s.xlatReq ∧
    (s.setPoison k b).fwBase = s.fwBase ∧ (s.setPoison k b).win = s.win ∧ (s.setPoison k b).held = s.held ∧
    (s.setPoison k b).cores = s.cores ∧ (s.setPoison k b).disps = s.disps ∧ (s.setPoison k b).nextUid = s.nextUid ∧
    (s.setPoison k b).rings = s.rings ∧ (s.setPoison k b).events = s.events ∧ (s.setPoison k b).mwSince = s.mwSince ∧
    (s.setPoison k b).mwBroken = s.mwBroken ∧ (s.setPoison k b).chain = s.chain ∧
    (s.setPoison k b).streams = s.streams ∧ (s.setPoison k b).reloading = s.reloading ∧
    (s.setPoison k b).nqs = s.nqs ∧ (s.setPoison k b).sqs = s.sqs ∧ (s.setPoison k b).wcs = s.wcs ∧
    (s.setPoison k b).spr = s.spr ∧ (s.setPoison k b).links = s.links ∧ (s.setPoison k b).runOut = s.runOut ∧
    (s.setPoison k b).localPath = s.localPath ∧ (s.setPoison k b).recs = s.recs ∧ (s.setPoison k b).colls = s.colls ∧
    (s.setPoison k b).early = s.early ∧ (s.setPoison k b).bars = s.bars ∧ (s.setPoison k b).gateSent = s.gateSent ∧
    (s.setPoison k b).floodsSeen = s.floodsSeen ∧ (s.setPoison k b).vetoesSeen = s.vetoesSeen ∧
    (s.setPoison k b).nextVeto = s.nextVeto ∧ (s.setPoison k b).floodOut = s.floodOut ∧
    (s.setPoison k b).floodSerial = s.floodSerial ∧ (s.setPoison k b).rrSeq = s.rrSeq ∧
    (s.setPoison k b).rrGroups = s.rrGroups ∧ (s.setPoison k b).rrQueue = s.rrQueue ∧
    (s.setPoison k b).rrLost = s.rrLost ∧ (s.setPoison k b).quietSince = s.quietSince ∧
    (s.setPoison k b).manifest = s.manifest ∧ (s.setPoison k b).verified = s.verified ∧
    (s.setPoison k b).wiping = s.wiping ∧ (s.setPoison k b).dbg = s.dbg ∧ (s.setPoison k b).assay = s.assay ∧
    (s.setPoison k b).rgl = s.rgl ∧ (s.setPoison k b).boot = s.boot ∧ (s.setPoison k b).bt = s.bt ∧
    (s.setPoison k b).replay = s.replay ∧ (s.setPoison k b).beat = s.beat ∧ (s.setPoison k b).drift = s.drift ∧
    (s.setPoison k b).ctr = s.ctr ∧ (s.setPoison k b).ctrT = s.ctrT ∧ (s.setPoison k b).ringDrops = s.ringDrops ∧
    (s.setPoison k b).free = s.free :=
  by simp only [State.setPoison, and_self]

@[simp] theorem retiring_frame (s : State) (c n : Nat) (k : Core) :
    (s.retiring c n k).pending = s.pending ∧ (s.retiring c n k).regs = s.regs ∧
    (s.retiring c n k).posted = s.posted ∧ (s.retiring c n k).rdata = s.rdata ∧
    (s.retiring c n k).denyArmed = s.denyArmed ∧ (s.retiring c n k).parityBad = s.parityBad ∧
    (s.retiring c n k).parityDirty = s.parityDirty ∧ (s.retiring c n k).mem = s.mem ∧
    (s.retiring c n k).poison = s.poison ∧ (s.retiring c n k).errs = s.errs ∧
    (s.retiring c n k).retired = s.retired ∧ (s.retiring c n k).scrubbed = s.scrubbed ∧
    (s.retiring c n k).xlat = s.xlat ∧ (s.retiring c n k).tables = s.tables ∧
    (s.retiring c n k).xlatReq = s.xlatReq ∧ (s.retiring c n k).fwBase = s.fwBase ∧ (s.retiring c n k).win = s.win ∧
    (s.retiring c n k).held = s.held ∧ (s.retiring c n k).disps = s.disps ∧ (s.retiring c n k).nextUid = s.nextUid ∧
    (s.retiring c n k).rings = s.rings ∧ (s.retiring c n k).events = s.events ∧
    (s.retiring c n k).mwSince = s.mwSince ∧ (s.retiring c n k).mwBroken = s.mwBroken ∧
    (s.retiring c n k).chain = s.chain ∧ (s.retiring c n k).streams = s.streams ∧
    (s.retiring c n k).reloading = s.reloading ∧ (s.retiring c n k).nqs = s.nqs ∧ (s.retiring c n k).sqs = s.sqs ∧
    (s.retiring c n k).wcs = s.wcs ∧ (s.retiring c n k).spr = s.spr ∧ (s.retiring c n k).links = s.links ∧
    (s.retiring c n k).runOut = s.runOut ∧ (s.retiring c n k).localPath = s.localPath ∧
    (s.retiring c n k).recs = s.recs ∧ (s.retiring c n k).colls = s.colls ∧ (s.retiring c n k).early = s.early ∧
    (s.retiring c n k).bars = s.bars ∧ (s.retiring c n k).gateSent = s.gateSent ∧
    (s.retiring c n k).floodsSeen = s.floodsSeen ∧ (s.retiring c n k).vetoesSeen = s.vetoesSeen ∧
    (s.retiring c n k).nextVeto = s.nextVeto ∧ (s.retiring c n k).floodOut = s.floodOut ∧
    (s.retiring c n k).floodSerial = s.floodSerial ∧ (s.retiring c n k).rrSeq = s.rrSeq ∧
    (s.retiring c n k).rrGroups = s.rrGroups ∧ (s.retiring c n k).rrQueue = s.rrQueue ∧
    (s.retiring c n k).rrLost = s.rrLost ∧ (s.retiring c n k).quietSince = s.quietSince ∧
    (s.retiring c n k).manifest = s.manifest ∧ (s.retiring c n k).verified = s.verified ∧
    (s.retiring c n k).wiping = s.wiping ∧ (s.retiring c n k).assay = s.assay ∧ (s.retiring c n k).rgl = s.rgl ∧
    (s.retiring c n k).boot = s.boot ∧ (s.retiring c n k).bt = s.bt ∧ (s.retiring c n k).replay = s.replay ∧
    (s.retiring c n k).beat = s.beat ∧ (s.retiring c n k).drift = s.drift ∧ (s.retiring c n k).ctr = s.ctr ∧
    (s.retiring c n k).ctrT = s.ctrT ∧ (s.retiring c n k).ringDrops = s.ringDrops ∧ (s.retiring c n k).free = s.free :=
  by simp only [State.retiring, and_self]

@[simp] theorem stepTaken_frame (c : Nat) (s : State) :
    (stepTaken c s).pending = s.pending ∧ (stepTaken c s).regs = s.regs ∧ (stepTaken c s).posted = s.posted ∧
    (stepTaken c s).rdata = s.rdata ∧ (stepTaken c s).denyArmed = s.denyArmed ∧
    (stepTaken c s).parityBad = s.parityBad ∧ (stepTaken c s).parityDirty = s.parityDirty ∧
    (stepTaken c s).mem = s.mem ∧ (stepTaken c s).poison = s.poison ∧ (stepTaken c s).errs = s.errs ∧
    (stepTaken c s).retired = s.retired ∧ (stepTaken c s).scrubbed = s.scrubbed ∧ (stepTaken c s).xlat = s.xlat ∧
    (stepTaken c s).tables = s.tables ∧ (stepTaken c s).xlatReq = s.xlatReq ∧ (stepTaken c s).fwBase = s.fwBase ∧
    (stepTaken c s).win = s.win ∧ (stepTaken c s).held = s.held ∧ (stepTaken c s).cores = s.cores ∧
    (stepTaken c s).disps = s.disps ∧ (stepTaken c s).nextUid = s.nextUid ∧ (stepTaken c s).rings = s.rings ∧
    (stepTaken c s).events = s.events ∧ (stepTaken c s).mwSince = s.mwSince ∧ (stepTaken c s).mwBroken = s.mwBroken ∧
    (stepTaken c s).chain = s.chain ∧ (stepTaken c s).streams = s.streams ∧ (stepTaken c s).reloading = s.reloading ∧
    (stepTaken c s).nqs = s.nqs ∧ (stepTaken c s).sqs = s.sqs ∧ (stepTaken c s).wcs = s.wcs ∧
    (stepTaken c s).spr = s.spr ∧ (stepTaken c s).links = s.links ∧ (stepTaken c s).runOut = s.runOut ∧
    (stepTaken c s).localPath = s.localPath ∧ (stepTaken c s).recs = s.recs ∧ (stepTaken c s).colls = s.colls ∧
    (stepTaken c s).early = s.early ∧ (stepTaken c s).bars = s.bars ∧ (stepTaken c s).gateSent = s.gateSent ∧
    (stepTaken c s).floodsSeen = s.floodsSeen ∧ (stepTaken c s).vetoesSeen = s.vetoesSeen ∧
    (stepTaken c s).nextVeto = s.nextVeto ∧ (stepTaken c s).floodOut = s.floodOut ∧
    (stepTaken c s).floodSerial = s.floodSerial ∧ (stepTaken c s).rrSeq = s.rrSeq ∧
    (stepTaken c s).rrGroups = s.rrGroups ∧ (stepTaken c s).rrQueue = s.rrQueue ∧ (stepTaken c s).rrLost = s.rrLost ∧
    (stepTaken c s).quietSince = s.quietSince ∧ (stepTaken c s).manifest = s.manifest ∧
    (stepTaken c s).verified = s.verified ∧ (stepTaken c s).wiping = s.wiping ∧ (stepTaken c s).assay = s.assay ∧
    (stepTaken c s).rgl = s.rgl ∧ (stepTaken c s).boot = s.boot ∧ (stepTaken c s).bt = s.bt ∧
    (stepTaken c s).replay = s.replay ∧ (stepTaken c s).beat = s.beat ∧ (stepTaken c s).drift = s.drift ∧
    (stepTaken c s).ctr = s.ctr ∧ (stepTaken c s).ctrT = s.ctrT ∧ (stepTaken c s).ringDrops = s.ringDrops ∧
    (stepTaken c s).free = s.free :=
  by simp only [stepTaken, and_self]

/-! ## Reads of what was written -/

@[simp] theorem reg_setReg_self (s : State) (o : Nat) (v : W32) : (s.setReg o v).reg o = v := by
  simp [State.reg, State.setReg]
@[simp] theorem reg_setReg_ne (s : State) {o p : Nat} (v : W32) (h : p ≠ o) : (s.setReg o v).reg p = s.reg p := by
  simp only [State.reg, State.setReg]
  unfold Tab.set Tab.get
  split
  · simp [Tab.find?_erase_ne h]
  · simp [Tab.find?_insert_ne h]
@[simp] theorem core_setCore_self (s : State) (c : Nat) (k : Core) : (s.setCore c k).core c = k := by
  simp [State.core, State.setCore]
@[simp] theorem core_setCore_ne (s : State) {c d : Nat} (k : Core) (h : d ≠ c) : (s.setCore c k).core d = s.core d := by
  simp [State.core, State.setCore, h]
@[simp] theorem core_modCore_self (s : State) (c : Nat) (f : Core → Core) : (s.modCore c f).core c = f (s.core c) := by
  simp [State.modCore]
@[simp] theorem core_modCore_ne (s : State) {c d : Nat} (f : Core → Core) (h : d ≠ c) :
    (s.modCore c f).core d = s.core d := by
  simp [State.modCore, h]
@[simp] theorem nq_modNq_self (s : State) (q : Nat) (f : NQueue → NQueue) : (s.modNq q f).nq q = f (s.nq q) := by
  simp [State.nq, State.modNq]
@[simp] theorem nq_modNq_ne (s : State) {q p : Nat} (f : NQueue → NQueue) (h : p ≠ q) : (s.modNq q f).nq p = s.nq p := by
  simp [State.nq, State.modNq, h]
@[simp] theorem sq_modSq_self (s : State) (q : Nat) (f : SQueue → SQueue) : (s.modSq q f).sq q = f (s.sq q) := by
  simp [State.sq, State.modSq]
@[simp] theorem wc_modWc_self (s : State) (n : Nat) (f : WCounter → WCounter) : (s.modWc n f).wc n = f (s.wc n) := by
  simp [State.wc, State.modWc]
@[simp] theorem ring_modRing_self (s : State) (r : Nat) (f : Ring → Ring) : (s.modRing r f).ring r = f (s.ring r) := by
  simp [State.ring, State.modRing]
@[simp] theorem ring_modRing_ne (s : State) {r q : Nat} (f : Ring → Ring) (h : q ≠ r) :
    (s.modRing r f).ring q = s.ring q := by
  simp [State.ring, State.modRing, h]
@[simp] theorem link_modLink_self (s : State) (l : Nat) (f : Link → Link) : (s.modLink l f).link l = f (s.link l) := by
  simp [State.link, State.modLink]
@[simp] theorem stream_modStream_self (s : State) (i : Nat) (f : Stream → Stream) :
    (s.modStream i f).stream i = f (s.stream i) := by
  simp [State.stream, State.modStream]
@[simp] theorem disp_modDisp_self (s : State) (d : Nat) (f : Disp → Disp) : (s.modDisp d f).disp d = f (s.disp d) := by
  simp [State.disp, State.modDisp]
@[simp] theorem byte_setByte_self (s : State) (k : Nat) (b : Byte) : (s.setByte k b).byte k = b := by
  simp [State.byte, State.setByte]
@[simp] theorem byte_setByte_ne (s : State) {k j : Nat} (b : Byte) (h : j ≠ k) : (s.setByte k b).byte j = s.byte j := by
  simp [State.byte, State.setByte, h]

/-- Writing a byte keeps the memory canonical. -/
theorem wf_setByte {s : State} {k : Nat} {b : Byte} (h : Memory.wf s) : Memory.wf (s.setByte k b) := Tab.wf_set h

end Sys2Proof.Machine
end

