-- ==== Sys2Proof/Laws/Ops.lean ====
section
/-! SUPPORT. What each shared operation can change, said once: `<operation>_touches` names the only fields of the state it
can write, and `<operation>_frame` follows from it for every other field. -/

namespace Sys2Proof.Machine

/-- An iteration keeps whatever each of its steps keeps. -/
theorem forEach_keeps {α : Type} (P : State → Prop) {f : α → State → State} (h : ∀ x s, P s → P (f x s)) :
    ∀ (l : List α) (s : State), P s → P (forEach f l s) := by
  intro l
  induction l with
  | nil => intro s hs; exact hs
  | cons x l ih => intro s hs; exact ih _ (h x s hs)

theorem sprPut_touches (m : SprMsg) (s : State) : ∃ c p, State.sprPut m s = { s with ctr := c, spr := p } := by
  unfold State.sprPut
  simp only [State.count]
  split <;> exact ⟨_, _, rfl⟩

theorem sprDrainGo_touches (l : List SprMsg) : ∀ (late : List Nat) (s : State),
    ∃ c p, State.sprDrainGo late l s = { s with ctr := c, spr := p } := by
  induction l with
  | nil => exact fun _ s => ⟨s.ctr, s.spr, rfl⟩
  | cons m t ih =>
    intro late s
    unfold State.sprDrainGo
    split
    · obtain ⟨c, p, h⟩ := ih (State.sprClass m.opc :: late) { s with spr := { s.spr with queued := s.spr.queued ++ [m] } }
      exact ⟨c, p, h⟩
    · obtain ⟨c, p, h⟩ := sprPut_touches m s
      obtain ⟨c', p', h'⟩ := ih late (State.sprPut m s)
      exact ⟨c', p', by rw [h', h]⟩

theorem sprDrain_touches (s : State) : ∃ c p, s.sprDrain = { s with ctr := c, spr := p } := by
  obtain ⟨c, p, h⟩ := sprDrainGo_touches s.spr.queued [] { s with spr := { s.spr with queued := [] } }
  exact ⟨c, p, h⟩

theorem sprSend_touches (m : SprMsg) (s : State) : ∃ c p, s.sprSend m = { s with ctr := c, spr := p } := by
  unfold State.sprSend
  split
  · exact ⟨_, _, rfl⟩
  · obtain ⟨c, p, h⟩ := sprDrain_touches { s with spr := { s.spr with queued := s.spr.queued ++ [m] } }
    exact ⟨c, p, h⟩

theorem raiseInt_touches (v : Nat) (s : State) :
    ∃ r c p, raiseInt v s = { s with regs := r, ctr := c, spr := p } := by
  unfold raiseInt
  simp only
  split
  · obtain ⟨c, p, h⟩ := sprSend_touches { opc := 0x41, addr := v % 256 }
      { s with spr := { s.spr with inFlight := s.spr.inFlight ||| (1#256 <<< (v % 256)) } }
    exact ⟨_, c, p, h⟩
  · exact ⟨_, _, _, rfl⟩

theorem raiseFault_touches (n : Nat) (s : State) :
    ∃ r c p, raiseFault n s = { s with regs := r, ctr := c, spr := p } := by
  unfold raiseFault
  simp only
  split
  · obtain ⟨r, c, p, h⟩ := raiseInt_touches ((s.setFlag Reg.glbFault n).fld Reg.glbFaultCtl 7 0) (s.setFlag Reg.glbFault n)
    exact ⟨r, c, p, h⟩
  · exact ⟨_, _, _, rfl⟩

theorem traceEnter_touches (i die type source body : Nat) (s : State) :
    ∃ r t, traceEnter i die type source body s = { s with regs := r, streams := t } := by
  unfold traceEnter
  split <;> exact ⟨_, _, rfl⟩

theorem traceEmit_touches (type die source : Nat) (core : Option Nat) (body : Nat) (s : State) :
    ∃ r t, traceEmit type die source core body s = { s with regs := r, streams := t } := by
  refine forEach_keeps (fun u => ∃ r t, u = { s with regs := r, streams := t }) ?_ _ _ ⟨_, _, rfl⟩
  rintro i u ⟨r, t, rfl⟩
  split
  · obtain ⟨r', t', h⟩ := traceEnter_touches i die type source body { s with regs := r, streams := t }
    exact ⟨r', t', h⟩
  · exact ⟨_, _, rfl⟩

theorem nqLevel_touches (q : Nat) (s : State) :
    ∃ r c p, nqLevel q s = { s with regs := r, ctr := c, spr := p } := by
  unfold nqLevel
  simp only
  split
  · obtain ⟨r, c, p, h⟩ := raiseInt_touches (s.fld (Reg.nqCtl q) 31 24) (s.setFlag (Reg.nqIntStatus q) 0)
    exact ⟨r, c, p, h⟩
  · exact ⟨_, _, _, rfl⟩

theorem nqDrop_touches (q prio : Nat) (s : State) :
    ∃ r c n, nqDrop q prio s = { s with regs := r, ctr := c, nqs := n } := ⟨_, _, _, rfl⟩

theorem nqPost_touches (q source : Nat) (sw : Bool) (type prio payload : Nat) (s : State) :
    ∃ r c n p, (nqPost q source sw type prio payload s).1 = { s with regs := r, ctr := c, nqs := n, spr := p } := by
  unfold nqPost
  split
  · exact ⟨_, _, _, _, rfl⟩
  · split
    · exact ⟨_, _, _, _, rfl⟩
    · split
      · exact ⟨_, _, _, _, rfl⟩
      · split
        · exact ⟨_, _, _, _, rfl⟩
        · simp only
          generalize hu : State.modNq _ q _ = u
          obtain ⟨r, c, p, h⟩ := nqLevel_touches q u
          rw [h, ← hu]
          exact ⟨_, _, _, _, rfl⟩

/-- A post that its poster does not see writes the queue, or is held. -/
theorem postNotice_touches (q source : Nat) (sw : Bool) (type prio payload : Nat) (s : State) :
    ∃ r c n p l, postNotice q source sw type prio payload s =
      { s with regs := r, ctr := c, nqs := n, spr := p, held := l } := by
  unfold postNotice
  split
  · exact ⟨_, _, _, _, _, rfl⟩
  · obtain ⟨r, c, n, p, h⟩ := nqPost_touches q source sw type prio payload s
    exact ⟨r, c, n, p, s.held, h⟩

theorem errLog_touches (type source payload : Nat) (s : State) :
    ∃ r c n p l, errLog type source payload s = { s with regs := r, ctr := c, nqs := n, spr := p, held := l } :=
  postNotice_touches ..

end Sys2Proof.Machine
end

