-- ==== Sys2Proof/Laws/CoreMem.lean ====
section
/-! SUPPORT. Byte lists, the operand buffer, and what a load or a store of the operand buffer does. -/

namespace Sys2Proof.Machine

@[simp] theorem toBytes_length (n v : Nat) : (toBytes n v).length = n := by
  induction n generalizing v with
  | zero => rfl
  | succ n ih => simp [toBytes, ih]

theorem toBytes_get (n v j : Nat) (h : j < n) : (toBytes n v)[j]? = some (BitVec.ofNat 8 (v / 256 ^ j)) := by
  induction n generalizing v j with
  | zero => omega
  | succ n ih =>
    cases j with
    | zero => simp [toBytes]
    | succ j =>
      simp only [toBytes, List.getElem?_cons_succ]
      rw [ih _ _ (by omega)]
      rw [Nat.div_div_eq_div_mul, Nat.pow_succ, Nat.mul_comm]

theorem obWrite_ob (mask : Nat → Bool) (i a : Nat) (l : List Byte) (k : Core) :
    Core.obWrite mask i a l k = { k with ob := (Core.obWrite mask i a l k).ob } := by
  induction l generalizing i a k with
  | nil => rfl
  | cons b t ih =>
    simp only [Core.obWrite]
    rw [ih]
    split <;> rfl

theorem obWrite_get (mask : Nat → Bool) (i a : Nat) (l : List Byte) (k : Core) (j : Nat) :
    Tab.get 0 (Core.obWrite mask i a l k).ob j =
      if a ≤ j ∧ j < a + l.length ∧ mask (i + (j - a)) = true then (l[j - a]?).getD 0 else Tab.get 0 k.ob j := by
  induction l generalizing i a k with
  | nil => simp [Core.obWrite]; intro h1 h2; omega
  | cons b t ih =>
    simp only [Core.obWrite, ih, List.length_cons]
    by_cases hj : j = a
    · subst hj
      have h0 : ¬ (j + 1 ≤ j ∧ j < j + 1 + t.length ∧ mask (i + 1 + (j - (j + 1))) = true) := by omega
      rw [if_neg h0]
      by_cases hm : mask i = true <;> simp [hm, Core.setObByte]
    · by_cases h1 : a + 1 ≤ j
      · have e : j - a = (j - (a + 1)) + 1 := by omega
        have e2 : i + 1 + (j - (a + 1)) = i + (j - a) := by omega
        rw [e2]
        have : (a + 1 ≤ j ∧ j < a + 1 + t.length ∧ mask (i + (j - a)) = true) ↔ (a ≤ j ∧ j < a + (t.length + 1) ∧ mask (i + (j - a)) = true) := by
          constructor <;> (rintro ⟨x, y, z⟩; exact ⟨by omega, by omega, z⟩)
        simp only [this]
        split
        · rw [e]; simp
        · split
          · simp [Core.setObByte, Tab.get_set_ne hj]
          · rfl
      · have h2 : ¬ a ≤ j := by omega
        simp only [h1, h2, false_and, if_false]
        split
        · simp [Core.setObByte, Tab.get_set_ne hj]
        · rfl

/-- A store into the operand buffer changes its bytes and its poison. -/
theorem obStore_ob (mask bad : Nat → Bool) (a : Nat) (l : List Byte) (k : Core) :
    Core.obStore mask bad a l k = { k with ob := (Core.obWrite mask 0 a l k).ob, obPoison := (Core.obStore mask bad a l k).obPoison } := by
  unfold Core.obStore Core.obMark
  rw [obWrite_ob]

theorem obStore_get (mask bad : Nat → Bool) (a : Nat) (l : List Byte) (k : Core) (j : Nat) :
    Tab.get 0 (Core.obStore mask bad a l k).ob j =
      if a ≤ j ∧ j < a + l.length ∧ mask (j - a) = true then (l[j - a]?).getD 0 else Tab.get 0 k.ob j := by
  have := obWrite_get mask 0 a l k j
  simp only [Nat.zero_add] at this
  exact this

theorem mem_unitsOf {g a n u : Nat} (hg : 0 < g) (h1 : a ≤ g * u) (h2 : g * u + g ≤ a + n) : u * g ∈ unitsOf g a n := by
  have hn : n ≠ 0 := by omega
  unfold unitsOf
  rw [if_neg hn, List.mem_map]
  refine ⟨u, ?_, rfl⟩
  have hr : ∀ k m, upFrom k m = (List.range m).map (k + ·) := by
    intro k m
    induction m generalizing k with
    | zero => rfl
    | succ m ih =>
      simp only [upFrom, ih, List.range_succ_eq_map, List.map_cons, List.map_map, Nat.add_zero]
      congr 1
      apply List.map_congr_left
      intro j _; simp; omega
  rw [hr, List.mem_map]
  have b1 : a / g ≤ u := by
    rw [Nat.div_le_iff_le_mul_add_pred hg]
    have : g * u = u * g := Nat.mul_comm ..
    omega
  have b2 : u ≤ (a + n - 1) / g := by
    rw [Nat.le_div_iff_mul_le hg, Nat.mul_comm]
    omega
  refine ⟨u - a / g, ?_, ?_⟩
  · rw [List.mem_range]; omega
  · omega

/-- A 16-byte word of the operand buffer is poison no more once a store has written it whole with good bytes. -/
theorem obStore_poison (mask : Nat → Bool) (a : Nat) (l : List Byte) (k : Core) (u : Nat) :
    Tab.get false (Core.obStore mask (fun _ => false) a l k).obPoison u =
      if a ≤ 16 * u ∧ 16 * u + 16 ≤ a + l.length ∧ (upFrom (16 * u - a) 16).all mask = true then false
      else Tab.get false k.obPoison u := by
  let full (v : Nat) : Prop := a ≤ v ∧ v + 16 ≤ a + l.length ∧ (upFrom (v - a) 16).all mask = true
  have noBad : ∀ m : List Nat, m.any (fun i => mask i && false) = false := by intro m; simp
  have hfull : ∀ v, (decide (a ≤ v) && decide (v + 16 ≤ a + l.length) && (upFrom (v - a) 16).all mask) = true ↔ full v := by
    intro v
    simp only [Bool.and_eq_true, decide_eq_true_eq, full, and_assoc]
  have hdec : ∀ v, Decidable (full v) := fun v => by unfold full; infer_instance
  have fold : ∀ (m : List Nat) (p : Tab Bool), (∀ v ∈ m, v % 16 = 0) →
      (16 * u ∈ m → full (16 * u) → Tab.get false (m.foldl (fun (p : Tab Bool) (v : Nat) =>
        if meets (fun i => mask i && false) a l.length v then Tab.set false p (v / 16) true
        else if a ≤ v && v + 16 ≤ a + l.length && (upFrom (v - a) 16).all mask then Tab.set false p (v / 16) false
        else p) p) u = false) ∧
      (¬ (16 * u ∈ m ∧ full (16 * u)) → Tab.get false (m.foldl (fun (p : Tab Bool) (v : Nat) =>
        if meets (fun i => mask i && false) a l.length v then Tab.set false p (v / 16) true
        else if a ≤ v && v + 16 ≤ a + l.length && (upFrom (v - a) 16).all mask then Tab.set false p (v / 16) false
        else p) p) u = Tab.get false p u) := by
    intro m
    induction m with
    | nil => intro p _; exact ⟨fun h => absurd h (by simp), fun _ => rfl⟩
    | cons v m ih =>
      intro p hm
      have hv := hm v (by simp)
      simp only [List.foldl_cons, meets, noBad, Bool.false_eq_true, if_false] at ih ⊢
      generalize hp' : (if (decide (a ≤ v) && decide (v + 16 ≤ a + l.length) && (upFrom (v - a) 16).all mask) = true
        then Tab.set false p (v / 16) false else p) = p'
      obtain ⟨i1, i2⟩ := ih p' fun x hx => hm x (by simp [hx])
      have other : 16 * u ≠ v ∨ ¬ full (16 * u) → Tab.get false p' u = Tab.get false p u := by
        intro h
        rw [← hp']
        split
        · rename_i hf
          rw [hfull] at hf
          refine Tab.get_set_ne ?_
          rintro rfl
          have e : 16 * (v / 16) = v := by omega
          rw [e] at h
          rcases h with h | h
          · exact h rfl
          · exact h hf
        · rfl
      refine ⟨fun h hf => ?_, fun h => ?_⟩
      · by_cases hin : 16 * u ∈ m
        · exact i1 hin hf
        · rw [i2 (fun x => hin x.1), ← hp']
          have hu : 16 * u = v := by simpa [hin] using h
          subst hu
          rw [if_pos ((hfull _).2 hf), show 16 * u / 16 = u by omega, Tab.get_set_self]
      · rw [i2 (fun x => h ⟨by simp [x.1], x.2⟩)]
        refine other ?_
        by_cases hu : 16 * u = v
        · exact Or.inr fun hf => h ⟨by simp [hu], hf⟩
        · exact Or.inl hu
  have hmem : ∀ v ∈ unitsOf 16 a l.length, v % 16 = 0 := by
    intro v hv
    unfold unitsOf at hv
    split at hv
    · simp at hv
    · simp only [List.mem_map] at hv
      obtain ⟨x, -, rfl⟩ := hv
      omega
  obtain ⟨k1, k2⟩ := fold (unitsOf 16 a l.length) k.obPoison hmem
  have e0 : (Core.obWrite mask 0 a l k).obPoison = k.obPoison := by rw [obWrite_ob]
  unfold Core.obStore Core.obMark
  simp only [e0]
  split
  · rename_i hf
    refine k1 ?_ hf
    have := mem_unitsOf (g := 16) (u := u) (by omega) hf.1 hf.2.1
    rwa [Nat.mul_comm] at this
  · rename_i hf
    exact k2 fun h => hf h.2

theorem coreLoad_ob {s : State} {c w n : Nat} {a : W64} {use : List Byte → State → State} (hob : Iw.ob w = true)
    (h1 : a.toNat + n ≤ 0x100000) (h2 : (s.core c).readBlocked [⟨a.toNat, n⟩] = false)
    (h3 : (s.core c).obPoisoned a.toNat n = false) : coreLoad c w a n use s = use ((s.core c).obRead a.toNat n) s := by
  unfold coreLoad
  simp [hob, h2, h3]
  omega

theorem coreStore_ob {s : State} {c w : Nat} {a : W64} {mask : Nat → Bool} {data : List Byte} {fin : State → State} (hob : Iw.ob w = true)
    (h1 : a.toNat + data.length ≤ 0x100000) (h2 : (s.core c).writeBlocked [⟨a.toNat, data.length⟩] = false) :
    coreStore c w a mask data fin s = fin (s.modCore c (Core.obStore mask (fun _ => false) a.toNat data)) := by
  have h0 : ¬ 0x100000 < a.toNat + data.length := by omega
  unfold coreStore
  simp only [hob, h0, h2, if_true, if_false]
  rfl

theorem ob_store {s : State} {c : Nat} {op : CoreOp} {w e : W64} (h : Issues s c op w e) (mask : Nat → Bool) (a : Nat)
    (l : List Byte) : finish c 8 id ((stepTaken c s).modCore c (Core.obStore mask (fun _ => false) a l)) =
      s.retiring c 8 (Core.obStore mask (fun _ => false) a l (s.core c)) := by
  change finish c 8 id (stepTaken c (s.modCore c (Core.obStore mask (fun _ => false) a l))) = _
  rw [State.modCore, obStore_ob]
  exact setCore_retiring id h.running h.free

theorem pieces_one {va n : Nat} (h0 : n ≠ 0) (h : va % 2 ^ 21 + n ≤ 2 ^ 21) : pieces va n = [(va, n)] := by
  unfold pieces
  have : n / 2 ^ 21 + 2 = (n / 2 ^ 21 + 1) + 1 := rfl
  rw [this, pagePieces]
  simp only [h0, if_false]
  rw [if_pos (by omega)]

theorem countLines_eq (a n : Nat) (s : State) : countLines a n s = { s with ctr := (countLines a n s).ctr } := by
  unfold countLines
  refine forEach_keeps (fun t => t = { s with ctr := t.ctr }) ?_ _ _ rfl
  intro x t ht
  rw [ht]; rfl

theorem translates_one {s : State} {nd : Need} {va n : Nat} (h0 : n ≠ 0) (h : va % 2 ^ 21 + n ≤ 2 ^ 21)
    (ht : (translate s nd va).isSome = true) : translates s nd va n = true := by
  simp [translates, pieces_one h0 h, ht]

theorem needRange_scratch {s : State} {c : Nat} {m : Marks} {wr hw : Bool} {va n pa : Nat} {na : Bool} {key : Nat} (h0 : n ≠ 0)
    (h : va % 2 ^ 21 + n ≤ 2 ^ 21) (ht : translate s (if wr then .write else .read) va = some (pa, na))
    (hp : place s pa = .scratch key) : needRange c m wr hw va n s = (s, false) := by
  simp [needRange, pieces_one h0 h, needPiece, ht, hp]

theorem checkWord_clean {s : State} {u key : Nat} (hp : place s u = .scratch key) (hw : s.wordState (key / 16) = .clean) :
    checkWord u s = s := by
  simp only [checkWord, hp, hw]

/-- Consumed words that are sound leave the state as it is and give no poison. -/
theorem fetchHere_sound {s : State} {ext : Ext} {a n : Nat} (h : ScratchSound s a n) :
    fetchHere ext a n s = (((upFrom a n).map fun i => (peek s ext i).getD 0, []), s) := by
  have e1 : ∀ l : List Nat, (∀ u ∈ l, checkWord u s = s) → forEach checkWord l s = s := by
    intro l
    induction l with
    | nil => intro _; rfl
    | cons u l ih => intro hl; simp only [forEach]; rw [hl u (by simp)]; exact ih fun v hv => hl v (by simp [hv])
  have e2 : (unitsOf 16 a n).filter (peekPoison s ext) = [] := by
    rw [List.filter_eq_nil_iff]
    intro u hu
    obtain ⟨key, hp, -, hz⟩ := h u hu
    simp [peekPoison, hp, hz]
  unfold fetchHere
  rw [e1 _ fun u hu => by obtain ⟨key, hp, hw, -⟩ := h u hu; exact checkWord_clean hp hw]
  simp only [e2, List.map_nil]

theorem readVirt_scratch {s : State} {ext : Ext} {m : Marks} {va n pa : Nat} {na : Bool} {key : Nat} (h0 : n ≠ 0)
    (h : va % 2 ^ 21 + n ≤ 2 ^ 21) (ht : translate s .read va = some (pa, na)) (hp : place s pa = .scratch key)
    (hz : ScratchSound s pa n) :
    readVirt ext m va n s = (.ok ((upFrom pa n).map fun i => (peek s ext i).getD 0), countLines pa n s) := by
  have e2 : ∀ i, peek (countLines pa n s) ext i = peek s ext i := by intro i; rw [countLines_eq]; rfl
  have hz' : ScratchSound (countLines pa n s) pa n := by rw [countLines_eq]; exact hz
  simp only [readVirt, pieces_one h0 h, readPieces, ht, readPhys, fetchPhys, hp, fetchHere_sound hz', consume, e2]
  simp

theorem coreLoad_scratch {s : State} {c w n : Nat} {a : W64} {use : List Byte → State → State} {va pa key : Nat} {na : Bool}
    (hob : Iw.ob w = false) (h0 : n ≠ 0) (hc : coreAddr s a n true = .ok (.loc va)) (h : va % 2 ^ 21 + n ≤ 2 ^ 21)
    (ht : translate s .read va = some (pa, na)) (hp : place s pa = .scratch key) (hz : ScratchSound s pa n) :
    coreLoad c w a n use s = use ((upFrom pa n).map fun i => (peek s (passExt s c) i).getD 0) (countLines pa n (dropPass c s)) := by
  have e : ∀ i, peek (dropPass c s) (passExt s c) i = peek s (passExt s c) i := fun _ => rfl
  have r := readVirt_scratch (s := dropPass c s) (ext := passExt s c) (m := memMarks w) h0 h ht hp hz
  simp only [e] at r
  unfold coreLoad
  simp only [hob, hc, translates_one h0 h (by rw [ht]; rfl), needRange_scratch (wr := false) h0 h ht hp, r]
  simp

theorem finish_ctr {s : State} {c op w e len} (h : Issues s c op w e) (f : Core → Core) (q) :
    finish c len f { stepTaken c s with ctr := q } = { s.retiring c len (f (s.core c)) with ctr := q } := by
  have := finish_stepTaken c len f { s with ctr := q } h.free
  exact this

/-- Retiring after a load that counted its lines and took what had come for the core. -/
theorem finish_drop {s : State} {c op w e len} (h : Issues s c op w e) (f : Core → Core) (q) :
    finish c len f { dropPass c (stepTaken c s) with ctr := q } = { (dropPass c s).retiring c len (f (s.core c)) with ctr := q } :=
  finish_stepTaken c len f { dropPass c s with ctr := q } h.free

/-- Outside the rings of enabled notice queues scratch holds what is stored. -/
theorem scratchByte_plain {s : State} {k : Nat} (h : inNoticeRing s k = false) : scratchByte s k = s.byte k := by
  have : ringByte s k = none := by
    unfold ringByte
    rw [List.findSome?_eq_none_iff]
    intro e he
    unfold inNoticeRing at h
    rw [List.any_eq_false] at h
    rw [if_neg (h e he)]
  simp [scratchByte, this]

theorem scratchNum_plain {s : State} {key n : Nat} (h : ∀ j, j < n → inNoticeRing s (key + j) = false) :
    scratchNum s key n = ofBytes ((upFrom key n).map s.byte) := by
  unfold scratchNum
  congr 1
  apply List.map_congr_left
  intro x hx
  have hu : ∀ (k m : Nat), x ∈ upFrom k m → k ≤ x ∧ x < k + m := by
    intro k m
    induction m generalizing k with
    | zero => intro h; simp [upFrom] at h
    | succ m ih =>
      intro h
      simp only [upFrom, List.mem_cons] at h
      rcases h with h | h
      · omega
      · have := ih _ h; omega
  have := hu _ _ hx
  have hh := h (x - key) (by omega)
  rw [show key + (x - key) = x by omega] at hh
  exact scratchByte_plain hh

theorem rewatch_core (c : Nat) (s : State) : rewatch c s = { s with cores := (rewatch c s).cores } := by
  unfold rewatch
  simp only
  split
  · split
    · split
      · split <;> rfl
      · rfl
    · rfl
  · rfl

theorem rewatchAll_eq (s : State) : rewatchAll s = { s with cores := (rewatchAll s).cores } := by
  unfold rewatchAll
  refine forEach_keeps (fun t => t = { s with cores := t.cores }) ?_ _ _ rfl
  intro x t ht
  rw [rewatch_core, ht]

theorem rewatchAll_core {s : State} {c : Nat} (h : (s.core c).hold = none) : (rewatchAll s).core c = s.core c := by
  unfold rewatchAll
  refine (forEach_keeps (fun t => t.core c = s.core c) ?_ _ _ rfl)
  intro x t ht
  by_cases hx : x = c
  · subst hx
    have : rewatch x t = t := by
      have h' : (t.core x).hold = none := by rw [ht]; exact h
      simp only [rewatch]
      rw [h']
    rw [this, ht]
  · unfold rewatch
    simp only
    split
    · split
      · split
        · split
          · simp only [State.core, State.setCore, Tab.get_set_ne (Ne.symm hx)]; exact ht
          · exact ht
        · exact ht
      · exact ht
    · exact ht

theorem markWord_scratch {p : Bool} {s : State} {u : Nat} (h : ∃ key, place s u = .scratch key) :
    ∃ q r, markWord p u s = { s with poison := q, errs := r } := by
  obtain ⟨key, hk⟩ := h
  simp only [markWord, hk]
  exact ⟨_, _, rfl⟩

/-- Bytes stored under the keys of consecutive addresses. -/
def storeKeys (mask : Nat → Bool) (kf : Nat → Nat) : Nat → Nat → List Byte → List Host.Cell → List Host.Cell
  | _, _, [], m => m
  | i, a, b :: t, m => storeKeys mask kf (i + 1) (a + 1) t (if mask i then Tab.set 0 m (kf a) b else m)

theorem pokeBytes_scratch (mask : Nat → Bool) (kf : Nat → Nat) (i a : Nat) (l : List Byte) (s : State)
    (h : ∀ j, j < l.length → place s (a + j) = .scratch (kf (a + j)) ∧ inNoticeRing s (kf (a + j)) = false) :
    pokeBytes mask i a l s = { s with mem := storeKeys mask kf i a l s.mem } := by
  induction l generalizing i a s with
  | nil => rfl
  | cons b t ih =>
    simp only [pokeBytes, storeKeys]
    have h0 := h 0 (by simp)
    simp only [Nat.add_zero] at h0
    have e : (if mask i = true then pokeByte a b s else s) = { s with mem := if mask i = true then Tab.set 0 s.mem (kf a) b else s.mem } := by
      split
      · simp only [pokeByte, h0.1, h0.2]; rfl
      · rfl
    rw [e, ih]
    intro j hj
    have := h (j + 1) (by simp; omega)
    rw [show a + (j + 1) = a + 1 + j by omega] at this
    exact this

theorem storeKeys_get (mask : Nat → Bool) (kf : Nat → Nat) (i a : Nat) (l : List Byte) (m : List Host.Cell)
    (inj : ∀ x y, a ≤ x → x < a + l.length → a ≤ y → y < a + l.length → kf x = kf y → x = y) :
    (∀ j, j < l.length → mask (i + j) = true → Tab.get 0 (storeKeys mask kf i a l m) (kf (a + j)) = (l[j]?).getD 0) ∧
    ∀ key, (∀ j, j < l.length → mask (i + j) = true → kf (a + j) ≠ key) → Tab.get 0 (storeKeys mask kf i a l m) key = Tab.get 0 m key := by
  induction l generalizing i a m with
  | nil => exact ⟨fun j hj => absurd hj (by simp), fun _ _ => rfl⟩
  | cons b t ih =>
    have inj' : ∀ x y, a + 1 ≤ x → x < a + 1 + t.length → a + 1 ≤ y → y < a + 1 + t.length → kf x = kf y → x = y := by
      intro x y h1 h2 h3 h4
      exact inj x y (by omega) (by simp; omega) (by omega) (by simp; omega)
    obtain ⟨ia, ib⟩ := ih (i + 1) (a + 1) (if mask i then Tab.set 0 m (kf a) b else m) inj'
    refine ⟨?_, ?_⟩
    · intro j hj hm
      cases j with
      | zero =>
        simp only [Nat.add_zero] at hm ⊢
        simp only [storeKeys]
        rw [ib]
        · simp [hm]
        · intro j hj' _ he
          have := inj _ _ (by omega) (by simp; omega) (by omega) (by simp) he
          omega
      | succ j =>
        have := ia j (by simp at hj; omega) (by rw [show i + 1 + j = i + (j + 1) by omega]; exact hm)
        rw [show a + 1 + j = a + (j + 1) by omega] at this
        simpa [storeKeys] using this
    · intro key hk
      simp only [storeKeys]
      rw [ib]
      · split
        · rename_i hm
          exact Tab.get_set_ne (fun he => hk 0 (by simp) hm (by simpa using he.symm))
        · rfl
      · intro j hj hm
        have := hk (j + 1) (by simp; omega) (by rw [show i + (j + 1) = i + 1 + j by omega]; exact hm)
        rwa [show a + (j + 1) = a + 1 + j by omega] at this

theorem xorNibbles_succ (n v : Nat) : xorNibbles (n + 1) v = Nat.xor (v % 16) (xorNibbles n (v / 16)) := rfl

theorem xorNibbles_lt (n v : Nat) : xorNibbles n v < 16 := by
  induction n generalizing v with
  | zero => simp [xorNibbles]
  | succ n ih =>
    rw [xorNibbles_succ]
    exact Nat.xor_lt_two_pow (n := 4) (Nat.mod_lt _ (by decide)) (ih _)

theorem sliceHash_inj {x y : Nat} (h1 : x / 2048 = y / 2048) (h2 : x % 128 = y % 128) (hx : x < 2 ^ 48) (hy : y < 2 ^ 48)
    (h : sliceHash x = sliceHash y) : x = y := by
  unfold sliceHash at h
  rw [Nat.mod_eq_of_lt hx, Nat.mod_eq_of_lt hy, xorNibbles_succ 10 (x / 128), xorNibbles_succ 10 (y / 128)] at h
  have e : x / 128 / 16 = y / 128 / 16 := by rw [Nat.div_div_eq_div_mul, Nat.div_div_eq_div_mul]; exact h1
  rw [e] at h
  have h' : x / 128 % 16 = y / 128 % 16 := by
    generalize xorNibbles 10 (y / 128 / 16) = z at h
    change (x / 128 % 16) ^^^ z = (y / 128 % 16) ^^^ z at h
    have h2 : ((x / 128 % 16) ^^^ z) ^^^ z = ((y / 128 % 16) ^^^ z) ^^^ z := by rw [h]
    rwa [Nat.xor_assoc, Nat.xor_self, Nat.xor_zero, Nat.xor_assoc, Nat.xor_self, Nat.xor_zero] at h2
  omega

theorem hashedKey_inj {x y : Nat} (hd : x < y + 2048 ∧ y < x + 2048) (hx : x < 2 ^ 48) (hy : y < 2 ^ 48)
    (h : hashedKey x = hashedKey y) : x = y := by
  unfold hashedKey slicedAddr at h
  have e1 : sliceHash x < 16 := xorNibbles_lt _ _
  have e2 : sliceHash y < 16 := xorNibbles_lt _ _
  generalize hsx : sliceHash x = p at *
  generalize hsy : sliceHash y = q at *
  simp only [Nat.shiftLeft_eq] at h
  have h' : p * 2 ^ 29 + (x / 2048 * 128 + x % 128) = q * 2 ^ 29 + (y / 2048 * 128 + y % 128) := by omega
  have hx1 : x % 128 = y % 128 := by omega
  have hx2 : x / 2048 = y / 2048 := by omega
  exact sliceHash_inj hx2 hx1 hx hy (by omega)

theorem place_scratch {s : State} {x k : Nat} (h : place s x = .scratch k) :
    (0x010000000000 ≤ x ∧ x < 0x010200000000 ∧ k = hashedKey (x - 0x010000000000)) ∨
    (0x018000000000 ≤ x ∧ x < 0x018200000000 ∧ k = x) := by
  unfold place at h
  generalize hb : boundary s = b at h
  by_cases h1 : x < 2 ^ 39
  · rw [if_pos h1] at h; exact Place.noConfusion h
  rw [if_neg h1] at h
  by_cases h2 : 0x010000000000 ≤ x ∧ x < 0x010200000000
  · rw [if_pos h2] at h
    by_cases h3 : x - 0x010000000000 < b
    · simp only [h3, if_true] at h
      injection h with h
      exact Or.inl ⟨h2.1, h2.2, h.symm⟩
    · simp only [h3, if_false] at h
      exact Place.noConfusion h
  rw [if_neg h2] at h
  by_cases h4 : 0x018000000000 ≤ x ∧ x < 0x018200000000
  · rw [if_pos h4] at h
    by_cases h3 : (x - 0x018000000000) % 2 ^ 29 < b / 16
    · rw [if_pos h3] at h
      injection h with h
      exact Or.inr ⟨h4.1, h4.2, h.symm⟩
    · rw [if_neg h3] at h
      exact Place.noConfusion h
  rw [if_neg h4] at h
  split at h
  · exact Place.noConfusion h
  · split at h
    · split at h <;> exact Place.noConfusion h
    · exact Place.noConfusion h

theorem place_inj {s : State} {x y kx ky : Nat} (hx : place s x = .scratch kx) (hy : place s y = .scratch ky)
    (hd : x < y + 2048 ∧ y < x + 2048) (h : kx = ky) : x = y := by
  rcases place_scratch hx with ⟨a1, a2, a3⟩ | ⟨a1, a2, a3⟩ <;> rcases place_scratch hy with ⟨b1, b2, b3⟩ | ⟨b1, b2, b3⟩
  · have := hashedKey_inj (x := x - 0x010000000000) (y := y - 0x010000000000) (by omega) (by omega) (by omega)
      (by rw [← a3, ← b3]; exact h)
    omega
  · omega
  · omega
  · omega

/-- What a store to scratch leaves. -/
structure StoredTo (s t : State) (mask : Nat → Bool) (pa : Nat) (data : List Byte) (c : Nat) : Prop where
  frame : ∃ m p r cs q, t = { s with mem := m, poison := p, errs := r, cores := cs, ctr := q }
  put : ∀ j key, j < data.length → mask j = true → place s (pa + j) = .scratch key → t.byte key = (data[j]?).getD 0
  keep : ∀ key, (∀ j, j < data.length → mask j = true → place s (pa + j) ≠ .scratch key) → t.byte key = s.byte key
  core : (s.core c).hold = none → t.core c = s.core c

theorem writePhys_scratch {s : State} {ext : Ext} {m : Marks} {mask : Nat → Bool} {pa c : Nat} {data : List Byte} (hl : 0 < data.length) (h2 : data.length ≤ 2048)
    (h : ∀ j, j < data.length → ∃ key, place s (pa + j) = .scratch key ∧ inNoticeRing s key = false) :
    ∃ t, writePhys ext m mask pa data s = (.ok (), t) ∧ StoredTo s t mask pa data c := by
  obtain ⟨k0, hk0, -⟩ := h 0 hl
  let kf (x : Nat) : Nat := match place s x with | .scratch key => key | _ => 0
  have hkf : ∀ j, j < data.length → place s (pa + j) = .scratch (kf (pa + j)) ∧ inNoticeRing s (kf (pa + j)) = false := by
    intro j hj
    obtain ⟨key, h1, h2⟩ := h j hj
    simp only [kf, h1]; exact ⟨trivial, h2⟩
  have inj : ∀ x y, pa ≤ x → x < pa + data.length → pa ≤ y → y < pa + data.length → kf x = kf y → x = y := by
    intro x y a1 a2 a3 a4 he
    have hx := (hkf (x - pa) (by omega)).1
    have hy := (hkf (y - pa) (by omega)).1
    rw [show pa + (x - pa) = x by omega] at hx
    rw [show pa + (y - pa) = y by omega] at hy
    exact place_inj hx hy (by omega) he
  obtain ⟨g1, g2⟩ := storeKeys_get mask kf 0 pa data s.mem inj
  let s1 : State := { s with ctr := (countLines pa data.length s).ctr, mem := storeKeys mask kf 0 pa data s.mem }
  have e1 : pokeBytes mask 0 pa data (countLines pa data.length s) = s1 := by
    rw [countLines_eq]
    exact pokeBytes_scratch mask kf 0 pa data _ hkf
  have e2 : ∃ p r, markWords mask (fun _ => false) pa data.length s1 = { s1 with poison := p, errs := r } := by
    have noBad : ∀ l : List Nat, l.any (fun i => mask i && false) = false := by intro l; simp
    have : ∀ (l : List Nat) (t : State), (∀ j, j < data.length → ∃ key, place t (pa + j) = .scratch key) →
        ∃ p r, forEach (fun u s =>
          if meets (fun i => mask i && false) pa data.length u then markWord true u s
          else if pa ≤ u && u + 16 ≤ pa + data.length && (upFrom (u - pa) 16).all mask then markWord false u s
          else s) l t = { t with poison := p, errs := r } := by
      intro l
      induction l with
      | nil => intro t _; exact ⟨t.poison, t.errs, rfl⟩
      | cons u l ih =>
        intro t ht
        simp only [forEach, meets, noBad, Bool.false_eq_true, if_false]
        simp only [meets, noBad, Bool.false_eq_true, if_false] at ih
        split
        · rename_i hu
          simp only [Bool.and_eq_true, decide_eq_true_eq] at hu
          have hk := ht (u - pa) (by omega)
          rw [show pa + (u - pa) = u by omega] at hk
          obtain ⟨q, r, e⟩ := markWord_scratch (p := false) hk
          rw [e]
          obtain ⟨p, r', hp⟩ := ih { t with poison := q, errs := r } ht
          exact ⟨p, r', hp⟩
        · exact ih t ht
    refine this _ _ ?_
    intro j hj
    obtain ⟨key, hk, -⟩ := h j hj
    exact ⟨key, hk⟩
  obtain ⟨p, r, e2⟩ := e2
  refine ⟨rewatchAll { s1 with poison := p, errs := r }, ?_, ?_, ?_, ?_, ?_⟩
  · have : place s pa = .scratch k0 := hk0
    simp only [writePhys, storePhys, this, e1, e2]
  · rw [rewatchAll_eq]; exact ⟨_, _, _, _, _, rfl⟩
  · intro j key hj hm hp
    rw [rewatchAll_eq]
    have := g1 j hj (by simpa using hm)
    have hkey : kf (pa + j) = key := by simp only [kf, hp]
    rw [hkey] at this
    exact this
  · intro key hk
    rw [rewatchAll_eq]
    refine g2 key ?_
    intro j hj hm he
    refine hk j hj (by simpa using hm) ?_
    rw [← he]; exact (hkf j hj).1
  · intro hc
    exact rewatchAll_core hc

theorem coreStore_scratch {s : State} {c w : Nat} {a : W64} {mask : Nat → Bool} {data : List Byte} {fin : State → State}
    {va pa : Nat} {na : Bool} (hob : Iw.ob w = false) (hl : 0 < data.length) (h2 : data.length ≤ 2048)
    (hc : coreAddr s a data.length false = .ok (.loc va)) (hv : va % 2 ^ 21 + data.length ≤ 2 ^ 21)
    (ht : translate s .write va = some (pa, na))
    (h : ∀ j, j < data.length → ∃ key, place s (pa + j) = .scratch key ∧ inNoticeRing s key = false) :
    ∃ t, coreStore c w a mask data fin s = fin t ∧ StoredTo s t mask pa data c := by
  obtain ⟨k0, hk0, -⟩ := h 0 hl
  obtain ⟨t, e, st⟩ := writePhys_scratch (ext := {}) (m := { memMarks w with noalloc := (memMarks w).noalloc || na }) (mask := mask) (c := c) hl h2 h
  refine ⟨t, ?_, st⟩
  have h0 : data.length ≠ 0 := by omega
  have tr := translates_one (s := s) (nd := .write) h0 hv (by rw [ht]; rfl)
  unfold coreStore
  simp only [hob, hc, tr, needRange_scratch (wr := true) h0 hv ht hk0, writeVirt, storeVirt, pieces_one h0 hv, storePieces, ht]
  simp only [writePhys] at e
  simp [e]

theorem noHold {k : Core} (h : k.hold = none) : ({ k with hold := none } : Core) = k := by
  cases k; simp_all

theorem finish_core (c len : Nat) (f : Core → Core) (t : State) :
    (finish c len f t).core c = (f { t.core c with hold := none }).retire len t.beat := by
  simp [finish, State.core, State.setCore]

theorem finishWith_eq {c len : Nat} {cd : Conds} {f : Core → Core} {t : State}
    (h : (f { t.core c with hold := none }).arithTrap cd = false) :
    finishWith c len cd f t = finish c len (fun k => (f k).raise cd) t := by
  unfold finishWith
  simp only [finish_core]
  have : (((f { t.core c with hold := none }).raise cd).retire len t.beat).arithTrap cd = (f { t.core c with hold := none }).arithTrap cd := rfl
  rw [this, h]
  simp

theorem traceCore_touches (c kind : Nat) (s : State) :
    ∃ r st, traceCore c kind s = { s with regs := r, streams := st } := traceEmit_touches ..

theorem core_modCore (c : Nat) (f : Core → Core) (s : State) : (s.modCore c f).core c = f (s.core c) := by
  simp [State.modCore, State.core, State.setCore]

theorem core_modCore_other {c j : Nat} (h : j ≠ c) (f : Core → Core) (s : State) : (s.modCore c f).core j = s.core j := by
  simp [State.modCore, State.core, State.setCore, Tab.get_set_ne h]

theorem stopOthers_frame (d c : Nat) (s : State) :
    ∃ cs, stopOthers d c s = { s with cores := cs } ∧ Tab.get {} cs c = s.core c := by
  unfold stopOthers
  have : ∀ (l : List Nat) (t : State), c ∉ l → ∃ cs,
      forEach (fun c s => State.modCore s c fun k => { k with stopping := k.mode == .running }) l t = { t with cores := cs } ∧
        Tab.get {} cs c = t.core c := by
    intro l
    induction l with
    | nil => intro t _; exact ⟨_, rfl, rfl⟩
    | cons x l ih =>
      intro t hx
      simp only [List.mem_cons, not_or] at hx
      obtain ⟨cs, e, g⟩ := ih (t.modCore x fun k => { k with stopping := k.mode == .running }) hx.2
      refine ⟨cs, e, ?_⟩
      rw [g, core_modCore_other hx.1]
  exact this _ s (by simp [List.mem_filter])

/-- What a trap does (R189). -/
theorem trapAt_frame {c cause : Nat} {pc : W64} {s : State} (h : (s.core c).trapValid = false) :
    ∃ cs r st ds, trapAt c cause pc s = { s with cores := cs, regs := r, streams := st, disps := ds } ∧
      Tab.get {} cs c = (s.core c).trapped cause pc := by
  obtain ⟨r, t, e⟩ := traceCore_touches c 1 (s.setCore c ((s.core c).trapped cause pc))
  have h0 : (State.core { s.setCore c ((s.core c).trapped cause pc) with regs := r, streams := t } c) = (s.core c).trapped cause pc := by
    simp [State.core, State.setCore]
  unfold trapAt
  simp only [h, e, Bool.false_eq_true, if_false]
  split
  · exact ⟨_, _, _, _, rfl, h0⟩
  · rename_i d hd
    obtain ⟨cs, e', g⟩ := stopOthers_frame d c
      (State.modDisp { s.setCore c ((s.core c).trapped cause pc) with regs := r, streams := t } d fun r =>
        { r with trap := if r.trap.isSome then r.trap else some (cause, c) })
    rw [e']
    exact ⟨cs, r, t, _, rfl, g.trans h0⟩

theorem storeBytes_mem (key : Nat) (l : List Byte) (s : State) : storeBytes key l s = { s with mem := storeKeys (fun _ => true) id 0 key l s.mem } := by
  have : ∀ i key s, storeBytes key l s = { s with mem := storeKeys (fun _ => true) id i key l s.mem } := by
    induction l with
    | nil => intro i key s; rfl
    | cons b t ih => intro i key s; simp only [storeBytes]; rw [ih (i + 1)]; rfl
  exact this 0 key s

theorem ofBytes_toBytes (n v : Nat) : ofBytes (toBytes n v) = v % 256 ^ n := by
  induction n generalizing v with
  | zero => simp [toBytes, ofBytes, Nat.mod_one]
  | succ n ih =>
    simp only [toBytes, ofBytes, ih, BitVec.toNat_ofNat]
    have e : 256 ^ (n + 1) = 256 * 256 ^ n := by rw [Nat.pow_succ, Nat.mul_comm]
    rw [e, Nat.mod_mul]

theorem scratchPut_spec {s : State} {key n v c : Nat} (hr : inNoticeRing s key = false) :
    ∃ m cs, scratchPut key n v s = { s with mem := m, cores := cs } ∧
      ofBytes ((upFrom key n).map (fun i => Tab.get 0 m i)) = v % 256 ^ n ∧
      (∀ i, (i < key ∨ key + n ≤ i) → Tab.get 0 m i = s.byte i) ∧
      ((s.core c).hold = none → Tab.get {} cs c = s.core c) := by
  unfold scratchPut
  simp only [hr, Bool.false_eq_true, if_false]
  obtain ⟨g1, g2⟩ := storeKeys_get (fun _ => true) id 0 key (toBytes n v) s.mem (fun _ _ _ _ _ _ h => h)
  have hup : ∀ (k m : Nat) (f : Nat → Byte), (upFrom k m).map f = (List.range m).map fun j => f (k + j) := by
    intro k m f
    induction m generalizing k with
    | zero => rfl
    | succ m ih =>
      simp only [upFrom, List.map_cons, ih, List.range_succ_eq_map, List.map_map, Nat.add_zero]
      congr 1
      apply List.map_congr_left
      intro j _; simp; congr 1; omega
  refine ⟨storeKeys (fun _ => true) id 0 key (toBytes n v) s.mem, (rewatchAll (storeBytes key (toBytes n v) s)).cores, ?_, ?_, ?_, ?_⟩
  · rw [rewatchAll_eq, storeBytes_mem]
  · rw [← ofBytes_toBytes]
    congr 1
    rw [hup]
    apply List.ext_getElem
    · simp
    · intro j h1 h2
      simp only [List.length_map, List.length_range] at h1
      have := g1 j (by simpa using h1) rfl
      simp only [id] at this
      simp only [List.getElem_map, List.getElem_range]
      rw [this, List.getElem?_eq_getElem h2]; rfl
  · intro i hi
    refine g2 i ?_
    intro j hj _ he
    simp only [toBytes_length, id] at hj he
    omega
  · intro hc
    have hc' : ((storeBytes key (toBytes n v) s).core c).hold = none := by rw [storeBytes_mem]; exact hc
    have := rewatchAll_core hc'
    simp only [State.core] at this
    rw [this, storeBytes_mem]; rfl

theorem atomicAt_scratch {s : State} {c n : Nat} {a : W64} {go : Nat → State → State} {va pa key : Nat} {na : Bool}
    (hc : coreAddr s a n true = .ok (.loc va)) (ha : a.toNat % n = 0) (ht : translate s .write va = some (pa, na))
    (hp : place s pa = .scratch key) (hw : s.wordState (key / 16) = .clean)
    (hz : s.isPoison key = false) : ∃ q, atomicAt c n a go s = go key { s with ctr := q } := by
  unfold atomicAt
  simp only [hc, ha, ht, hp, checkWord_clean hp hw, hz]
  exact ⟨_, by simp [State.count]; rfl⟩

theorem coreOp_amo {w : Nat} {o : CoreOp} (h : coreOp w = some o) :
    (o = .amoAdd → Iw.fn w = 0 ∨ Iw.fn w = 1) ∧ (o = .amoCas → Iw.fn w = 4 ∨ Iw.fn w = 5) := by
  refine ⟨?_, ?_⟩ <;> rintro rfl
  · unfold coreOp at h
    dsimp only at h
    split at h <;> first | (simp at h; done) | ((repeat' split at h) <;> first | (simp at h; done) | omega)
  · unfold coreOp at h
    dsimp only at h
    split at h <;> first | (simp at h; done) | ((repeat' split at h) <;> first | (simp at h; done) | omega)

theorem amo_done {s : State} {c key len v : Nat} {f : Core → Core} {q} (hr : inNoticeRing s key = false) (hf : (s.core c).hold = none) :
    ∃ t, finish c 8 f (scratchPut key len v { stepTaken c s with ctr := q }) = t ∧
      ofBytes ((upFrom key len).map t.byte) = v % 256 ^ len ∧ (∀ i, (i < key ∨ key + len ≤ i) → t.byte i = s.byte i) ∧
      t.core c = (f (s.core c)).retire 8 s.beat ∧ t.regs = s.regs ∧ t.events = s.events ∧ t.rings = s.rings := by
  obtain ⟨m, cs, e, g1, g2, g3⟩ := scratchPut_spec (s := { stepTaken c s with ctr := q }) (key := key) (n := len) (v := v) (c := c) hr
  refine ⟨_, rfl, ?_⟩
  rw [e]
  refine ⟨g1, g2, ?_, rfl, rfl, rfl⟩
  rw [finish_core]
  have : (State.core { stepTaken c s with ctr := q, mem := m, cores := cs } c) = s.core c := g3 hf
  rw [this, noHold hf]; rfl

theorem pow256 (n : Nat) : 2 ^ (8 * n) = 256 ^ n := by rw [Nat.pow_mul]

theorem issued_stepTaken (c : Nat) (f : Core → Core) (s : State) (hf : (s.core c).hold = none) :
    issued c 8 f (stepTaken c s) = s.issuing c (f (s.core c)) := by
  have h1 : (stepTaken c s).core c = s.core c := rfl
  have h2 : ({ s.core c with hold := none } : Core) = s.core c := noHold hf
  simp only [issued, h1, h2]
  rfl

theorem retryCore_free {c : Nat} {s : State} (h : (s.core c).hold = none) : retryCore c s = s := by
  unfold retryCore; rw [h]

theorem unitDone_spec {c : Nat} {e : UnitEntry} {s : State} (hh : (s.core c).hold = none)
    (ht : (s.core c).mode = .running → (s.core c).arithTrap e.conds = false) :
    ∃ t, unitDone c e s = t ∧ OthersKeep s t c ∧ t.mem = s.mem ∧ t.regs = s.regs ∧ t.events = s.events ∧
      t.core c = { (s.core c).raise e.conds with retired := (s.core c).retired + 1, lastRetire := s.beat } := by
  refine ⟨_, rfl, ?_⟩
  unfold unitDone
  simp only [core_modCore]
  have : ¬ ((s.core c).mode = .running ∧ (s.core c).arithTrap e.conds = true) := by
    rintro ⟨a, b⟩; rw [ht a] at b; exact absurd b (by simp)
  split
  · rename_i h; exact absurd h this
  · rw [retryCore_free (by rw [core_modCore]; exact hh)]
    refine ⟨fun j hj => core_modCore_other hj _ _, rfl, rfl, rfl, ?_⟩
    rw [core_modCore]

theorem upFrom_map (k m : Nat) {β : Type} (f : Nat → β) : (upFrom k m).map f = (List.range m).map fun j => f (k + j) := by
  induction m generalizing k with
  | zero => rfl
  | succ m ih =>
    simp only [upFrom, List.map_cons, ih, List.range_succ_eq_map, List.map_map, Nat.add_zero]
    congr 1
    apply List.map_congr_left
    intro j _; simp; congr 1; omega

theorem dmaDone_eq {s s1 : State} {c n : Nat} {ext : Ext} {e : DmaEntry} {q : List DmaEntry} (hq : (s.core c).dmaQ = e :: q)
    (hrun : dmaRun ext c e s = (none, n, s1)) (hn : n = 0 ∨ (s1.core c).trapEn.getLsbD 4 = false)
    (hh : (s1.core c).hold = none) : dmaDone c ext s = (s1.modCore c fun k => { k with dmaQ := q }).modCore c
      fun k => { k with retired := k.retired + 1, lastRetire := s1.beat } := by
  simp only [dmaDone, hq, hrun]
  split
  · rename_i h
    rw [core_modCore, core_modCore] at h
    rcases hn with hn | hn
    · exact absurd hn h.2.2
    · exact absurd (hn.symm.trans h.2.1) (by simp)
  · rw [retryCore_free (by rw [core_modCore, core_modCore]; exact hh)]
    rfl

theorem modRing_core (r : Nat) (f : Ring → Ring) (s : State) : (s.modRing r f).cores = s.cores := rfl

theorem eventWake_frame (slot : Nat) (v : W64) (s : State) :
    ∃ rs cs, eventWake slot v s = { s with rings := rs, cores := cs } ∧
      ∀ c, (s.core c).hold = none → Tab.get {} cs c = s.core c := by
  unfold eventWake
  simp only
  have h1 : ∀ (l : List Nat) (g : Ring → Ring) (t : State), ∃ rs, forEach (fun r s => State.modRing s r g) l t = { t with rings := rs } := by
    intro l g
    induction l with
    | nil => intro t; exact ⟨_, rfl⟩
    | cons x l ih => intro t; simp only [forEach]; obtain ⟨rs, e⟩ := ih (t.modRing x g); exact ⟨rs, by rw [e]; rfl⟩
  let wk (c : Cmd) : Cmd :=
    if Cb.opcode c.body = 0x05 ∧ Cb.event c.body = slot ∧ Cb.value c.body ≤ v.toNat then { c with met := true } else c
  obtain ⟨rs, e⟩ := h1 (s.rings.map (·.1)) (fun k => { k with running := k.running.map wk }) s
  rw [e]
  refine forEach_keeps (fun t => ∃ rs cs, t = { s with rings := rs, cores := cs } ∧
      ∀ c, (s.core c).hold = none → Tab.get {} cs c = s.core c) ?_ _ _ ⟨rs, _, rfl, fun _ _ => rfl⟩
  rintro x t ⟨rs', cs, rfl, g⟩
  split
  · rename_i h hh
    split
    · refine ⟨_, _, rfl, ?_⟩
      intro c hc
      have hne : c ≠ x := by
        rintro rfl
        have : (Tab.get {} cs c).hold = some h := hh
        rw [g c hc, hc] at this
        exact absurd this (by simp)
      rw [Tab.get_set_ne hne]
      exact g c hc
    · exact ⟨_, _, rfl, g⟩
  · exact ⟨_, _, rfl, g⟩

theorem eventSet_frame (slot : Nat) (v : W64) (s : State) :
    ∃ ev rs cs b, eventSet slot v s = { s with events := ev, rings := rs, cores := cs, mwBroken := b } ∧
      Tab.get 0 ev (slot % 4096) = v ∧ (∀ j, j < 4096 → j ≠ slot % 4096 → Tab.get 0 ev j = Tab.get 0 s.events j) ∧
      ∀ c, (s.core c).hold = none → Tab.get {} cs c = s.core c := by
  unfold eventSet
  simp only
  split
  · rename_i h
    refine ⟨_, _, _, _, rfl, ?_, fun _ _ _ => rfl, fun _ _ => rfl⟩
    simpa [State.event] using h
  · obtain ⟨rs, cs, e, g⟩ := eventWake_frame (slot % 4096) v { s with events := Tab.set 0 s.events (slot % 4096) v }
    rw [e]
    exact ⟨_, _, _, _, rfl, Tab.get_set_self, fun j _ hj => Tab.get_set_ne hj, g⟩

theorem holdIn_stepTaken {c w e : Nat} {mt : Bool} {s : State} (hf : (s.core c).hold = none) :
    (holdIn c w e mt (stepTaken c s)).core c = { s.core c with hold := some { w := BitVec.ofNat 64 w, e := BitVec.ofNat 64 e, markT := mt, met := false } } := by
  simp only [holdIn, core_modCore]
  have : (stepTaken c s).core c = s.core c := rfl
  rw [this, hf]

theorem coreCounter_bytes {k : Core} {sel : Nat} (h0 : sel ≠ 0) (h1 : sel ≠ 1) (h2 : sel ≠ 2) (h3 : sel ≠ 3)
    (h4 : sel ≠ 4) : coreCounter k sel = k.dmaBytes := by
  unfold coreCounter
  split <;> simp_all

end Sys2Proof.Machine
end

