-- ==== Sys2Proof/Laws/Regs.lean ====
section
/-! SUPPORT. Reads of a register after a write of one of its bits or of another register, and the gate that an admitted
register write passes. -/

namespace Sys2Proof.Machine

theorem bit_getLsbD (v : W32) (i : Nat) : bit v.toNat i = v.getLsbD i := by
  simp [bit, BitVec.getLsbD]

theorem flag_getLsbD (s : State) (o i : Nat) : s.flag o i = (s.reg o).getLsbD i := bit_getLsbD _ _

theorem getLsbD_one_shift (i j : Nat) (h : i < 32) : (1#32 <<< i).getLsbD j = decide (i = j) := by
  have hj : (1#32).getLsbD (j - i) = decide (j - i = 0) := by
    cases h0 : j - i with
    | zero => rfl
    | succ n => simp [BitVec.getLsbD_one]
  rw [BitVec.getLsbD_shiftLeft, hj]
  by_cases h1 : j < 32 <;> by_cases h2 : j < i <;> by_cases h3 : i = j <;> simp [h1, h2, h3] <;> omega

theorem flag_setFlag_self (s : State) (o i : Nat) (h : i < 32) : (s.setFlag o i).flag o i = true := by
  rw [flag_getLsbD]
  simp [State.setFlag, BitVec.getLsbD_or, getLsbD_one_shift _ _ h]

theorem flag_setFlag_bit (s : State) (o i j : Nat) (h : i < 32) (hj : j ≠ i) : (s.setFlag o i).flag o j = s.flag o j := by
  rw [flag_getLsbD, flag_getLsbD]
  simp [State.setFlag, BitVec.getLsbD_or, getLsbD_one_shift _ _ h, Ne.symm hj]

theorem flag_clearFlag_self (s : State) (o i : Nat) (h : i < 32) : (s.clearFlag o i).flag o i = false := by
  rw [flag_getLsbD]
  simp [State.clearFlag, BitVec.getLsbD_and, BitVec.getLsbD_not, getLsbD_one_shift _ _ h]

theorem flag_clearFlag_bit (s : State) (o i j : Nat) (h : i < 32) (hj : j ≠ i) : (s.clearFlag o i).flag o j = s.flag o j := by
  rw [flag_getLsbD, flag_getLsbD]
  by_cases h32 : j < 32
  · simp [State.clearFlag, BitVec.getLsbD_and, BitVec.getLsbD_not, getLsbD_one_shift _ _ h, Ne.symm hj, h32]
    intro _
    omega
  · rw [BitVec.getLsbD_of_ge _ _ (by omega), BitVec.getLsbD_of_ge _ _ (by omega)]

theorem reg_setFlag_ne (s : State) {o p : Nat} (i : Nat) (h : p ≠ o) : (s.setFlag o i).reg p = s.reg p := reg_setReg_ne s _ h

theorem reg_clearFlag_ne (s : State) {o p : Nat} (i : Nat) (h : p ≠ o) : (s.clearFlag o i).reg p = s.reg p := reg_setReg_ne s _ h

theorem flag_setReg_ne (s : State) {o p : Nat} (v : W32) (i : Nat) (h : p ≠ o) : (s.setReg o v).flag p i = s.flag p i := by
  simp only [State.flag, reg_setReg_ne s v h]

theorem fld_setReg_ne (s : State) {o p : Nat} (v : W32) (hi lo : Nat) (h : p ≠ o) : (s.setReg o v).fld p hi lo = s.fld p hi lo := by
  simp only [State.fld, reg_setReg_ne s v h]

theorem flag_setFlag_ne (s : State) {o p : Nat} (j i : Nat) (h : p ≠ o) : (s.setFlag o j).flag p i = s.flag p i :=
  flag_setReg_ne s _ i h

theorem flag_clearFlag_ne (s : State) {o p : Nat} (j i : Nat) (h : p ≠ o) : (s.clearFlag o j).flag p i = s.flag p i :=
  flag_setReg_ne s _ i h

theorem fld_setFlag_ne (s : State) {o p : Nat} (j hi lo : Nat) (h : p ≠ o) : (s.setFlag o j).fld p hi lo = s.fld p hi lo :=
  fld_setReg_ne s _ hi lo h

theorem fld_clearFlag_ne (s : State) {o p : Nat} (j hi lo : Nat) (h : p ≠ o) : (s.clearFlag o j).fld p hi lo = s.fld p hi lo :=
  fld_setReg_ne s _ hi lo h

theorem flag_reg {s t : State} {o : Nat} (h : s.reg o = t.reg o) (i : Nat) : s.flag o i = t.flag o i := by
  simp only [State.flag, h]

theorem flag_regs {s t : State} (h : s.regs = t.regs) (o i : Nat) : s.flag o i = t.flag o i := by
  simp only [State.flag, State.reg, h]

theorem fld_regs {s t : State} (h : s.regs = t.regs) (o hi lo : Nat) : s.fld o hi lo = t.fld o hi lo := by
  simp only [State.fld, State.reg, h]

/-- Nothing is logged while the device does not record. -/
theorem logRecord_off {s : State} (h : recording s = false) (port kind flags : Nat) (b : W64) (body : List Byte) :
    logRecord port kind flags b body s = s := by
  simp [logRecord, logPut, h]

/-- A message of the companion is only counted while no record log runs. -/
theorem regSeen_counts (rq : Requester) (opc tag off v : Nat) {s : State} (h : recording s = false) :
    ∃ q, (isSprue rq = false → q = s.ctr) ∧ regSeen rq opc tag off v s = { s with ctr := q } := by
  have one (k n : Nat) (x : State) (h : recording x = false) :
      ∃ q, x.count k n = { x with ctr := q } ∧ recording (x.count k n) = false := ⟨_, rfl, h⟩
  cases rq with
  | sprue k =>
    unfold regSeen sprueSeen
    simp only
    obtain ⟨q, e, h'⟩ := one 0x181 (((sprueWire (State.sprClass opc) k
      { opc := opc, tag := tag, addr := off % 2 ^ 32 + v <<< 32 } 0 .i false false).length + 63) / 64) s h
    split
    · obtain ⟨q2, e2, h2⟩ := one 0x185 1 _ h'
      refine ⟨q2, fun h => absurd h (by simp [isSprue]), ?_⟩
      rw [logRecord_off h2, e2, e]
    · exact ⟨q, fun h => absurd h (by simp [isSprue]), by rw [logRecord_off h', e]⟩
  | _ => exact ⟨s.ctr, fun _ => rfl, rfl⟩

/-- A write that the gate admits is performed; a message of the companion has been counted before. -/
theorem writeGate_admitted {s : State} {rq : Requester} {off : Nat} {v : W32} (h : Admitted s rq off v) :
    ∃ q, (isSprue rq = false → q = s.ctr) ∧ ∀ go, writeGate rq off v go s = go { s with ctr := q } := by
  obtain ⟨d, hd, ha, hb⟩ := h.here
  have hr : replayDenies s rq off = false := by
    cases hs : isSprue rq
    · simp [replayDenies, hs]
    · simp [replayDenies, (h.carried hs).2.1]
  have hbo : bootDenies s rq off true = false := by
    cases hs : isSprue rq
    · simp [bootDenies, hs]
    · simp [bootDenies, (h.carried hs).2.2.2]
  have hup : (isSprue rq && !sprUp s) = false := by
    cases hs : isSprue rq
    · rfl
    · simp [(h.carried hs).1]
  have hq : ∃ q, (isSprue rq = false → q = s.ctr) ∧ regSeen rq 0x15 0 off v.toNat s = { s with ctr := q } := by
    cases hs : isSprue rq
    · exact ⟨s.ctr, fun _ => rfl, by cases rq <;> first | rfl | simp [isSprue] at hs⟩
    · obtain ⟨q, -, e⟩ := regSeen_counts rq 0x15 0 off v.toNat (h.carried hs).2.2.1
      exact ⟨q, fun h => by simp at h, e⟩
  obtain ⟨q, hq, e⟩ := hq
  refine ⟨q, hq, fun go => ?_⟩
  unfold writeGate
  rw [e]
  have hr : replayDenies { s with ctr := q } rq off = false := hr
  simp only [hup, Bool.false_eq_true, ↓reduceIte, hr]
  unfold writeAccess
  have h1 : regPresent { s with ctr := q } off = some d := hd
  have h2 : wipeDenies { s with ctr := q } off true = false := h.noWipe
  have h3 : bootDenies { s with ctr := q } rq off true = false := hbo
  have h4 : admits { s with ctr := q } rq d.cls = true := ha
  have h5 : sealDenies { s with ctr := q } rq off v = false := h.noSeal
  have h6 : d.rwp ≠ 0 → blockBusy { s with ctr := q } off = false := hb
  simp only [h.aligned, h1, h2, h3, h4, h5, Bool.false_eq_true, ↓reduceIte, Bool.not_true, Bool.or_self]
  by_cases h0 : d.rwp = 0
  · simp [h0]
  · simp [h6 h0]

/-- A write whose effect is `go` performs it. -/
theorem performs_of {s : State} {rq : Requester} {i : Instr} {off : Nat} {v : W32} {go : State → State}
    (h : Admitted s rq off v) (e : exec i s = .next (writeGate rq off v go s)) : Performs s rq i go := by
  obtain ⟨q, hq, hg⟩ := writeGate_admitted h
  exact ⟨q, hq, by rw [e, hg]⟩

theorem within_lt {n lim : Nat} {go : State → State} {s : State} (h : n < lim) : within n lim go s = go s := by
  simp [within, h]

theorem setReg_wc (s : State) (o : Nat) (v : W32) (n : Nat) : (s.setReg o v).wc n = s.wc n := rfl

theorem storeReg_touches (o : Nat) (v : W32) (s : State) : ∃ r p, storeReg o v s = { s with regs := r, parityBad := p } := by
  unfold storeReg
  split
  · exact ⟨_, _, rfl⟩
  · exact ⟨_, _, rfl⟩

theorem storeReg_reg_ne (o p : Nat) (v : W32) (s : State) (h : p ≠ o) : (storeReg o v s).reg p = s.reg p := by
  unfold storeReg
  split
  · rfl
  · exact reg_setReg_ne _ _ h

theorem storeReg_reg {o : Nat} {d : RegDesc} (v : W32) (s : State) (h : regAt o = some d) :
    (storeReg o v s).reg o = (s.reg o &&& ~~~(BitVec.ofNat 32 (d.rw + d.rwp))) ||| (v &&& BitVec.ofNat 32 (d.rw + d.rwp)) := by
  unfold storeReg
  simp only [h]
  rw [reg_setReg_self]

set_option maxRecDepth 20000 in

theorem nqCtl_rw : ∀ n, n < 64 → (regAt (Reg.nqCtl n)).map (fun d => d.rw + d.rwp) = some 0xFF1F001D := by decide

theorem flag_store {o : Nat} {m : Nat} (v : W32) (s : State) (i : Nat) (h : (regAt o).map (fun d => d.rw + d.rwp) = some m)
    (hm : (BitVec.ofNat 32 m).getLsbD i = true) (hi : i < 32) : (storeReg o v s).flag o i = v.getLsbD i := by
  cases hd : regAt o with
  | none => rw [hd] at h; cases h
  | some d =>
    rw [hd] at h
    simp only [Option.map_some, Option.some.injEq] at h
    rw [flag_getLsbD, storeReg_reg v s hd, h]
    simp only [BitVec.getLsbD_or, BitVec.getLsbD_and, BitVec.getLsbD_not, hm]
    simp

theorem nqCtl_store (n : Nat) (v : W32) (s : State) (i : Nat) (hn : n < 64) (hi : i = 0 ∨ i = 3) :
    (storeReg (Reg.nqCtl n) v s).flag (Reg.nqCtl n) i = v.getLsbD i := by
  refine flag_store v s i (nqCtl_rw n hn) ?_ (by omega)
  rcases hi with rfl | rfl <;> decide

end Sys2Proof.Machine
end

