-- ==== Sys2Proof/Laws/Notices.lean ====
section
/-! SUPPORT. Which registers a notice leaves as they were. -/

namespace Sys2Proof.Machine

theorem count_reg (s : State) (i n o : Nat) : (s.count i n).reg o = s.reg o := rfl

theorem sprSend_reg (m : SprMsg) (s : State) (o : Nat) : (s.sprSend m).reg o = s.reg o := by
  obtain ⟨c, p, e⟩ := sprSend_touches m s
  rw [e]; rfl

theorem raiseInt_reg (v : Nat) (s : State) {o : Nat} (h : o < 0xA00040 ∨ 0xA00060 ≤ o) : (raiseInt v s).reg o = s.reg o := by
  unfold raiseInt
  dsimp only
  split
  · rw [sprSend_reg]; rfl
  · refine reg_setFlag_ne s _ ?_
    simp only [Reg.sprIntPending]
    omega

theorem nqLevel_reg (q : Nat) (s : State) {o : Nat} (h : o < 0xA00040 ∨ 0xA00060 ≤ o) (hq : o ≠ Reg.nqIntStatus q) :
    (nqLevel q s).reg o = s.reg o := by
  unfold nqLevel
  dsimp only
  split
  · rw [raiseInt_reg _ _ h]; exact reg_setFlag_ne s _ hq
  · rfl

/-- A post changes only registers of its queue, the interrupts that wait and CRU_ERR_STATUS. -/
theorem nqPost_reg (q source : Nat) (sw : Bool) (type prio payload : Nat) (s : State) {o : Nat} (hq : q < 64)
    (h : (o < 0x300000 ∨ 0x301000 ≤ o) ∧ (o < 0xA00040 ∨ 0xA00060 ≤ o) ∧ o ≠ Reg.cruErrStatus) :
    (nqPost q source sw type prio payload s).1.reg o = s.reg o := by
  have h1 : o ≠ Reg.nqIntStatus q := by simp only [Reg.nqIntStatus]; omega
  have h2 : o ≠ Reg.nqDrops q := by simp only [Reg.nqDrops]; omega
  have h3 : o ≠ Reg.nqPosted q := by simp only [Reg.nqPosted]; omega
  unfold nqPost
  split
  · exact reg_setFlag_ne s _ h1
  · split
    · rfl
    · split
      · exact reg_setFlag_ne s _ h.2.2
      · split
        · change ((s.setFlag (Reg.nqIntStatus q) 2).addSat (Reg.nqDrops q) 1).reg o = s.reg o
          rw [State.addSat, reg_setReg_ne _ _ h2, reg_setFlag_ne s _ h1]
        · dsimp only
          rw [nqLevel_reg _ _ h.2.1 h1]
          exact reg_setReg_ne s _ h3

/-- A post that its poster does not see changes no other register either. -/
theorem postNotice_reg (q source : Nat) (sw : Bool) (type prio payload : Nat) (s : State) {o : Nat} (hq : q < 64)
    (h : (o < 0x300000 ∨ 0x301000 ≤ o) ∧ (o < 0xA00040 ∨ 0xA00060 ≤ o) ∧ o ≠ Reg.cruErrStatus) :
    (postNotice q source sw type prio payload s).reg o = s.reg o := by
  unfold postNotice
  split
  · rfl
  · exact nqPost_reg _ _ _ _ _ _ _ hq h

theorem fld_lt (s : State) (o hi lo : Nat) : s.fld o hi lo < 2 ^ (hi + 1 - lo) := Nat.mod_lt _ (Nat.two_pow_pos _)

theorem errLog_reg (type source payload : Nat) (s : State) {o : Nat}
    (h : (o < 0x300000 ∨ 0x301000 ≤ o) ∧ (o < 0xA00040 ∨ 0xA00060 ≤ o) ∧ o ≠ Reg.cruErrStatus) :
    (errLog type source payload s).reg o = s.reg o :=
  postNotice_reg _ _ _ _ _ _ _ (fld_lt s Reg.rsrCtl 11 6) h

theorem rglNotice_reg (type prio payload : Nat) (s : State) {o : Nat}
    (h : (o < 0x300000 ∨ 0x301000 ≤ o) ∧ (o < 0xA00040 ∨ 0xA00060 ≤ o) ∧ o ≠ Reg.cruErrStatus) :
    (rglNotice type prio payload s).reg o = s.reg o := by
  unfold rglNotice
  dsimp only
  have := postNotice_reg (s.fld Reg.rglCtl 5 0) 0x200 false type prio payload s (fld_lt s Reg.rglCtl 5 0) h
  split
  · rw [raiseInt_reg _ _ h.2.1, this]
  · exact this

theorem rglNotice_touches (type prio payload : Nat) (s : State) :
    ∃ r c n p l, rglNotice type prio payload s = { s with regs := r, ctr := c, nqs := n, spr := p, held := l } := by
  unfold rglNotice
  dsimp only
  obtain ⟨r, c, n, p, l, e⟩ := postNotice_touches (s.fld Reg.rglCtl 5 0) 0x200 false type prio payload s
  rw [e]
  split
  · generalize hu : ({ s with regs := r, ctr := c, nqs := n, spr := p, held := l } : State) = u
    obtain ⟨r2, c2, p2, e2⟩ := raiseInt_touches (u.fld Reg.rglCtl 31 24) u
    rw [e2, ← hu]
    exact ⟨_, _, _, _, _, rfl⟩
  · exact ⟨r, c, n, p, l, rfl⟩

end Sys2Proof.Machine
end

