-- ==== Sys2Proof/Laws/Sends.lean ====
section
/-! SUPPORT. What sending a message on the runner links can change. -/

namespace Sys2Proof.Machine

/-- What sending a message on the runner links can change. -/
def SendsOnly (s t : State) : Prop :=
  ∃ r c ls ro lp b, t = { s with regs := r, ctr := c, links := ls, runOut := ro, localPath := lp, bt := b }

theorem stampSync_touches (l : Nat) (m : RunMsg) (s : State) : ∃ b, (stampSync l m s).2 = { s with bt := b } := by
  unfold stampSync
  dsimp only
  split
  · split <;> exact ⟨_, rfl⟩
  · exact ⟨_, rfl⟩

theorem transmit_touches (l : Nat) (m : RunMsg) (s : State) : SendsOnly s (transmit l m s) := by
  obtain ⟨b, h⟩ := stampSync_touches l m s
  unfold transmit
  dsimp only
  rw [h]
  exact ⟨_, _, _, _, _, _, rfl⟩

theorem linkSend_touches (l : Nat) (m : RunMsg) (s : State) : SendsOnly s (linkSend l m s) := by
  unfold linkSend
  split
  · exact ⟨_, _, _, _, _, _, rfl⟩
  · split
    · exact ⟨_, _, _, _, _, _, rfl⟩
    · exact transmit_touches l m s

theorem localSend_touches (m : RunMsg) (s : State) : SendsOnly s (localSend m s) := ⟨_, _, _, _, _, _, rfl⟩

theorem addSat_sends (o n : Nat) (s : State) : SendsOnly s (s.addSat o n) := ⟨_, _, _, _, _, _, rfl⟩

theorem sendAnswer_touches (m : RunMsg) (hop : Hop) (s : State) : SendsOnly s (sendAnswer m hop s) := by
  unfold sendAnswer
  split
  · exact localSend_touches _ _
  · exact linkSend_touches _ _ _
  · exact addSat_sends _ _ _

theorem refuseHop_touches (m : RunMsg) (s : State) : SendsOnly s (refuseHop m s) := by
  unfold refuseHop
  split
  · exact addSat_sends _ _ _
  · exact sendAnswer_touches _ _ _

theorem takeHop_touches (m : RunMsg) (hop : Hop) (s : State) : SendsOnly s (takeHop m hop s) := by
  unfold takeHop
  split
  · exact localSend_touches _ _
  · exact addSat_sends _ _ _
  · split
    · exact ⟨_, _, _, _, _, _, rfl⟩
    · exact refuseHop_touches _ _
  · exact linkSend_touches _ _ _

theorem route_touches (arr : Option Nat) (m : RunMsg) (s : State) : SendsOnly s (route arr m s) := takeHop_touches _ _ _

/-- What sending a message of this device can change. -/
theorem runSend_touches (m : RunMsg) (s : State) : SendsOnly s (runSend m s) := by
  unfold runSend
  split
  · exact addSat_sends _ _ _
  · split
    · exact localSend_touches _ _
    · exact route_touches _ _ _

theorem neighbourSend_touches (axis : Nat) (minus : Bool) (m : RunMsg) (s : State) : SendsOnly s (neighbourSend axis minus m s) := by
  unfold neighbourSend
  split
  · exact addSat_sends _ _ _
  · exact takeHop_touches _ _ _

theorem raccSend_touches (m : RunMsg) (s : State) : SendsOnly s (raccSend m s) := by
  unfold raccSend
  split
  · exact localSend_touches _ _
  · exact runSend_touches _ _

end Sys2Proof.Machine
end

