-- ==== Sys2Proof/Laws/CoreFaults.lean ====
section
/-! SUPPORT. What core faults, their advice and the loss of a core leave as it was. -/

namespace Sys2Proof.Machine

theorem requestFor_touches (ri k d i : Nat) (t : State) :
    ∃ r ct n p g f l, requestFor ri k d i t = { t with regs := r, ctr := ct, nqs := n, spr := p, rgl := g, free := f, held := l } := by
  unfold requestFor
  dsimp only
  generalize hq : ({ id := t.draw.2.rgl.nextId, kind := k, die := d, index := i, est := t.draw.1.toNat % 2 ^ 16, riser := ri } : RepairReq) = q
  generalize hx : State.setFlag _ Reg.rglStatus 5 = x
  obtain ⟨r, c, n, p, l, e⟩ := rglNotice_touches 0x73 3 (t.draw.2.rgl.nextId + k <<< 16 + d <<< 24 + i <<< 32 + (t.draw.1.toNat % 2 ^ 16) <<< 64) x
  rw [e, ← hx]
  exact ⟨r, c, n, p, _, _, l, rfl⟩

theorem requestFor_reg (ri k d i : Nat) (t : State) {o : Nat}
    (h : (o < 0x300000 ∨ 0x301000 ≤ o) ∧ (o < 0xA00040 ∨ 0xA00060 ≤ o) ∧ o ≠ Reg.cruErrStatus) (ho : o ≠ Reg.rglStatus) :
    (requestFor ri k d i t).reg o = t.reg o := by
  unfold requestFor
  dsimp only
  rw [rglNotice_reg _ _ _ _ h]
  exact reg_setFlag_ne _ _ ho

/-- What an operation that only advises or asks for a window changes. -/
def Advises (s t : State) : Prop :=
  ∃ r ct n p g f l, t = { s with regs := r, ctr := ct, nqs := n, spr := p, rgl := g, free := f, held := l }

theorem Advises.refl (s : State) : Advises s s := ⟨_, _, _, _, _, _, _, rfl⟩

theorem Advises.trans {s t u : State} (h1 : Advises s t) (h2 : Advises t u) : Advises s u := by
  obtain ⟨r, ct, n, p, g, f, l, rfl⟩ := h1
  obtain ⟨r', ct', n', p', g', f', l', rfl⟩ := h2
  exact ⟨r', ct', n', p', g', f', l', rfl⟩

theorem advise_touches (ri d i : Nat) (s : State) : Advises s (advise ri d i s) := by
  have h1 : Advises s (spareNotice true ri d i s) := by
    obtain ⟨r, c, n, p, l, e⟩ := rglNotice_touches 0x72 3 (ri + d <<< 8 + i <<< 32) s
    exact ⟨r, c, n, p, _, _, l, e⟩
  unfold advise
  dsimp only
  split
  · exact h1
  · exact h1.trans (requestFor_touches ..)

theorem advise_reg (ri d i : Nat) (s : State) {o : Nat}
    (h : (o < 0x300000 ∨ 0x301000 ≤ o) ∧ (o < 0xA00040 ∨ 0xA00060 ≤ o) ∧ o ≠ Reg.cruErrStatus) (ho : o ≠ Reg.rglStatus) :
    (advise ri d i s).reg o = s.reg o := by
  have h1 : (spareNotice true ri d i s).reg o = s.reg o := rglNotice_reg _ _ _ _ h
  unfold advise
  dsimp only
  split
  · exact h1
  · rw [requestFor_reg _ _ _ _ _ h ho, h1]

theorem faultAdvice_touches (c act : Nat) (a b : Bool) (s : State) : Advises s (faultAdvice c act a b s) := by
  have h1 : ∀ p : Prop, ∀ _ : Decidable p, Advises s (if p then advise 1 (dieOf c) (c % 8) s else s) := by
    intro p _; split
    · exact advise_touches ..
    · exact Advises.refl s
  have h2 : ∀ x, Advises s x → Advises s (if act = 0 then addRequest 1 (dieOf c) (c % 8) x else x) := by
    intro x hx; split
    · exact hx.trans (requestFor_touches ..)
    · exact hx
  unfold faultAdvice
  dsimp only
  cases Tab.get none s.rgl.coreFaults c <;> dsimp only <;> split <;>
    first | exact Advises.refl s | exact h2 _ (h1 _ _)

theorem faultAdvice_reg (c act : Nat) (a b : Bool) (s : State) {o : Nat}
    (h : 0x410000 ≤ o ∧ o < 0x420000) : (faultAdvice c act a b s).reg o = s.reg o := by
  have hh : (o < 0x300000 ∨ 0x301000 ≤ o) ∧ (o < 0xA00040 ∨ 0xA00060 ≤ o) ∧ o ≠ Reg.cruErrStatus := by
    simp only [Reg.cruErrStatus]; omega
  have ho : o ≠ Reg.rglStatus := by simp only [Reg.rglStatus]; omega
  have h1 : ∀ p : Prop, ∀ _ : Decidable p, (if p then advise 1 (dieOf c) (c % 8) s else s).reg o = s.reg o := by
    intro p _; split
    · exact advise_reg _ _ _ _ hh ho
    · rfl
  have h2 : ∀ x : State, x.reg o = s.reg o → (if act = 0 then addRequest 1 (dieOf c) (c % 8) x else x).reg o = s.reg o := by
    intro x hx; split
    · exact (requestFor_reg _ _ _ _ _ hh ho).trans hx
    · exact hx
  unfold faultAdvice
  dsimp only
  cases Tab.get none s.rgl.coreFaults c <;> dsimp only <;> split <;>
    first | rfl | exact h2 _ (h1 _ _)

theorem held_clear (k : Core) : k.clearHeld.held = false := by
  simp only [Core.held, Core.clearHeld]
  simp

theorem sends_forEach {α : Type} {f : α → State → State} (h : ∀ x s, SendsOnly s (f x s)) (l : List α) (s : State) : SendsOnly s (forEach f l s) := by
  refine forEach_keeps (SendsOnly s) ?_ l s ⟨_, _, _, _, _, _, rfl⟩
  rintro x u ⟨r, c, ls, ro, lp, bt, rfl⟩
  obtain ⟨r2, c2, ls2, ro2, lp2, bt2, e⟩ := h x { s with regs := r, ctr := c, links := ls, runOut := ro, localPath := lp, bt := bt }
  exact ⟨r2, c2, ls2, ro2, lp2, bt2, by rw [e]⟩

theorem reissueTile_frame (c : Nat) (s : State) :
    ∃ r ct ls ro lp bt w, (reissueTile c s).1 = { s with regs := r, ctr := ct, links := ls, runOut := ro, localPath := lp, bt := bt, wcs := w } ∧
      ((s.core c).held = true → (s.core c).tilePairs = [] →
        (s.wc (bits (s.core c).tileHi.toNat 25 16)).reissue.length < 8 →
        (s.fld (Reg.wcGen (bits (s.core c).tileHi.toNat 25 16)) 15 0 + 1) % 2 ^ 16 ≠ (s.wc (bits (s.core c).tileHi.toNat 25 16)).baseGen.toNat →
        (Tab.get {} w (bits (s.core c).tileHi.toNat 25 16)).reissue = (s.wc (bits (s.core c).tileHi.toNat 25 16)).reissue ++ [(s.core c).tileLo]) := by
  unfold reissueTile
  dsimp only
  split
  · rename_i h
    refine ⟨_, _, _, _, _, _, _, rfl, ?_⟩
    intro h1; rw [h1] at h; cases h
  · unfold reissueAt
    dsimp only
    generalize hk : s.core c = k at *
    have send : ∀ (u : State), SendsOnly u (forEach (fun (p : RedPair) (s : State) =>
        raccSend (pairMsg s c 0x13 0 k.tileLo.toNat k.tileHi.toNat 0 p) s) (k.tilePairs.take 4) u) :=
      fun u => sends_forEach (fun x u => raccSend_touches _ u) _ u
    split
    · rename_i h
      obtain ⟨r, ct, ls, ro, lp, bt, e⟩ := send s
      refine ⟨r, ct, ls, ro, lp, bt, _, e, ?_⟩
      intro h1 h2 h3 h4
      split at h
      · omega
      · cases h
    · rename_i t h
      obtain ⟨r, ct, ls, ro, lp, bt, e⟩ := send t
      split at h
      · cases h
      · simp only [Option.some.injEq] at h
        refine ⟨r, ct, ls, ro, lp, bt, t.wcs, by dsimp only; rw [e, ← h]; rfl, ?_⟩
        intro h1 h2 h3 h4
        have : (t.wc (bits k.tileHi.toNat 25 16)).reissue = (s.wc (bits k.tileHi.toNat 25 16)).reissue ++ [k.tileLo] := by
          rw [← h]; simp [State.setFld, setReg_wc]
        exact this

theorem loseCore_cores (c : Nat) (u : State) :
    (loseCore c u).cores = Tab.set {} u.cores c { Tab.get {} u.cores c with mode := .outOfService } := by
  simp only [loseCore, addEntry, State.modCore, State.setCore, State.setFlag, State.clearFlag, State.setFld, State.setReg, State.core]

theorem loseCore_self (c : Nat) (u : State) : (loseCore c u).core c = { u.core c with mode := .outOfService } := by
  simp only [State.core, loseCore_cores, Tab.get_set_self]

theorem loseCore_ne (c : Nat) (u : State) {j : Nat} (h : j ≠ c) : (loseCore c u).core j = u.core j := by
  simp only [State.core, loseCore_cores, Tab.get_set_ne h]

end Sys2Proof.Machine
end

