-- ==== Sys2Proof/Laws/CoreTiles.lean ====
section
/-! SUPPORT. What the notice, tile and stage-queue instructions do. -/

namespace Sys2Proof.Machine

theorem topPrio_ge (l : List W256) (m : Nat) : m ≤ l.foldl (fun m e => max m (noticePrio e)) m ∧
    ∀ e ∈ l, noticePrio e ≤ l.foldl (fun m e => max m (noticePrio e)) m := by
  induction l generalizing m with
  | nil => simp
  | cons a l ih =>
    obtain ⟨h1, h2⟩ := ih (max m (noticePrio a))
    simp only [List.foldl_cons, List.mem_cons]
    refine ⟨by omega, ?_⟩
    rintro e (rfl | he)
    · omega
    · exact h2 e he

theorem topPrio_le (l : List W256) (m b : Nat) (hm : m ≤ b) (h : ∀ e ∈ l, noticePrio e ≤ b) :
    l.foldl (fun m e => max m (noticePrio e)) m ≤ b := by
  induction l generalizing m with
  | nil => exact hm
  | cons a l ih =>
    simp only [List.foldl_cons]
    refine ih _ ?_ (fun e he => h e (by simp [he]))
    have := h a (by simp)
    omega

/-- The oldest entry of the highest priority is the one a pop takes, and its removal leaves the others in order (R68). -/
theorem front_oldest {k : NQueue} {before after : List W256} {e : W256} (hk : k.entries = before ++ e :: after)
    (hb : ∀ b ∈ before, noticePrio b < noticePrio e) (ha : ∀ a ∈ after, noticePrio a ≤ noticePrio e) :
    k.front = some before.length ∧ k.entries.getD before.length 0 = e ∧ k.entries.eraseIdx before.length = before ++ after := by
  have ht : topPrio k.entries = noticePrio e := by
    have h1 := (topPrio_ge k.entries 0).2 e (by simp [hk])
    have h2 := topPrio_le k.entries 0 (noticePrio e) (by omega) (by
      intro x hx
      simp only [hk, List.mem_append, List.mem_cons] at hx
      rcases hx with hx | rfl | hx
      · exact Nat.le_of_lt (hb x hx)
      · exact Nat.le_refl _
      · exact ha x hx)
    unfold topPrio
    omega
  refine ⟨?_, ?_, ?_⟩
  · unfold NQueue.front
    rw [ht, hk]
    clear hk ht
    induction before with
    | nil => simp [List.findIdx?_cons]
    | cons b t ih =>
      have hbe : (noticePrio b == noticePrio e) = false := by
        have := hb b (by simp)
        rw [beq_eq_false_iff_ne]; omega
      have := ih (fun x hx => hb x (by simp [hx]))
      simp [List.findIdx?_cons, hbe, this]
  · rw [hk]; simp
  · rw [hk, List.eraseIdx_append_of_length_le (Nat.le_refl _)]; simp

theorem nq_setReg (s : State) (o : Nat) (v : W32) (q : Nat) : (s.setReg o v).nq q = s.nq q := rfl

/-- What a post leaves of its queue and of the others (R67, R69). -/
theorem nqPost_queue (q source : Nat) (sw : Bool) (type prio payload : Nat) (s : State) :
    let r := nqPost q source sw type prio payload s
    (∀ j, j ≠ q → r.1.nq j = s.nq j) ∧
    (sw = true ∧ (type < 0x10 ∨ 0x3F < type) → r.2 = .refused ∧ r.1.nqs = s.nqs) ∧
    (¬ (sw = true ∧ (type < 0x10 ∨ 0x3F < type)) →
      (nqEnabled s q = false → r = (s, .dropped)) ∧
      (nqEnabled s q = true → nqInWindow s q = true → r = (s.setFlag Reg.cruErrStatus 3, .dropped)) ∧
      (nqEnabled s q = true → nqInWindow s q = false → nqRoom s q ≤ (s.nq q).entries.length → r.2 = .dropped ∧ (r.1.nq q).entries = (s.nq q).entries) ∧
      (nqEnabled s q = true → nqInWindow s q = false → (s.nq q).entries.length < nqRoom s q → r.2 = .accepted ∧
        (r.1.nq q).entries =
          (s.nq q).entries ++ [mkNotice type prio source (s.reg (Reg.nqPosted q)).toNat (s.copyOf (nqDie q)) payload] ∧
        (r.1.nq q).gap = (s.nq q).gap)) := by
  intro r
  have nql : ∀ t : State, (nqLevel q t).nqs = t.nqs := by
    intro t; obtain ⟨a, b, p, e⟩ := nqLevel_touches q t; rw [e]
  by_cases h1 : sw = true ∧ (type < 0x10 ∨ 0x3F < type)
  · have : r = (s.setFlag (Reg.nqIntStatus q) 3, .refused) := by simp only [r, nqPost, if_pos h1]
    rw [this]
    exact ⟨fun _ _ => rfl, fun _ => ⟨rfl, rfl⟩, fun h => absurd h1 h⟩
  by_cases h2 : nqEnabled s q = false
  · have : r = (s, .dropped) := by simp only [r, nqPost, if_neg h1, if_pos h2]
    rw [this]
    exact ⟨fun _ _ => rfl, fun h => absurd h h1, fun _ => ⟨fun _ => rfl, fun h => absurd h (by simp [h2]),
      fun h => absurd h (by simp [h2]), fun h => absurd h (by simp [h2])⟩⟩
  by_cases h4 : nqInWindow s q = true
  · have : r = (s.setFlag Reg.cruErrStatus 3, .dropped) := by simp only [r, nqPost, if_neg h1, if_neg h2, if_pos h4]
    rw [this]
    exact ⟨fun _ _ => rfl, fun h => absurd h h1, fun _ => ⟨fun h => absurd h h2, fun _ _ => rfl,
      fun _ h => absurd h (by simp [h4]), fun _ h => absurd h (by simp [h4])⟩⟩
  by_cases h3 : nqRoom s q ≤ (s.nq q).entries.length
  · have : r = (nqDrop q prio s, .dropped) := by simp only [r, nqPost, if_neg h1, if_neg h2, if_neg h4, if_pos h3]
    rw [this]
    refine ⟨fun j hj => ?_, fun h => absurd h h1, fun _ => ⟨fun h => absurd h h2, fun _ h => absurd h h4, fun _ _ _ => ⟨rfl, ?_⟩,
      fun _ _ h => by omega⟩⟩
    · simp [nqDrop, State.nq, State.modNq, Tab.get_modify_ne hj]
    · simp only [nqDrop, State.nq, State.modNq, Tab.get_modify_self]
      split <;> rfl
  · let we := (s.nq q).entries.isEmpty && (s.nq q).gap.isNone
    let ent := mkNotice type prio source (s.reg (Reg.nqPosted q)).toNat (s.copyOf (nqDie q)) payload
    let g (k : NQueue) : NQueue := { k.append ent with timer := if we then s.beat else k.timer, staleFired := if we then false else k.staleFired }
    let s' := ((s.setReg (Reg.nqPosted q) (s.reg (Reg.nqPosted q) + 1)).count (0x046 + 8 * (q % 16)) 1).modNq q g
    have hr : r = (nqLevel q s', .accepted) := by simp only [r, nqPost, if_neg h1, if_neg h2, if_neg h4, if_neg h3]; rfl
    have hn : s'.nqs = Tab.modify {} s.nqs q g := rfl
    have ge : (g (s.nq q)).entries = (s.nq q).entries ++ [ent] := rfl
    have gg : (g (s.nq q)).gap = (s.nq q).gap := rfl
    rw [hr]
    have hq : (nqLevel q s').nqs = Tab.modify {} s.nqs q g := by rw [nql, hn]
    refine ⟨fun j hj => ?_, fun h => absurd h h1, fun _ => ⟨fun h => absurd h h2, fun _ h => absurd h h4, fun _ _ h => absurd h h3,
      fun _ _ _ => ⟨rfl, ?_, ?_⟩⟩⟩
    · simp only [State.nq, hq, Tab.get_modify_ne hj]
    · simp only [State.nq, hq, Tab.get_modify_self]; exact ge
    · simp only [State.nq, hq, Tab.get_modify_self]; exact gg

theorem finish_after {s : State} {c : Nat} {f : Core → Core} {t : State} (hf : (s.core c).hold = none)
    (ht : t.cores = s.cores) : (finish c 8 f t).core c = (f (s.core c)).retire 8 t.beat ∧ OthersKeep s (finish c 8 f t) c := by
  have h1 : t.core c = s.core c := by simp only [State.core, ht]
  refine ⟨?_, ?_⟩
  · rw [finish_core, h1, noHold hf]
  · intro j hj
    simp only [finish, State.core, State.setCore, Tab.get_set_ne hj, ht]

theorem clearHeld_of_not_held {k : Core} (h : k.held = false) : k.clearHeld = k := by
  have hb : k.tileHi.getLsbD 31 = false := h
  have : k.tileHi &&& 0x7FFFFFFF#32 = k.tileHi := by
    apply BitVec.eq_of_getLsbD_eq
    intro i hi
    rw [BitVec.getLsbD_and]
    by_cases h31 : i = 31
    · rw [h31, hb]; rfl
    · have : (0x7FFFFFFF#32).getLsbD i = true := by
        have : ∀ j : Fin 32, j.val ≠ 31 → (0x7FFFFFFF#32).getLsbD j.val = true := by decide
        exact this ⟨i, hi⟩ h31
      rw [this, Bool.and_true]
  simp [Core.clearHeld, this]

theorem tilePairs_nil {k : Core} (h : k.tilePairs = []) : ({ k with tilePairs := [] } : Core) = k := by
  cases k; simp_all

/-- Committing a tile with no contributions only gives it up. -/
theorem commitTile_none {c : Nat} {s : State} (h : (s.core c).tilePairs = []) :
    commitTile c s = s.modCore c Core.clearHeld := by
  unfold commitTile
  simp only
  split
  · rw [h]; simp only [forEach]
    unfold State.modCore
    congr 1
    exact tilePairs_nil (k := (s.core c).clearHeld) h
  · rename_i hh
    have hh' : (s.core c).held = false := by simpa using hh
    unfold State.modCore
    congr 1
    exact (tilePairs_nil h).trans (clearHeld_of_not_held hh').symm

theorem takeWord_lo (gen : Nat) (i : W32) (d e : Bool) : (takeWord d e i.toNat gen).setWidth 32 = i := by
  apply BitVec.eq_of_toNat_eq
  have hi := i.isLt
  simp only [takeWord, BitVec.toNat_setWidth, BitVec.toNat_ofNat, Nat.shiftLeft_eq]
  omega

theorem takeWord_hi {gen : Nat} (hgen : gen < 2 ^ 16) (i : W32) : bits (takeWord false false i.toNat gen).toNat 47 32 = gen := by
  have hi := i.isLt
  simp only [takeWord, BitVec.toNat_ofNat, Nat.shiftLeft_eq, bits, Nat.shiftRight_eq_div_pow, b2n]
  simp only [Bool.false_eq_true, if_false]
  omega

theorem takeWord_tile {gen : Nat} (hgen : gen < 2 ^ 16) (i : W32) :
    takeWord false false i.toNat gen = BitVec.ofNat 64 (i.toNat + gen * 2 ^ 32) := by
  apply BitVec.eq_of_toNat_eq
  have hi := i.isLt
  simp only [takeWord, BitVec.toNat_ofNat, Nat.shiftLeft_eq, b2n, Bool.false_eq_true, if_false]
  omega

theorem takeWord_end {gen : Nat} (hgen : gen < 2 ^ 16) (i : W32) :
    takeWord false true i.toNat gen = BitVec.ofNat 64 (i.toNat + gen * 2 ^ 32 + 2 ^ 63) := by
  apply BitVec.eq_of_toNat_eq
  have hi := i.isLt
  simp only [takeWord, BitVec.toNat_ofNat, Nat.shiftLeft_eq, b2n, Bool.false_eq_true, if_false, if_true]
  omega

/-- The commits of a tile whose owners are all this device go to the local path in order (R308). -/
theorem commitTile_local {c : Nat} {s : State} (h : ∀ p ∈ (s.core c).tilePairs, p.owner = ownId s) :
    commitTile c s = { s.setCore c { (s.core c).clearHeld with tilePairs := [] } with
      localPath := s.localPath ++ (if (s.core c).held then (s.core c).tilePairs.map fun p =>
        pairMsg s c 0x11 (dataVc (ownId s) p.owner) (s.core c).tileLo.toNat (s.core c).tileHi.toNat 0 p else []) } := by
  have go : ∀ (l : List RedPair) (t : State), t = { s with localPath := t.localPath } → (∀ p ∈ l, p.owner = ownId s) →
      forEach (fun p t => raccSend (pairMsg t c 0x11 (dataVc (ownId t) p.owner) (s.core c).tileLo.toNat (s.core c).tileHi.toNat 0 p) t) l t =
        { s with localPath := t.localPath ++ l.map fun p => pairMsg s c 0x11 (dataVc (ownId s) p.owner) (s.core c).tileLo.toNat (s.core c).tileHi.toNat 0 p } := by
    intro l
    induction l with
    | nil => intro t ht _; simp only [forEach, List.map_nil, List.append_nil]; exact ht
    | cons p l ih =>
      intro t ht hl
      simp only [forEach]
      have hm : pairMsg t c 0x11 (dataVc (ownId t) p.owner) (s.core c).tileLo.toNat (s.core c).tileHi.toNat 0 p =
          pairMsg s c 0x11 (dataVc (ownId s) p.owner) (s.core c).tileLo.toNat (s.core c).tileHi.toNat 0 p := by rw [ht]; rfl
      have hown : ownId t = ownId s := by rw [ht]; rfl
      have hd : (pairMsg s c 0x11 (dataVc (ownId s) p.owner) (s.core c).tileLo.toNat (s.core c).tileHi.toNat 0 p).dest = ownId t := by
        rw [hown]; exact hl p (by simp)
      rw [hm, raccSend, if_pos hd, ih]
      · simp [localSend]
      · rw [localSend, ht]
      · intro q hq; exact hl q (by simp [hq])
  unfold commitTile
  simp only
  split
  · have e := go (s.core c).tilePairs s rfl h
    rw [show forEach _ (s.core c).tilePairs s = _ from e]
    rfl
  · rename_i hh
    have hh' : (s.core c).held = false := by simpa using hh
    simp only [List.append_nil, State.modCore, clearHeld_of_not_held hh']
    rfl

theorem finish_eq_modCore (c len : Nat) (f : Core → Core) (s : State) :
    finish c len f s = s.modCore c fun k => (f { k with hold := none }).retire len s.beat := rfl

theorem ended {k k' : Core} {b : W64} (hq : k.dmaQ = [] ∧ k.mxeQ = [] ∧ k.vecQ = []) (he : k.endPairs = []) (hs : k.stopping = false) (hk : k' = { k.clearHeld with endPairs := [], hold := none }) :
    Core.endPart (k'.retire 8 b) =
      { k.retire 8 b with mode := .idle, hold := none, prev := true, tileHi := k.tileHi &&& 0x7FFFFFFF#32 } := by
  obtain ⟨h1, h2, h3⟩ := hq
  subst hk
  cases k
  simp only at h1 h2 h3 he hs
  subst h1 h2 h3 he hs
  simp [Core.endPart, Core.retire, Core.clearHeld, Core.dropQueues, BitVec.and_assoc]

/-- A reservation that finds the credits it needs (R75), of a queue whose two ends are here. -/
theorem sqReserve_ok {q len : Nat} {s : State} (hon : sqHas s q 1 = true) (hr : sqRemote s q = false)
    (h1 : slotsFor s q len ≤ sqSlots s q) (h2 : slotsFor s q len ≤ sqCredits s q) :
    sqReserve q len s = (.ok (s.fld (Reg.sqBaseHi q) 15 0 * 2 ^ 32 + s.fld (Reg.sqBaseLo q) 31 12 * 4096 + (s.sq q).next * sqSlot s q),
      s.modSq q fun k => { k with next := (k.next + slotsFor s q len) % sqSlots s q, used := k.used + slotsFor s q len, reserved := k.reserved ++ [{ first := (s.sq q).next, count := slotsFor s q len, len := none }] }) := by
  have e1 : ¬ sqSlots s q < slotsFor s q len := by omega
  have e2 : ¬ sqCredits s q < slotsFor s q len := by omega
  have e3 : ∀ f, sqRemote (s.modSq q f) q = false := fun f => hr
  simp only [sqReserve, hon, e1, e2, if_false, reduceCtorEq]
  rw [if_neg (by rw [e3]; simp)]
  have : ∀ f, sqBase (s.modSq q f) q = s.fld (Reg.sqBaseHi q) 15 0 * 2 ^ 32 + s.fld (Reg.sqBaseLo q) 31 12 * 4096 := by
    intro f
    simp only [sqBase, e3]
    rfl
  rw [this]
  rfl

theorem splitPublished_first {e : SqEntry} {more : List SqEntry} (h : e.len.isSome = true) (hm : ∀ m ∈ more, m.len = none) :
    splitPublished (e :: more) = ([e], more) := by
  have hs : splitPublished more = ([], more) := by
    cases more with
    | nil => rfl
    | cons m t =>
      have := hm m (by simp)
      simp [splitPublished, this]
  simp [splitPublished, h, hs]

/-- A core that waits with nothing met, the Crucible not holding, runs the body of its held instruction again when woken. -/
theorem wakeRetry_eq {s : State} {c o : Nat} {h : Hold} {op : CoreOp} (hh : (s.core c).hold = some h) (ho : bits h.w.toNat 62 56 = o)
    (hop : coreOp h.w.toNat = some op) (hcr : cruHolds s = false) (hm : h.met = false)
    (hst : (s.core c).stopping = false) : wakeRetry o c s = coreBody op c h.w.toNat h.e.toNat (s.modCore c fun k => { k with hold := none }) := by
  simp only [wakeRetry, hh, ho, retryCore, hop, hcr, hm, hst, if_true, Bool.false_and, Bool.false_eq_true, if_false]

theorem op_sqres {n : Nat} (h : coreOp n = some .sqres) : bits n 62 56 = 0x71 := by
  have : Iw.op n = 0x71 := by
    unfold coreOp at h
    split at h <;> simp_all <;> (repeat' split at h) <;> simp_all
  exact this

theorem op_sqpop {n : Nat} (h : coreOp n = some .sqpop) : bits n 62 56 = 0x73 := by
  have : Iw.op n = 0x73 := by
    unfold coreOp at h
    split at h <;> simp_all <;> (repeat' split at h) <;> simp_all
  exact this

theorem modSq_cores (s : State) (q : Nat) (f) : (s.modSq q f).cores = s.cores := rfl

theorem modSq_beat (s : State) (q : Nat) (f) : (s.modSq q f).beat = s.beat := rfl

theorem stepTaken_beat (s : State) (c : Nat) : (stepTaken c s).beat = s.beat := rfl

theorem modSq_mem (s : State) (q : Nat) (f) : (s.modSq q f).mem = s.mem := rfl

theorem modSq_regs (s : State) (q : Nat) (f) : (s.modSq q f).regs = s.regs := rfl

theorem stepTaken_mem (s : State) (c : Nat) : (stepTaken c s).mem = s.mem := rfl

theorem stepTaken_regs (s : State) (c : Nat) : (stepTaken c s).regs = s.regs := rfl

theorem finish_mem (c n : Nat) (f) (s : State) : (finish c n f s).mem = s.mem := rfl

theorem finish_regs (c n : Nat) (f) (s : State) : (finish c n f s).regs = s.regs := rfl

theorem stepTaken_cores (s : State) (c : Nat) : (stepTaken c s).cores = s.cores := rfl

end Sys2Proof.Machine
end

