-- ==== Sys2Proof/Laws/CoreVector.lean ====
section
/-! SUPPORT. Lanes and what the vector instructions do. -/

namespace Sys2Proof.Machine

theorem upFrom_range (n : Nat) : upFrom 0 n = List.range n := by
  have : ∀ m, upFrom m n = List.range' m n := by
    induction n with
    | zero => intro m; rfl
    | succ n ih => intro m; simp [upFrom, ih, List.range'_succ]
  rw [this, List.range_eq_range']

theorem packLanes_lt (w : Nat) (l : List Nat) : packLanes w l < 2 ^ (w * l.length) := by
  induction l with
  | nil => simp [packLanes]
  | cons x t ih =>
    simp only [packLanes, List.length_cons]
    have h1 : x % 2 ^ w < 2 ^ w := Nat.mod_lt _ (Nat.two_pow_pos w)
    have : 2 ^ (w * (t.length + 1)) = 2 ^ w * 2 ^ (w * t.length) := by rw [Nat.mul_add, Nat.pow_add, Nat.mul_one, Nat.mul_comm]
    rw [this]
    calc x % 2 ^ w + 2 ^ w * packLanes w t < 2 ^ w + 2 ^ w * packLanes w t := by omega
      _ = 2 ^ w * (packLanes w t + 1) := by rw [Nat.mul_add]; omega
      _ ≤ _ := Nat.mul_le_mul_left _ ih

theorem packLanes_get (w : Nat) (l : List Nat) (i : Nat) (hi : i < l.length) :
    packLanes w l / 2 ^ (w * i) % 2 ^ w = l.getD i 0 % 2 ^ w := by
  induction l generalizing i with
  | nil => simp at hi
  | cons x t ih =>
    have hp := Nat.two_pow_pos w
    cases i with
    | zero => simp [packLanes, Nat.add_mul_mod_self_left]
    | succ i =>
      simp only [List.length_cons] at hi
      have e : 2 ^ (w * (i + 1)) = 2 ^ w * 2 ^ (w * i) := by rw [Nat.mul_add, Nat.pow_add, Nat.mul_one, Nat.mul_comm]
      simp only [packLanes, e, ← Nat.div_div_eq_div_mul, Nat.add_mul_div_left _ _ hp,
        Nat.div_eq_of_lt (Nat.mod_lt x hp), Nat.zero_add, List.getD_cons_succ]
      exact ih i (by omega)

/-- A lane of a register written lane by lane. -/
theorem lane_ofLanes (w : Nat) (l : List Nat) (i : Nat) (hi : i < l.length) (hw : w * l.length ≤ 2048) :
    ((ofLanes w l).extractLsb' (w * i) w).toNat = l.getD i 0 % 2 ^ w := by
  have h : packLanes w l < 2 ^ 2048 := Nat.lt_of_lt_of_le (packLanes_lt w l) (Nat.pow_le_pow_right (by decide) hw)
  simp only [ofLanes, BitVec.extractLsb'_toNat, BitVec.toNat_ofNat, Nat.mod_eq_of_lt h, Nat.shiftRight_eq_div_pow]
  exact packLanes_get w l i hi

theorem mapLanes_spec (on : Nat → Bool) (per : Nat) (f : Nat → Nat × Conds) (m : Nat) (l : List Nat) :
    (mapLanes on per f m l).1.length = l.length ∧
    (∀ i, i < l.length → (mapLanes on per f m l).1.getD i 0 = if on ((m + i) / per) then (f (m + i)).1 else l.getD i 0) ∧
    (mapLanes on per f m l).2 = Conds.joinAll (((List.range' m l.length).filter fun i => on (i / per)).map fun i => (f i).2) := by
  induction l generalizing m with
  | nil => simp [mapLanes, Conds.joinAll]
  | cons x t ih =>
    obtain ⟨h1, h2, h3⟩ := ih (m + 1)
    unfold mapLanes
    by_cases h : on (m / per)
    · simp only [h, if_true]
      refine ⟨by simp [h1], ?_, ?_⟩
      · intro i hi
        cases i with
        | zero => simp [h]
        | succ i =>
          simp only [List.getD_cons_succ]
          rw [h2 i (by simpa using hi)]
          simp only [Nat.add_assoc, Nat.add_comm 1 i]
      · simp [h3, List.range'_succ, List.filter_cons, h, Conds.joinAll]
    · simp only [h, if_false, Bool.false_eq_true]
      refine ⟨by simp [h1], ?_, ?_⟩
      · intro i hi
        cases i with
        | zero => simp [h]
        | succ i =>
          simp only [List.getD_cons_succ]
          rw [h2 i (by simpa using hi)]
          simp only [Nat.add_assoc, Nat.add_comm 1 i]
      · simp [h3, List.range'_succ, List.filter_cons, h]

theorem lanes_length (w n : Nat) (v : W2048) : (lanes w n v).length = n := by simp [lanes, upFrom_range]

theorem lanes_getD (w n i : Nat) (v : W2048) (h : i < n) : (lanes w n v).getD i 0 = (v.extractLsb' (w * i) w).toNat := by
  simp [lanes, upFrom_range, List.getD, h]

/-- A vector instruction issued with room in the queue. -/
theorem vecIssue_room {s : State} {c w : Nat} {cd : Conds} {f : Core → Core} (hf : (s.core c).hold = none)
    (hr : (s.core c).vecQ.length < 8) :
    vecIssue c w cd f (stepTaken c s) = s.issuing c { f (s.core c) with vecQ := (s.core c).vecQ ++ [{ pc := (s.core c).pc, conds := cd }] } := by
  have e : vecFull ((stepTaken c s).core c) = false := by
    simp only [vecFull, decide_eq_false_iff_not]; exact Nat.not_le.mpr hr
  simp only [vecIssue, e, Bool.false_eq_true, if_false]
  exact issued_stepTaken c _ s hf

theorem vecLanewise_spec {s : State} {c w rd : Nat} {f : Nat → Nat → Nat → Nat × Conds} {g : Nat → Nat × Conds}
    {b : Nat} (hb : b = laneBits (Iw.ty w)) (hrd : rd = Iw.rd w)
    (hf : (s.core c).hold = none) (hr : (s.core c).vecQ.length < 8)
    (hg : ∀ i, i < 2048 / b → g i = f (((s.core c).vr (Iw.ra w)).extractLsb' (b * i) b).toNat
      (((s.core c).vr (Iw.rb w)).extractLsb' (b * i) b).toNat (((s.core c).vr (Iw.rc w)).extractLsb' (b * i) b).toNat) :
    ∃ V, vecLanewise c w f (stepTaken c s) = s.issuing c
        { s.core c with
          v := Tab.set 0 (s.core c).v rd V
          vecQ := (s.core c).vecQ ++ [{ pc := (s.core c).pc, conds := Conds.joinAll (((List.range (2048 / b)).filter fun i => laneOn (s.core c) w (i / (32 / b))).map fun i => (g i).2) }] } ∧
      ∀ i, i < 2048 / b → (V.extractLsb' (b * i) b).toNat =
        if laneOn (s.core c) w (i / (32 / b)) then (g i).1 % 2 ^ b else (((s.core c).vr rd).extractLsb' (b * i) b).toNat := by
  subst hrd
  have hk : (stepTaken c s).core c = s.core c := rfl
  have hb2 : b * (2048 / b) ≤ 2048 := Nat.mul_div_le 2048 b
  simp only [vecLanewise, hk, ← hb]
  obtain ⟨h1, h2, h3⟩ := mapLanes_spec (laneOn (s.core c) w) (32 / b)
    (fun i => f ((lanes b (2048 / b) ((s.core c).vr (Iw.ra w))).getD i 0) ((lanes b (2048 / b) ((s.core c).vr (Iw.rb w))).getD i 0)
      ((lanes b (2048 / b) ((s.core c).vr (Iw.rc w))).getD i 0)) 0 (lanes b (2048 / b) ((s.core c).vr (Iw.rd w)))
  refine ⟨ofLanes b (mapLanes (laneOn (s.core c) w) (32 / b)
    (fun i => f ((lanes b (2048 / b) ((s.core c).vr (Iw.ra w))).getD i 0) ((lanes b (2048 / b) ((s.core c).vr (Iw.rb w))).getD i 0)
      ((lanes b (2048 / b) ((s.core c).vr (Iw.rc w))).getD i 0)) 0 (lanes b (2048 / b) ((s.core c).vr (Iw.rd w)))).1, (vecIssue_room hf hr).trans ?_, ?_⟩
  · rw [h3, lanes_length]
    have : ∀ i ∈ List.range (2048 / b), g i = f ((lanes b (2048 / b) ((s.core c).vr (Iw.ra w))).getD i 0) ((lanes b (2048 / b) ((s.core c).vr (Iw.rb w))).getD i 0)
      ((lanes b (2048 / b) ((s.core c).vr (Iw.rc w))).getD i 0) := by
      intro i hi
      have hi := List.mem_range.mp hi
      rw [hg i hi, lanes_getD _ _ _ _ hi, lanes_getD _ _ _ _ hi, lanes_getD _ _ _ _ hi]
    have e : ((List.range' 0 (2048 / b)).filter fun i => laneOn (s.core c) w (i / (32 / b))).map (fun i => (f ((lanes b (2048 / b) ((s.core c).vr (Iw.ra w))).getD i 0) ((lanes b (2048 / b) ((s.core c).vr (Iw.rb w))).getD i 0)
      ((lanes b (2048 / b) ((s.core c).vr (Iw.rc w))).getD i 0)).2) = ((List.range (2048 / b)).filter fun i => laneOn (s.core c) w (i / (32 / b))).map fun i => (g i).2 := by
      rw [← List.range_eq_range']
      apply List.map_congr_left
      intro i hi
      rw [this i (List.mem_filter.mp hi).1]
    rw [e]; rfl
  · intro i hi
    have hl : (mapLanes (laneOn (s.core c) w) (32 / b)
    (fun i => f ((lanes b (2048 / b) ((s.core c).vr (Iw.ra w))).getD i 0) ((lanes b (2048 / b) ((s.core c).vr (Iw.rb w))).getD i 0)
      ((lanes b (2048 / b) ((s.core c).vr (Iw.rc w))).getD i 0)) 0 (lanes b (2048 / b) ((s.core c).vr (Iw.rd w)))).1.length = 2048 / b := by rw [h1, lanes_length]
    rw [lane_ofLanes _ _ _ (by rw [hl]; exact hi) (by rw [hl]; exact hb2), h2 i (by rw [lanes_length]; exact hi), Nat.zero_add, lanes_getD _ _ _ _ hi,
      lanes_getD _ _ _ _ hi, lanes_getD _ _ _ _ hi, lanes_getD _ _ _ _ hi, hg i hi]
    split
    · rfl
    · exact Nat.mod_eq_of_lt (BitVec.isLt _)

theorem fnArith {n : Nat} (h : coreOp n = some .vectorArith) : bits n 23 16 ≤ 7 := by
  change Iw.fnV n ≤ 7
  unfold coreOp at h
  dsimp only at h
  split at h <;> first | (simp at h; done) | ((repeat' split at h) <;> first | (simp at h; done) | omega)

theorem fnDiv {n : Nat} (h : coreOp n = some .vectorDivSqrt) : bits n 23 16 = 8 ∨ bits n 23 16 = 9 := by
  change Iw.fnV n = 8 ∨ Iw.fnV n = 9
  unfold coreOp at h
  dsimp only at h
  split at h <;> first | (simp at h; done) | ((repeat' split at h) <;> first | (simp at h; done) | omega)

theorem fnFunc {n : Nat} (h : coreOp n = some .vectorFunction) : 10 ≤ bits n 23 16 ∧ bits n 23 16 ≤ 13 := by
  change 10 ≤ Iw.fnV n ∧ Iw.fnV n ≤ 13
  unfold coreOp at h
  dsimp only at h
  split at h <;> first | (simp at h; done) | ((repeat' split at h) <;> first | (simp at h; done) | omega)

theorem fnBits {n : Nat} (h : coreOp n = some .vectorBitwise) : 14 ≤ bits n 23 16 ∧ bits n 23 16 ≤ 19 := by
  change 14 ≤ Iw.fnV n ∧ Iw.fnV n ≤ 19
  unfold coreOp at h
  dsimp only at h
  split at h <;> first | (simp at h; done) | ((repeat' split at h) <;> first | (simp at h; done) | omega)

theorem joinAll_none {α : Type} (l : List α) : Conds.joinAll (l.map fun _ => Conds.none) = .none := by
  induction l with
  | nil => rfl
  | cons x t ih => simp only [List.map_cons, Conds.joinAll, ih]; rfl

theorem lanes32 (on : Nat → Bool) (f : Nat → Nat × Conds) (old : W2048) (i : Nat) (hi : i < 64) :
    ((ofLanes 32 (mapLanes on 1 f 0 (lanes 32 64 old)).1).extractLsb' (32 * i) 32).toNat =
      if on i then (f i).1 % 2 ^ 32 else (old.extractLsb' (32 * i) 32).toNat := by
  obtain ⟨h1, h2, -⟩ := mapLanes_spec on 1 f 0 (lanes 32 64 old)
  rw [lanes_length] at h1
  rw [lane_ofLanes _ _ _ (by rw [h1]; exact hi) (by omega), h2 i (by rw [lanes_length]; exact hi), Nat.zero_add, Nat.div_one, lanes_getD _ _ _ _ hi]
  split
  · rfl
  · exact Nat.mod_eq_of_lt (BitVec.isLt _)

theorem ofPred_bit (l : List Bool) (j : Nat) : (ofPred l).testBit j = l.getD j false := by
  induction l generalizing j with
  | nil => simp [ofPred]
  | cons b t ih =>
    have e : ofPred (b :: t) = 2 * ofPred t + b2n b := by simp only [ofPred]; omega
    rw [e]
    cases j with
    | zero => cases b <;> simp [b2n]
    | succ j =>
      rw [Nat.testBit_succ]
      have : (2 * ofPred t + b2n b) / 2 = ofPred t := by cases b <;> simp [b2n] <;> omega
      rw [this, ih]
      rfl

theorem fnVcmp {n : Nat} (h : coreOp n = some .vcmp) : bits n 23 16 ≤ 3 := by
  change Iw.fnV n ≤ 3
  unfold coreOp at h
  dsimp only at h
  split at h <;> first | (simp at h; done) | ((repeat' split at h) <;> first | (simp at h; done) | omega)

/-- One element of a `vcvt`. -/
def cvtOne (k : Core) (w : Nat) (fr dest : Fmt) (i : Nat) : Nat × Conds :=
  let r := convertTo dest (rndOf (Iw.cvRnd w)) (srOf k ((k.xr (Iw.xs w)).toNat + i)) (Iw.cvSat w) (fr.elemVal ((unpack fr 64 (k.vr (Iw.ra w))).getD i 0))
  (r.1, { r.2 with nonfinite := b2n (match dest.elem with
        | some e => (e.decode r.1).nonfinite
        | none => false) })

theorem bodyVcvt_eq {c w e : Nat} {s : State} {fr dest : Fmt} (hf : Fmt.ofCode (Iw.cvFrom w) = some fr) (hd : Fmt.ofCode (Iw.cvTo w) = some dest) :
    bodyVcvt c w e s = vecIssue c w (Conds.joinAll (((upFrom 0 64).map (cvtOne (s.core c) w fr dest)).map (·.2)))
      (fun k => k.setV (Iw.rd w) (ofLanes dest.bits (((upFrom 0 64).map (cvtOne (s.core c) w fr dest)).map (·.1)))) s := by
  simp only [bodyVcvt, hf, hd]
  rfl

/-- Block `j` of a `vquant`. -/
def quantOne (k : Core) (w : Nat) (f : Fmt) (j : Nat) : Block × Conds :=
  quantBlock f (rndOf (Iw.cvRnd w)) (fun i => srOf k ((k.xr (Iw.xs w)).toNat + 32 * j + i))
    ((List.range 32).map fun i => FFmt.fp32.decode (((k.vr (Iw.ra w)).extractLsb' (32 * (32 * j + i)) 32).toNat))

theorem bodyVquant_eq {c w e : Nat} {s : State} {f : Fmt} (hf : Fmt.ofCode (Iw.cvFrom w) = some f) :
    bodyVquant c w e s = vecIssue c w ((blockConds (quantOne (s.core c) w f 0)).join (blockConds (quantOne (s.core c) w f 1)))
      (fun k => (k.setV (Iw.rd w) (ofLanes f.bits ((quantOne (s.core c) w f 0).1.codes ++ (quantOne (s.core c) w f 1).1.codes))).setX (Iw.rb w)
        (BitVec.ofNat 64 ((quantOne (s.core c) w f 0).1.entry + (quantOne (s.core c) w f 1).1.entry <<< (8 * f.scaleBytes)))) s := by
  have e1 : ((lanes 32 64 ((s.core c).vr (Iw.ra w))).map FFmt.fp32.decode).take 32 = (List.range 32).map fun i => FFmt.fp32.decode ((((s.core c).vr (Iw.ra w)).extractLsb' (32 * (32 * 0 + i)) 32).toNat) := by
    simp only [lanes, upFrom_range, List.map_map, ← List.map_take]
    rfl
  have e2 : ((lanes 32 64 ((s.core c).vr (Iw.ra w))).map FFmt.fp32.decode).drop 32 = (List.range 32).map fun i => FFmt.fp32.decode ((((s.core c).vr (Iw.ra w)).extractLsb' (32 * (32 * 1 + i)) 32).toNat) := by
    simp only [lanes, upFrom_range, List.map_map, ← List.map_drop]
    rfl
  simp only [bodyVquant, hf, e1, e2]
  rfl

/-- One element of a `vdeq`. -/
def deqOne (k : Core) (w : Nat) (f : Fmt) (i : Nat) : Nat × Conds :=
  let v := f.entryVal (((k.xr (Iw.rb w)).toNat >>> (8 * f.scaleBytes * (i / 32))) % 2 ^ (8 * f.scaleBytes)) (i % 32) ((unpack f 64 (k.vr (Iw.ra w))).getD i 0)
  let r := FFmt.fp32.rne v
  (r.1, { r.2 with nanIn := decide (v = .nan) })

theorem bodyVdeq_eq {c w e : Nat} {s : State} {f : Fmt} (hf : Fmt.ofCode (Iw.cvFrom w) = some f) :
    bodyVdeq c w e s = vecIssue c w (Conds.joinAll (((upFrom 0 64).map (deqOne (s.core c) w f)).map (·.2)))
      (fun k => k.setV (Iw.rd w) (ofLanes 32 (((upFrom 0 64).map (deqOne (s.core c) w f)).map (·.1)))) s := by
  simp only [bodyVdeq, hf]
  rfl

theorem rangeGet (f : Nat → Nat × Conds) (i : Nat) (hi : i < 64) : ((((upFrom 0 64).map f).map (·.1)).getD i 0) = (f i).1 := by
  simp [upFrom_range, List.getD, hi]

theorem quantList_length (f : Fmt) (md : Rnd) (r : Nat → Nat) (x : Int) (i : Nat) (l : List Val) : (quantList f md r x i l).1.length = l.length := by
  induction l generalizing i with
  | nil => rfl
  | cons v t ih => simp [quantList, ih]

theorem quantSubs_length (md : Rnd) (r : Nat → Nat) (x : Int) (k j : Nat) (l : List Val) (h : l.length = 8 * k) :
    (quantSubs md r x k j l).2.1.length = 8 * k := by
  induction k generalizing j l with
  | zero => rfl
  | succ k ih =>
    simp only [quantSubs, quantSub, List.length_append, quantList_length, List.length_take]
    rw [ih _ _ (by simp only [List.length_drop]; omega)]
    omega

theorem quantBlock_length (f : Fmt) (md : Rnd) (r : Nat → Nat) (l : List Val) (h : l.length = 32) :
    (quantBlock f md r l).1.codes.length = 32 := by
  unfold quantBlock
  split
  · simp [h]
  · split
    · simp [h]
    · dsimp only
      split
      · exact quantSubs_length _ _ _ 4 0 l h
      · simp only [quantList_length, h]

end Sys2Proof.Machine
end

