-- ==== Sys2Proof/Laws/Crucible.lean ====
section
/-! SUPPORT. What the Crucible's shared operations leave as it was: the end of a hold, the wipe, and filtered tables. -/

namespace Sys2Proof.Machine

/-- Nothing waits, so the end of a hold performs nothing. -/
theorem releaseHeld_idle {s : State} {ext : Ext} (h : NothingHeld s) : releaseHeld ext s = s := by
  have e0 : ({ s with held := [] } : State) = s := by
    have := h.1
    cases s
    simp only at this
    rw [this]
  unfold releaseHeld
  rw [h.1, e0]
  simp only [forEach]
  split
  · rfl
  · rw [forEach_keeps (fun t => t = s) (by rintro r t rfl; simp [h.2.1 r]) (s.rings.map (·.1)) s rfl]
    refine forEach_keeps (fun t => t = s) ?_ _ s rfl
    rintro l t rfl
    simp only [drainRx, h.2.2 l]

theorem nothingHeld_of {s t : State} (h1 : t.held = s.held) (h2 : t.rings = s.rings) (h3 : t.links = s.links)
    (h : NothingHeld s) : NothingHeld t := by
  refine ⟨h1.trans h.1, fun r => ?_, fun l => ?_⟩
  · have := h.2.1 r
    simp only [cqWaits, State.ring, h2] at *
    exact this
  · have := h.2.2 l
    simp only [State.link, h3] at *
    exact this

theorem find?_filter {α : Type} (p : Nat → Bool) (t : Tab α) (k : Nat) :
    Tab.find? (t.filter fun e => p e.1) k = if p k then Tab.find? t k else none := by
  induction t with
  | nil => simp [Tab.find?]
  | cons e t ih =>
    obtain ⟨j, v⟩ := e
    by_cases hp : p j = true
    · simp only [List.filter_cons, hp, if_true, Tab.find?, ih]
      by_cases hj : j = k
      · subst hj; simp [hp]
      · simp [hj]
    · simp only [List.filter_cons, hp, Tab.find?, Bool.false_eq_true, if_false, ih]
      by_cases hj : j = k
      · subst hj; simp [hp]
      · simp [hj]

theorem get_filter {α : Type} (p : Nat → Bool) (d : α) (t : Tab α) (k : Nat) :
    Tab.get d (t.filter fun e => p e.1) k = if p k then Tab.get d t k else d := by
  unfold Tab.get
  rw [find?_filter]
  by_cases h : p k = true <;> simp [h]

theorem forEach_nil {α : Type} (f : α → State → State) (s : State) : forEach f [] s = s := rfl

theorem forEach_touches {α : Type} {f : α → State → State} (P : State → State → Prop) (hr : ∀ s, P s s)
    (ht : ∀ s t u, P s t → P t u → P s u) (h : ∀ x s, P s (f x s)) (l : List α) (s : State) : P s (forEach f l s) := by
  induction l generalizing s with
  | nil => exact hr s
  | cons x l ih => exact ht _ _ _ (h x s) (ih _)

/-- Clearing a bit of every listed register leaves it clear. -/
theorem clearEach_flag (l : List Nat) (b : Nat) (hb : b < 32) (s : State) (o : Nat) (h : o ∈ l) : (clearEach l b s).flag o b = false := by
  unfold clearEach
  have keep : ∀ (l : List Nat) (s : State), s.flag o b = false → (forEach (fun off s => s.clearFlag off b) l s).flag o b = false := by
    intro l s hs
    refine forEach_keeps (fun t => t.flag o b = false) ?_ l s hs
    intro x t ht
    by_cases hx : o = x
    · subst hx; exact flag_clearFlag_self _ _ _ hb
    · rw [flag_clearFlag_ne _ _ _ hx]; exact ht
  induction l generalizing s with
  | nil => cases h
  | cons x l ih =>
    by_cases hx : o = x
    · subst hx; exact keep l _ (flag_clearFlag_self _ _ _ hb)
    · exact ih _ (by simpa [hx] using h)

theorem clearEach_regs (l : List Nat) (b : Nat) (s : State) : ∃ r, clearEach l b s = { s with regs := r } := by
  unfold clearEach
  refine forEach_keeps (fun t => ∃ r, t = { s with regs := r }) ?_ l s ⟨_, rfl⟩
  rintro x t ⟨r, rfl⟩
  exact ⟨_, rfl⟩

/-- What the queues' registers are after a wipe has disabled them. -/
theorem wipe_regs (s : State) (qs sqc : List Nat) (h1 : ∀ n, n < 64 → n ∈ qs) (hq : ∀ q ∈ qs, q < 64) (hs : ∀ x ∈ sqc, 0x420000 ≤ x) :
    ∃ r, clearEach sqc 0 (forEach (fun q s => s.setReg (Reg.nqPosted q) 0) qs (clearEach (qs.map Reg.nqCtl) 0 s)) = { s with regs := r } ∧
      ∀ n, n < 64 → (clearEach sqc 0 (forEach (fun q s => s.setReg (Reg.nqPosted q) 0) qs (clearEach (qs.map Reg.nqCtl) 0 s))).flag (Reg.nqCtl n) 0 = false := by
  obtain ⟨r1, e1⟩ := clearEach_regs (qs.map Reg.nqCtl) 0 s
  have f1 : ∀ n, n < 64 → (clearEach (qs.map Reg.nqCtl) 0 s).flag (Reg.nqCtl n) 0 = false := by
    intro n hn
    exact clearEach_flag _ 0 (by omega) s _ (List.mem_map.mpr ⟨n, h1 n hn, rfl⟩)
  generalize clearEach (qs.map Reg.nqCtl) 0 s = s1 at *
  have e2 := forEach_keeps (fun t => (∃ r, t = { s1 with regs := r }) ∧ ∀ n, n < 64 → t.flag (Reg.nqCtl n) 0 = false)
    (f := fun q (s : State) => s.setReg (Reg.nqPosted q) 0) (by
      rintro x t ⟨⟨r, rfl⟩, h⟩
      refine ⟨⟨_, rfl⟩, fun n hn => ?_⟩
      by_cases hx : Reg.nqCtl n = Reg.nqPosted x
      · simp only [Reg.nqCtl, Reg.nqPosted] at hx; omega
      · rw [flag_setReg_ne _ _ _ hx]; exact h n hn) qs s1 ⟨⟨_, rfl⟩, f1⟩
  generalize forEach (fun q s => s.setReg (Reg.nqPosted q) 0) qs s1 = s2 at *
  obtain ⟨⟨r2, e2⟩, f2⟩ := e2
  obtain ⟨r3, e3⟩ := clearEach_regs sqc 0 s2
  refine ⟨r3, by rw [e3, e2, e1], ?_⟩
  intro n hn
  unfold clearEach
  have : ∀ (l : List Nat) (t : State), (∀ x ∈ l, x ≠ Reg.nqCtl n) → t.flag (Reg.nqCtl n) 0 = false →
      (forEach (fun off s => s.clearFlag off 0) l t).flag (Reg.nqCtl n) 0 = false := by
    intro l
    induction l with
    | nil => intro t _ h; exact h
    | cons x l ih =>
      intro t hx h
      refine ih _ (fun y hy => hx y (List.mem_cons_of_mem _ hy)) ?_
      rw [flag_clearFlag_ne _ _ _ (Ne.symm (hx x (List.mem_cons_self ..)))]
      exact h
  refine this _ _ ?_ (f2 n hn)
  intro x hx
  have := hs x hx
  simp only [Reg.nqCtl]; omega

theorem upFrom64 (n : Nat) : n < 64 ↔ n ∈ upFrom 0 64 := by rw [upFrom_range, List.mem_range]

/-- The wipe with its lists of queues as parameters. -/
def wipeBody (qs sqc : List Nat) (s : State) : State :=
  let s := clearEach (qs.map Reg.nqCtl) 0 s
  let s := forEach (fun q s => s.setReg (Reg.nqPosted q) 0) qs s
  let sqs := s.sqs.map (·.1)
  let s := clearEach sqc 0 s
  let s := forEach (fun q s => s.modSq q fun _ => {}) sqs s
  { s with nqs := [], wcs := [],
           mem := s.mem.filter (fun e => e.1 < 0x018000000000),
           poison := s.poison.filter (fun e => e.1 * 16 < 0x018000000000),
           errs := s.errs.filter (fun e => e.1 * 16 < 0x018000000000),
           win := { s.win with lines := [], plru := [], flushing := [], inval := false, pass := [] },
           regs := s.regs.filter (fun e => e.1 < Reg.wcIndex 0 || Reg.wcIndex 1024 ≤ e.1) }

theorem wipe_body (s : State) : wipeCrucible s = wipeBody (upFrom 0 64) ((upFrom 0 256).map Reg.sqCtl) s := rfl

theorem wipeBody_frame (s : State) (qs sqc : List Nat) (h1 : ∀ n, n < 64 → n ∈ qs) (hq : ∀ q ∈ qs, q < 64) (hs : ∀ x ∈ sqc, 0x420000 ≤ x) : ∃ r q, wipeBody qs sqc s = { s with
    nqs := [], wcs := [], mem := s.mem.filter (fun e => decide (e.1 < 0x018000000000))
    poison := s.poison.filter (fun e => e.1 * 16 < 0x018000000000)
    errs := s.errs.filter (fun e => e.1 * 16 < 0x018000000000)
    win := { s.win with lines := [], plru := [], flushing := [], inval := false, pass := [] }, regs := r, sqs := q } ∧
    (∀ n, n < 64 → bit (Tab.get (regReset (Reg.nqCtl n)) r (Reg.nqCtl n)).toNat 0 = false) ∧
    (∀ o, Reg.wcIndex 0 ≤ o → o < Reg.wcIndex 1024 → Tab.get (regReset o) r o = regReset o) := by
  unfold wipeBody
  dsimp only
  obtain ⟨r3, e5, f3⟩ := wipe_regs s qs sqc h1 hq hs
  generalize clearEach sqc 0 (forEach (fun q s => s.setReg (Reg.nqPosted q) 0) qs (clearEach (qs.map Reg.nqCtl) 0 s)) = s3 at *
  generalize List.map (fun x => x.fst) (forEach (fun q s => s.setReg (Reg.nqPosted q) 0) qs (clearEach (qs.map Reg.nqCtl) 0 s)).sqs = l
  have e4 : ∃ q, forEach (fun q s => s.modSq q fun _ => {}) l s3 = { s3 with sqs := q } := by
    refine forEach_keeps (fun t => ∃ q, t = { s3 with sqs := q }) ?_ _ s3 ⟨_, rfl⟩
    rintro x t ⟨q, rfl⟩
    exact ⟨_, rfl⟩
  obtain ⟨q, e4⟩ := e4
  refine ⟨s3.regs.filter (fun e => decide (e.1 < Reg.wcIndex 0) || decide (Reg.wcIndex 1024 ≤ e.1)), q, ?_, ?_, ?_⟩
  · rw [e4]
    generalize s3.regs.filter (fun e => decide (e.1 < Reg.wcIndex 0) || decide (Reg.wcIndex 1024 ≤ e.1)) = z
    rw [e5]
  · intro n hn
    have hlt : Reg.nqCtl n < Reg.wcIndex 0 := by simp only [Reg.wcIndex, Reg.nqCtl]; omega
    rw [get_filter (fun k => decide (k < Reg.wcIndex 0) || decide (Reg.wcIndex 1024 ≤ k)), if_pos (by simp [hlt])]
    exact f3 n hn
  · intro o h1 h2
    have a1 : ¬ o < Reg.wcIndex 0 := by omega
    have a2 : ¬ Reg.wcIndex 1024 ≤ o := by omega
    rw [get_filter (fun k => decide (k < Reg.wcIndex 0) || decide (Reg.wcIndex 1024 ≤ k)), if_neg (by simp [a1, a2])]

theorem wipeCrucible_frame (s : State) : ∃ r q, wipeCrucible s = { s with
    nqs := [], wcs := [], mem := s.mem.filter (fun e => decide (e.1 < 0x018000000000))
    poison := s.poison.filter (fun e => e.1 * 16 < 0x018000000000)
    errs := s.errs.filter (fun e => e.1 * 16 < 0x018000000000)
    win := { s.win with lines := [], plru := [], flushing := [], inval := false, pass := [] }, regs := r, sqs := q } ∧
    (∀ n, n < 64 → bit (Tab.get (regReset (Reg.nqCtl n)) r (Reg.nqCtl n)).toNat 0 = false) ∧
    (∀ o, Reg.wcIndex 0 ≤ o → o < Reg.wcIndex 1024 → Tab.get (regReset o) r o = regReset o) := by
  rw [wipe_body]
  refine wipeBody_frame s (upFrom 0 64) ((upFrom 0 256).map Reg.sqCtl) (fun n => (upFrom64 n).1) (fun n => (upFrom64 n).2) ?_
  intro x hx
  obtain ⟨j, hj, rfl⟩ := List.mem_map.mp hx
  simp only [Reg.sqCtl]; omega

set_option maxRecDepth 20000 in

theorem cruPartition_at : ∃ d, regAt Reg.cruPartition = some d ∧ d.rw + d.rwp = 0x1F := by
  refine ⟨_, rfl, rfl⟩

theorem low5 (x v : W32) : ((x &&& ~~~(BitVec.ofNat 32 0x1F)) ||| (v &&& BitVec.ofNat 32 0x1F)).toNat % 2 ^ (4 + 1 - 0) = v.toNat % 32 := by
  apply Nat.eq_of_testBit_eq
  intro i
  have e32 : v.toNat % 32 = v.toNat % 2 ^ 5 := rfl
  have e5 : ∀ y : Nat, y % 2 ^ (4 + 1 - 0) = y % 2 ^ 5 := fun _ => rfl
  rw [e32, e5]
  simp only [BitVec.toNat_or, BitVec.toNat_and, Nat.testBit_mod_two_pow, Nat.testBit_or, Nat.testBit_and]
  by_cases h : i < 5
  · have : i = 0 ∨ i = 1 ∨ i = 2 ∨ i = 3 ∨ i = 4 := by omega
    have e : (BitVec.toNat (~~~(BitVec.ofNat 32 0x1F))).testBit i = false ∧ (BitVec.toNat (BitVec.ofNat 32 0x1F)).testBit i = true := by
      rcases this with rfl | rfl | rfl | rfl | rfl <;> decide
    rw [e.1, e.2]; simp
  · simp [h]

end Sys2Proof.Machine
end

