-- ==== Sys2Proof/Tests/Slice0.lean ====
section
/-! SUPPORT. Tests of the model: terms that the well-formedness checks refuse, single steps with results taken from the
spec, and, for each statement that has hypotheses, a witness that a concrete state and operands meet them. -/

open Sys2Proof Sys2Proof.Machine

namespace Sys2Proof.Tests

set_option maxRecDepth 100000

/-- The conditions of a normal issue, as one computation. -/
def issuesB (s : State) (c : Nat) (op : CoreOp) (w e : W64) : Bool :=
  decide ((s.core c).mode = .running) && decide ((s.core c).hold = none) && !(s.core c).stopping && !debugHolds s c
    && pcInRange (s.core c) (if op.wide then 16 else 8) && decide (bits w.toNat 63 56 ≠ 0xFF)
    && decide (coreOp w.toNat = some op) && decide (bit w.toNat 63 = op.wide)
    && (!op.wide || decide (bits e.toNat 63 56 = 0xFF)) && (decide (Iw.guard w.toNat = 0) || decide (8 ≤ Iw.guard w.toNat))
    && coreLegal op w.toNat e.toNat && guardTrue (s.core c) w.toNat && (!cruHolds s || !op.reaches w.toNat)

theorem issues_of {s : State} {c : Nat} {op : CoreOp} {w e : W64} (h : issuesB s c op w e = true) : Issues s c op w e := by
  simp only [issuesB, Bool.and_eq_true, decide_eq_true_eq, Bool.or_eq_true, Bool.not_eq_true'] at h
  obtain ⟨⟨⟨⟨⟨⟨⟨⟨⟨⟨⟨⟨a, b⟩, st⟩, c⟩, d⟩, e⟩, f⟩, g⟩, i⟩, j⟩, k⟩, l⟩, m⟩ := h
  exact ⟨a, b, st, c, d, e, f, g, fun w => (i.resolve_left (by simp [w])), j, k, l, m⟩

/-- A core that runs a kernel of 4,096 bytes. -/
def run0 : Core := { mode := .running, codeBytes := 0x1000 }
/-- The part after reset with core 0 as given. -/
def one (k : Core) : State := { State.reset with cores := [(0, k)] }
/-- An instruction word from its opcode, two register fields and its bits [41:0] (Table 6.1). -/
def iw (op rd ra lo : Nat) : W64 := BitVec.ofNat 64 (op * 2 ^ 56 + rd * 2 ^ 47 + ra * 2 ^ 42 + lo)

/-- Every byte of a range lies in scratch, outside the enabled notice rings. -/
def scratchB (s : State) (pa n : Nat) : Bool :=
  (upFrom 0 n).all fun j => match place s (pa + j) with
    | .scratch key => !inNoticeRing s key
    | _ => false

theorem mem_upFrom {a n j : Nat} (h : a ≤ j) (h' : j < a + n) : j ∈ upFrom a n := by
  induction n generalizing a with
  | zero => omega
  | succ n ih =>
    simp only [upFrom, List.mem_cons]
    by_cases e : j = a
    · exact .inl e
    · exact .inr (ih (by omega) (by omega))

theorem scratch_of {s : State} {pa n : Nat} (h : scratchB s pa n = true) :
    ∀ j, j < n → ∃ key, place s (pa + j) = .scratch key ∧ inNoticeRing s key = false := by
  intro j hj
  have := List.all_eq_true.mp h j (mem_upFrom (Nat.zero_le j) (by omega))
  revert this
  cases hp : place s (pa + j) <;> simp

/-- The part with all of the Crucible as scratch, one translation entry over its first page with all permissions, and
core 0 as given. -/
def scr (k : Core) : State :=
  { State.reset with
    cores := [(0, k)]
    xlat := [(0x80000, 0x01000000000F)]
    regs := [(Reg.cruPartition, 16)] }

/-- The words that a range meets are sound, as one computation. -/
def soundB (s : State) (a n : Nat) : Bool :=
  (unitsOf 16 a n).all fun u => match place s u with
    | .scratch key => decide (s.wordState (key / 16) = .clean) && !s.isPoison key
    | _ => false

theorem sound_of {s : State} {a n : Nat} (h : soundB s a n = true) : ScratchSound s a n := by
  intro u hu
  have := List.all_eq_true.mp h u hu
  revert this
  cases hp : place s u <;> simp [and_comm]

/-- An address check answers a local address. -/
def locB (r : Except Nat FabAddr) (va : Nat) : Bool :=
  match r with
  | .ok (.loc v) => v == va
  | _ => false

theorem loc_of {r : Except Nat FabAddr} {va : Nat} (h : locB r va = true) : r = .ok (.loc va) := by
  unfold locB at h
  split at h
  · rw [beq_iff_eq] at h; rw [h]
  · cases h

/-- A check answers that all is well. -/
def okB (r : Except Nat Unit) : Bool :=
  match r with
  | .ok () => true
  | .error _ => false

theorem ok_of {r : Except Nat Unit} (h : okB r = true) : r = .ok () := by
  cases r with
  | error e => cases h
  | ok u => rfl

/-- A descriptor (Table 6.4) of the operand buffer (`loc` 1) or of memory (`loc` 0): BASE, DIM0, DIM1, DIM2, FMT. -/
def desc (base d0 d1 d2 fmt loc : Nat) : W512 :=
  BitVec.ofNat 512 (base + d0 * 2 ^ 192 + d1 * 2 ^ 208 + d2 * 2 ^ 224 + fmt * 2 ^ 240 + loc * 2 ^ 248)

/-- A check passes with a plan that has a property. -/
def planB {α : Type} (r : Except Nat α) (p : α → Bool) : Bool :=
  match r with
  | .ok x => p x
  | .error _ => false

theorem plan_of {α : Type} {r : Except Nat α} {p : α → Bool} (h : planB r p = true) : ∃ x, r = .ok x ∧ p x = true := by
  cases r with
  | error e => cases h
  | ok x => exact ⟨x, rfl, h⟩

/-- The conditions of a normal register write, as one computation. -/
def admittedB (s : State) (rq : Requester) (off : Nat) (v : W32) : Bool :=
  (!isSprue rq || (sprUp s && !replaying s && !recording s && s.boot.fwStarted)) && !badSize off && (match regPresent s off with
    | some d => admits s rq d.cls && (decide (d.rwp = 0) || !blockBusy s off)
    | none => false)
    && !wipeDenies s off true && !sealDenies s rq off v

theorem admitted_of {s : State} {rq : Requester} {off : Nat} {v : W32} (h : admittedB s rq off v = true) :
    Admitted s rq off v := by
  simp only [admittedB, Bool.and_eq_true, Bool.or_eq_true, Bool.not_eq_true'] at h
  obtain ⟨⟨⟨⟨h1, h2⟩, h3⟩, h4⟩, h5⟩ := h
  refine ⟨fun w => ?_, h2, ?_, h4, h5⟩
  · obtain ⟨⟨⟨a, b⟩, c⟩, d⟩ := h1.resolve_left (by simp [w])
    exact ⟨a, b, c, d⟩
  split at h3
  · rename_i d hd
    simp only [Bool.and_eq_true, Bool.or_eq_true, decide_eq_true_eq, Bool.not_eq_true'] at h3
    exact ⟨d, hd, h3.1, fun hn => h3.2.resolve_left hn⟩
  · cases h3

/-- The conditions of a normal register read, as one computation. -/
def admittedReadB (s : State) (rq : Requester) (off : Nat) : Bool :=
  !isSprue rq && !badSize off && (match regPresent s off with
    | some d => admits s rq d.cls
    | none => false)
    && !wipeDenies s off false && !s.parityBad.contains off

theorem admittedRead_of {s : State} {rq : Requester} {off : Nat} (h : admittedReadB s rq off = true) :
    AdmittedRead s rq off := by
  simp only [admittedReadB, Bool.and_eq_true, Bool.not_eq_true'] at h
  obtain ⟨⟨⟨⟨h1, h2⟩, h3⟩, h4⟩, h5⟩ := h
  refine ⟨h1, h2, ?_, h4, h5⟩
  split at h3
  · rename_i d hd
    exact ⟨d, hd, h3⟩
  · cases h3

/-- The part after reset with registers as given. -/
def withRegs (l : List (Nat × W32)) : State := { State.reset with regs := l }

theorem nothingHeld_of {s : State} (h : s.held = []) (h' : s.rings = []) (hl : s.links = []) : NothingHeld s := by
  refine ⟨h, fun r => ?_, fun l => ?_⟩
  · unfold cqWaits State.ring
    rw [h']
    rfl
  · unfold State.link
    rw [hl]
    rfl

/-- An option holds a value that has a property. -/
def someB {α : Type} (r : Option α) (p : α → Bool) : Bool :=
  match r with
  | some x => p x
  | none => false

theorem some_of {α : Type} {r : Option α} {p : α → Bool} (h : someB r p = true) : ∃ x, r = some x ∧ p x = true := by
  cases r with
  | none => cases h
  | some x => exact ⟨x, rfl, h⟩

/-- The Sprue sends at once, as one computation. -/
def sendsB (s : State) : Bool :=
  sprUp s && decide (s.spr.queued = []) && decide (s.spr.unacked.length < 500) &&
    decide (32 ≤ Tab.get 0 s.spr.credits 0) && decide (32 ≤ Tab.get 0 s.spr.credits 1) &&
    decide (32 ≤ Tab.get 0 s.spr.credits 2) && decide (32 ≤ Tab.get 0 s.spr.credits 3)

theorem sends_of {s : State} (h : sendsB s = true) : SprueSends s := by
  simp only [sendsB, Bool.and_eq_true, decide_eq_true_eq] at h
  obtain ⟨⟨⟨⟨⟨⟨a, b⟩, c⟩, d⟩, e⟩, f⟩, g⟩ := h
  refine ⟨a, b, c, fun i hi => ?_⟩
  match i, hi with
  | 0, _ => exact d
  | 1, _ => exact e
  | 2, _ => exact f
  | 3, _ => exact g

/-- The Sprue carries messages, as one computation. -/
def servesB (s : State) : Bool :=
  sendsB s && !replaying s && !wipeRuns s && s.boot.fwStarted && !s.sealed && !recording s && !cruHolds s

theorem serves_of {s : State} (h : servesB s = true) : SprueServes s := by
  simp only [servesB, Bool.and_eq_true, Bool.not_eq_true'] at h
  obtain ⟨⟨⟨⟨⟨⟨a, b⟩, c⟩, d⟩, e⟩, f⟩, g⟩ := h
  exact ⟨sends_of a, b, c, d, e, f, g⟩

/-- The Sprue just after training, with the slot credits of section 7. -/
def spr0 : Sprue := { credits := [(0, 1024), (1, 1024), (2, 256), (3, 64)] }
/-- The part in service behind a Sprue that is up, all of the Crucible being scratch, with further registers as given. -/
def srv (l : List (Nat × W32)) : State :=
  { withRegs ([(Reg.cruPartition, 16), (Reg.sprStatus, 8)] ++ l) with
    boot := { State.reset.boot with fwStarted := true }
    spr := spr0 }

/-- An access succeeds with a value and a state that have a property. -/
def pairB {ε α : Type} (r : Except ε α × State) (p : α → State → Bool) : Bool :=
  match r with
  | (.ok x, t) => p x t
  | (.error _, _) => false

theorem pair_of {ε α : Type} {r : Except ε α × State} {p : α → State → Bool} (h : pairB r p = true) :
    ∃ x t, r = (.ok x, t) ∧ p x t = true := by
  obtain ⟨e | x, t⟩ := r
  · cases h
  · exact ⟨x, t, rfl, h⟩

/-- The listed bytes of scratch from an offset of the first page on. -/
def cells (o : Nat) (l : List Byte) : List (Nat × Byte) :=
  ((upFrom 0 l.length).map fun i => (hashedKey (o + i), (l[i]?).getD 0)).filter fun p => p.2 != 0

/-- The part in READY with ring 63 enabled over 64 commands at the start of scratch, its completion queue in the next
64 KiB, its next command `b`, and further state of the ring and registers as given. -/
def esc (b : W512) (k : Ring) (l : List (Nat × W32)) : State :=
  { scr {} with
    cores := []
    regs := [(Reg.cruPartition, 16), (Reg.glbState, 13), (Reg.ringCtl 63, 0x60001), (Reg.ringBaseHi 63, 0x100),
             (Reg.ringCqBaseHi 63, 0x100), (Reg.ringCqBaseLo 63, 0x10000), (Reg.ringCqCtl 63, 0x60000),
             (Reg.ringTail 63, 1)] ++ l
    mem := cells 0 (toBytes 64 b.toNat)
    rings := [(63, { k with state := .active })] }

/-- The admission of a command, as one computation. -/
def admitsB (s : State) (ext : Ext) (r : Nat) (b : W512) : Bool :=
  decide (r < 64) && canAdmit s r && decide ((s.ring r).skip = none) && !(s.ring r).pos.inBuf
    && (s.ring r).frames.all (fun x => x.kind != .loopF || decide (((s.ring r).pos.seq - x.cmd.seq).toNat ≤ ringN s r - 1))
    && available s r (s.ring r).pos && !(s.ring r).doomed.contains (s.ring r).pos.seq && !mustHold s r b
    && pairB (fetchCmd ext r s) (fun x f => decide (x = b) && decide (f.ring r = s.ring r))

theorem takes_of {s : State} {ext : Ext} {r : Nat} {b : W512} (h : admitsB s ext r b = true) :
    ∃ f, fetchCmd ext r s = (.ok b, f) ∧ Takes s ext r b f := by
  simp only [admitsB, Bool.and_eq_true, Bool.not_eq_true', decide_eq_true_eq] at h
  obtain ⟨⟨⟨⟨⟨⟨⟨⟨h1, h2⟩, h3⟩, h4⟩, h5⟩, h6⟩, h7⟩, h8⟩, h9⟩ := h
  obtain ⟨x, f, hf, hx⟩ := pair_of h9
  simp only [Bool.and_eq_true, decide_eq_true_eq] at hx
  obtain ⟨rfl, hk⟩ := hx
  refine ⟨f, hf, ⟨h1, h2, h3, fun w => (Bool.noConfusion (w.symm.trans h4)), fun y hy hl _ => ?_, h6, hf, hk, h8, h7⟩⟩
  have := List.all_eq_true.mp h5 y hy
  simp only [hl, Bool.or_eq_true, bne_self_eq_false, Bool.false_eq_true, decide_eq_true_eq, false_or] at this
  exact this

/-- A command's legality, seal and further conditions, as one computation on what its fetch leaves. -/
def legalB (s : State) (ext : Ext) (r : Nat) (b : W512) (p : State → State → Bool) : Bool :=
  let f := (fetchCmd ext r s).2
  let a := f.admitting r b
  admitsB s ext r b && decide (cmdOffence a b = none) && !sealRefuses a r b && p f a

/-- Ring 63 admits a command normally, and what its fetch and its admission leave have a property. -/
def Adm (s : State) (b : W512) (p : State → State → Bool) : Prop :=
  ∃ f, Admits s {} 63 b f ∧ p f (f.admitting 63 b) = true

theorem admits_of {s : State} {b : W512} {p : State → State → Bool} (h : legalB s {} 63 b p = true) : Adm s b p := by
  simp only [legalB, Bool.and_eq_true, Bool.not_eq_true', decide_eq_true_eq] at h
  obtain ⟨⟨⟨h1, h2⟩, h3⟩, h4⟩ := h
  obtain ⟨f, hf, ht⟩ := takes_of h1
  rw [hf] at h2 h3 h4
  exact ⟨f, ⟨ht, h2, h3⟩, h4⟩

/-- A command of a ring (Table 8.2) from its opcode, its flags and the number in its bytes from 16 on. -/
def cb (op flags body : Nat) : W512 := BitVec.ofNat 512 (op + flags * 2 ^ 8 + body * 2 ^ 128)

/-- A read answers a failure with a code and a state that have a property. -/
def errB {α : Type} (r : Except Nat α × State) (p : Nat → State → Bool) : Bool :=
  match r with
  | (.ok _, _) => false
  | (.error e, t) => p e t

theorem err_of {α : Type} {r : Except Nat α × State} {p : Nat → State → Bool} (h : errB r p = true) :
    ∃ e t, r = (.error e, t) ∧ p e t = true := by
  obtain ⟨e | x, t⟩ := r
  · exact ⟨e, t, rfl, h⟩
  · cases h

/-- A command whose admission finds an offending field, as one computation. -/
def badB (s : State) (ext : Ext) (r : Nat) (b : W512) (off : Nat) : Bool :=
  admitsB s ext r b && decide (cmdOffence ((fetchCmd ext r s).2.admitting r b) b = some off)

theorem bad_of {s : State} {ext : Ext} {r : Nat} {b : W512} {off : Nat} (h : badB s ext r b off = true) :
    ∃ f, Takes s ext r b f ∧ cmdOffence (f.admitting r b) b = some off := by
  simp only [badB, Bool.and_eq_true, decide_eq_true_eq] at h
  obtain ⟨h1, h2⟩ := h
  obtain ⟨f, hf, ht⟩ := takes_of h1
  rw [hf] at h2
  exact ⟨f, ht, h2⟩


/-! ### Well-formedness: each check refuses a term that breaks it -/

/-- One term that is ill-formed for each check of an operand alone or in a list of operands. -/
theorem test_wf_refuses_names : (([
    .nop 256 0, .ewaitWake 256, .dispatchCoreStart 0 0 256, .dmaDone 0 { bytes := [(2 ^ 48, 0)] }, .mutualWait { excl := [2 ^ 42] },
    .mutualWait { poisoned := [2 ^ 42] }, .mutualWait { silent := [2 ^ 42] }, .mutualWait { got := [2 ^ 42] },
    .flush (.ring 64), .cmdNop 64 {}, .ringCtlWrite (.ring 64) 0 0 {}, .runnerAckTimeout 16, .linkRetrain .secure 16,
    .beatReloadDone 64, .idleGate 64, .beatBroadcast [(63, 0), (64, 0)], .regulatorSample 0 [(64, ⟨0, 0, 0, 0, 0⟩)],
    .characterise [] [(64, 0, 0)], .dieInit [64] none none, .dieInit [] (some 64) none,
    .dieInit [] none (some (64, 0)), .diePowerRestored 64, .gateWireFail 64 0 {}, .thermalTrip 64 0 {}, .reloadFail 64 {},
    .traceRecordAccept 0 64, .rwpWriteDone (2 ^ 28) {}, .regRd false 0 (2 ^ 28) {}, .sprueSnpTimeout (2 ^ 48),
    .nqFlush .secure 0 (.core 256 0), .nqFlush .secure 0 (.port .secure 8192), .nqFlush .secure 0 (.port (.ring 64) 0),
    .scrub 0 (2 ^ 48) []] : List Instr).all fun i => !WellFormed i) = true := by decide

theorem test_wf_refuses_numbers : (([
    .wcCtlWrite .secure 1024 0, .nqFlush .secure 64 .none, .noticePost 64 0 true 0, .nqStaleTimeout 64, .sqCtlWrite .secure 256 0,
    .cacheFill (2 ^ 41) [], .scrub 24 0 [], .sprueReqTimeout 8192, .memRd true 8192 0 .clear, .rspAck 0 5 .i .clear,
    .rspAck 8192 0 .i .clear, .sprIntMaskWrite .secure 8 0, .sprueRetrainDone .full [18] {}, .runnerRetrainDone 0 true [18] {},
    .flood 0 65536 0 {}, .flood 0 0 256 {}, .reductionDeadline 65536, .linkTrainDone 0 true 8192 0 0 [],
    .linkTrainDone 0 true 0 16 0 [], .traceSample 8, .traceRecordAccept 8 0, .groupCloseTimeout 0 8, .bankSpareDone 16,
    .retireRequestTimeout (2 ^ 18), .windowEndRequest .secure 65536, .hbmInit (some 8), .memTest [] [2 ^ 18] [] none,
    .memTest [] [] [(16, 0)] none, .memTest [] [] [] (some 16), .sprueMap [34], .bmiRead 256] : List Instr).all
      fun i => !WellFormed i) = true := by decide

theorem test_wf_refuses_messages :
    let m : RunMsg := { opc := 0 }
    let s : SprueFrame := { crcOk := true, seq := 0, ftype := 0, ack := 0, nak := false, credits := (0, 0, 0, 0) }
    let f : RunnerFrame := { crcOk := true, sealOk := true, fec := 0, seq := 0, ftype := 0, ack := 0, nak := false, credits := [] }
    (([.wack 17 m {}, .wack 0 { m with opc := 256 } {}, .wack 0 { m with vc := 8 } {}, .wack 0 { m with dest := 8192 } {},
      .wack 0 { m with src := 8192 } {}, .wack 0 { m with stream := 256 } {}, .wack 0 { m with addr := 2 ^ 48 } {},
      .wack 0 { m with ring := 64 } {}, .wack 0 { m with hi := 1024 } {}, .wack 0 { m with seq := 2 ^ 32 } {},
      .wack 0 { m with data := List.replicate 4097 0 } {}, .sprueFrameRx { s with seq := 4096 }, .sprueFrameRx { s with ftype := 16 },
      .sprueFrameRx { s with ack := 4096 }, .runnerFrameRx 0 { f with seq := 4096 } {}, .runnerFrameRx 0 { f with ftype := 16 } {},
      .runnerFrameRx 0 { f with ack := 4096 } {}, .dbgAccess (.halt 256) {}, .dbgAccess (.coreRead 256 .pc 0 0) {},
      .dbgAccess (.coreWrite 256 .pc 0 0 0) {}, .dbgAccess (.regRead (2 ^ 28)) {}, .dbgAccess (.regWrite (2 ^ 28) 0 0) {},
      .dbgAccess (.memRead (2 ^ 48) 0) {}, .dbgAccess (.memRead 0 33) {}, .dbgAccess (.memWrite (2 ^ 48) []) {},
      .dbgAccess (.linkTest 16 false) {}] : List Instr).all fun i => !WellFormed i) = true := by decide +kernel

theorem test_wf_admits : (([.nop 255 0, .cmdNop 63 { bytes := [(2 ^ 48 - 1, 0)], excl := [2 ^ 42 - 1] }, .wack 16 { opc := 255 } {},
    .rspAck 8191 4 .i .clear, .scrub 23 0 [], .bmiRead 255, .dbgAccess (.memRead 0 32) {}] : List Instr).all WellFormed) = true := by decide

/-! ### The spec's worked examples -/

/-- The weight line of section 2's example: slice 15, 65,536 sets, set 0x4838. -/
theorem test_weight_line : sliceHash 0x32A41C580 = 15 ∧ windowSets (withRegs [(Reg.cruPartition, 24)]) = 65536 ∧
    setKey (withRegs [(Reg.cruPartition, 24)]) 0x32A41C580 = 0x4838 * 16 + 15 := by decide

/-- The step word of section 7's example has home slice 10. -/
theorem test_step_word : sliceHash 0x7FC001000 = 10 := by decide

/-- The device of section 1's example: id 6,749 at (5, 3, 9, 6). -/
theorem test_device_id : coordOf 6749 0 = 5 ∧ coordOf 6749 1 = 3 ∧ coordOf 6749 2 = 9 ∧ coordOf 6749 3 = 6 := by decide

/-- The encoding of `mm` in section 6's example. -/
theorem test_mm_word : coreOp 0x300044004E000000 = some .mm ∧ bits 0x300044004E000000 49 46 = 1 ∧ bits 0x300044004E000000 45 41 = 2 ∧
    bits 0x300044004E000000 32 30 = 1 ∧ bits 0x300044004E000000 29 25 = 7 ∧
    toBytes 8 0x300044004E000000 = [0x00, 0x00, 0x00, 0x4E, 0x00, 0x44, 0x00, 0x30] := by decide

/-- The block of section 3's example, with sub-blocks of 0.031 and 0.022 between. -/
def layerBlock : List Val :=
  ([ 0x3D29FBE7, 0xBC4985F0, 0x3BA71DE7, 0x3AF9096C, 0xBB09A027, 0x00000000, 0x3CEBEDFA, 0xBD0F5C29, 0x3CFDF3B6,
     0x3CFDF3B6, 0x3CFDF3B6, 0x3CFDF3B6, 0x3CFDF3B6, 0x3CFDF3B6, 0x3CFDF3B6, 0x3CFDF3B6, 0x3AF9096C, 0x3B2A64C3,
     0xBA51B717, 0x3A902DE0, 0xBB1D4952, 0x399D4952, 0x3ADED289, 0xBA9D4952, 0x3CB43958, 0x3CB43958, 0x3CB43958,
     0x3CB43958, 0x3CB43958, 0x3CB43958, 0x3CB43958, 0x3CB43958] : List Nat).map FFmt.fp32.decode

/-- In MXFP4 its scale is 0x78, sub-blocks 0 and 2 have these codes and flush 7 elements. -/
theorem test_mxfp4 :
    let r := quantBlock .mx4 .rne (fun _ => 0) layerBlock
    r.1.entry = 0x78 ∧ r.1.codes.take 8 = [0x7, 0xB, 0x1, 0x0, 0x9, 0x0, 0x6, 0xE] ∧
      (r.1.codes.drop 16).take 8 = [0x0, 0x1, 0x8, 0x0, 0x9, 0x0, 0x0, 0x8] ∧ r.2.flushed = 7 := by decide +kernel

/-- In Z4S its entry is 0x78, 0x74, and sub-block 2 has these codes. -/
theorem test_z4s :
    let r := quantBlock .z4s .rne (fun _ => 0) layerBlock
    r.1.entry = 0x7478 ∧ r.1.codes.take 8 = [0x7, 0xB, 0x1, 0x0, 0x9, 0x0, 0x6, 0xE] ∧
      (r.1.codes.drop 16).take 8 = [0x4, 0x5, 0xA, 0x2, 0xC, 0x1, 0x3, 0xA] := by decide +kernel

/-- The MXFP8 block with an outlier of 1000 and an element of 0.003: scale 0x80, codes 0x7E and 0x01, and OF. -/
theorem test_mxfp8 :
    let r := quantBlock .mx8e4 .rne (fun _ => 0) ([.fin false 1000 0, FFmt.fp32.decode 0x3B449BA6] ++ List.replicate 30 (.fin false 0 0))
    r.1.entry = 0x80 ∧ r.1.codes.take 2 = [0x7E, 0x01] ∧ r.2.ov = true := by decide +kernel

/-- The group of 256 products of section 3's example sums to 12. -/
theorem test_window_sum :
    (accFloat 0 (windowSum (.fin false 12 0 :: List.replicate 255 (.fin false 3 (-29)))).1).1 = 0x41400000 := by decide +kernel

/-- The hop of section 9's example: the scale rises to 0x7B, element 9 becomes 0x76 and element 20 zero. -/
theorem test_hop :
    let ys := listSet (listSet (List.replicate 32 (.fin false 0 0)) 9 (.fin false 29 (-1))) 20 (.fin false 1 (-14))
    let r := hopBlock .mx8e4 0x7A ys
    r.1 = 0x7B ∧ r.2.1.getD 9 1 = 0x76 ∧ r.2.1.getD 20 1 = 0 ∧ r.2.2 = true := by decide +kernel

/-- Under seal, counts are shown to powers of 16, and IDLE_BUBBLE to the multiple of 2³⁰ below its last value (section 12). -/
theorem test_coarse : coarseN 1203 = 256 ∧ coarseN 70000 = 65536 ∧
    counterReported { withRegs [(Reg.glbState, 0x1000)] with ctrT := [(0x011, 2500000000)] } 0x011 = 2147483648 := by decide

/-- The info string of section 13's example. -/
theorem test_link_info :
    linkInfo 0x05E2 0 0x05E3 2 = [0x5A, 0x57, 0x2D, 0x4C, 0x49, 0x4E, 0x4B, 0xE2, 0x05, 0x00, 0xE3, 0x05, 0x02] ∧
      portOf 0 false = 0 ∧ portOf 0 true = 2 := by decide

/-- The digest of "abc" (FIPS 180-4) and the check value of CRC-32C for "123456789". -/
theorem test_digests : ofBytes (sha256 (label "abc")).reverse = 0xBA7816BF8F01CFEA414140DE5DAE2223B00361A396177A9CB410FF61F20015AD ∧
    crc32c (label "123456789") = 0xE3069283 := by decide +kernel
/-- Every row issues with destination x31, and `int-alu` with the last operation code of its table. -/
theorem witness_IntegerInstructionResults :
    let s := one run0
    Issues s 0 .nop (iw 0x00 0 0 0) 0 ∧ Issues s 0 .intAlu (iw 0x01 31 30 (29 * 2 ^ 37 + 0x0D * 2 ^ 24)) 0 ∧
    Issues s 0 .intAluImm (iw 0x02 31 30 (0x0D * 2 ^ 32 + 0xFFFFFFFF)) 0 ∧ Issues s 0 .li (iw 0x03 31 0 0x80000000) 0 ∧
    Issues s 0 .lui (iw 0x04 31 31 0xFFFFFFFF) 0 ∧
    Issues s 0 .lid (iw 0x85 31 0 0xFFFFFFFF) 0xFF00000080000000 ∧
    Issues s 0 .pcmp (iw 0x06 7 1 (5 * 2 ^ 24)) 0 ∧ Issues s 0 .predicateLogic (iw 0x07 7 6 (3 * 2 ^ 24)) 0 ∧
    Issues s 0 .pget (iw 0x08 0 7 0) 0 ∧ Issues s 0 .pset (iw 0x08 7 31 (2 ^ 24)) 0 ∧
    Issues s 0 .sel (iw 0x09 31 1 (2 * 2 ^ 37 + 7 * 2 ^ 32)) 0 :=
  ⟨issues_of (by decide), issues_of (by decide), issues_of (by decide), issues_of (by decide), issues_of (by decide),
   issues_of (by decide), issues_of (by decide), issues_of (by decide), issues_of (by decide), issues_of (by decide),
   issues_of (by decide)⟩

/-- With every trap enabled, operations on zeros raise no condition. -/
theorem witness_ScalarFloatResults :
    let s := one { run0 with trapEn := 0x1F }
    (Issues s 0 .scalarFloatOp (iw 0x10 15 14 (13 * 2 ^ 37 + 12 * 2 ^ 32 + 3 * 2 ^ 24)) 0 ∧
      (s.core 0).arithTrap (floatOp 3 0 0 0).2 = false) ∧
    Issues s 0 .fcvtFX (iw 0x10 15 31 (0x09 * 2 ^ 24)) 0 ∧
    (Issues s 0 .fcvtXF (iw 0x10 31 15 (0x0A * 2 ^ 24)) 0 ∧
      (s.core 0).arithTrap ((IFmt.mk 64 true).encode .rtz 0 (FFmt.fp32.decode 0)).2 = false) ∧
    Issues s 0 .fmvXF (iw 0x10 31 15 (0x0B * 2 ^ 24)) 0 ∧ Issues s 0 .fmvFX (iw 0x10 15 31 (0x0C * 2 ^ 24)) 0 ∧
    Issues s 0 .fcmp (iw 0x11 7 15 (14 * 2 ^ 37 + 3 * 2 ^ 24)) 0 ∧ Issues s 0 .fli (iw 0x12 15 0 0xFF800000) 0 :=
  ⟨⟨issues_of (by decide), by decide⟩, issues_of (by decide), ⟨issues_of (by decide), by decide⟩, issues_of (by decide),
   issues_of (by decide), issues_of (by decide), issues_of (by decide)⟩

/-- A target at the first and one at the last instruction of the code, taken and not taken; the targets just past both
ends of the code and a misaligned one; and the first offset past the code. -/
theorem witness_ControlTransferResults :
    let s := one { run0 with pc := 0x800, x := [(1, 0xFF8), (4, 0xFFC)] }
    let p1 := one { run0 with pc := 0x800, p := [(7, 1)] }
    let past := one { run0 with pc := 0x1000 }
    let good (k : Core) (t : W64) : Prop := t.toNat % 8 = 0 ∧ pcInRange { k with pc := t } 8 = true
    (Issues s 0 .br (iw 0x18 2 3 0x7F8) 0 ∧ intCond 0 ((s.core 0).xr 2) ((s.core 0).xr 3) = true ∧ good (s.core 0) 0xFF8) ∧
    (Issues s 0 .br (iw 0x18 1 3 (0 * 2 ^ 39 + 0xFFFFF800)) 0 ∧ intCond 0 ((s.core 0).xr 1) ((s.core 0).xr 3) = false) ∧
    (Issues p1 0 .bp (iw 0x19 7 0 0xFFFFF800) 0 ∧ (Tab.get 0 (p1.core 0).p 7).getLsbD 0 = true ∧ good (p1.core 0) 0) ∧
    (Issues s 0 .bp (iw 0x19 7 0 0xFFFFF800) 0 ∧ (Tab.get 0 (s.core 0).p 7).getLsbD 0 = false) ∧
    Issues s 0 .bpn (iw 0x19 7 0 (2 ^ 39 + 0xFFFFF800)) 0 ∧ Issues p1 0 .bpn (iw 0x19 7 0 (2 ^ 39 + 0xFFFFF800)) 0 ∧
    Issues s 0 .jmp (iw 0x1A 0 0 0x7F8) 0 ∧ Issues s 0 .callInst (iw 0x1B 0 0 0x7F8) 0 ∧
    (Issues s 0 .jr (iw 0x1C 0 1 0) 0 ∧ good (s.core 0) ((s.core 0).xr 1)) ∧
    ((s.core 0).trapValid = false ∧ Issues s 0 .br (iw 0x18 2 3 0x800) 0 ∧ ¬ good (s.core 0) 0x1000) ∧
    (Issues p1 0 .bp (iw 0x19 7 0 0xFFFFF7F8) 0 ∧ ¬ good (p1.core 0) 0xFFFFFFFFFFFFFFF8) ∧
    Issues s 0 .bpn (iw 0x19 7 0 (2 ^ 39 + 0x800)) 0 ∧ Issues s 0 .jmp (iw 0x1A 0 0 0x800) 0 ∧
    Issues s 0 .callInst (iw 0x1B 0 0 0x800) 0 ∧ (Issues s 0 .jr (iw 0x1C 0 4 0) 0 ∧ ¬ good (s.core 0) ((s.core 0).xr 4)) ∧
    ((past.core 0).mode = .running ∧ (past.core 0).hold = none ∧ (past.core 0).stopping = false ∧ debugHolds past 0 = false ∧ pcInRange (past.core 0) 8 = false ∧
      coreRow (.nop 0 0) = some (.nop, 0, 0, 0)) :=
  ⟨⟨issues_of (by decide), by decide, by decide⟩, ⟨issues_of (by decide), by decide⟩,
   ⟨issues_of (by decide), by decide, by decide⟩, ⟨issues_of (by decide), by decide⟩, issues_of (by decide),
   issues_of (by decide), issues_of (by decide), issues_of (by decide), ⟨issues_of (by decide), by decide⟩,
   ⟨by decide, issues_of (by decide), by decide⟩, ⟨issues_of (by decide), by decide⟩, issues_of (by decide),
   issues_of (by decide), issues_of (by decide), ⟨issues_of (by decide), by decide⟩, by decide⟩

/-- The last shape, the last field of a descriptor register and the last trap enable. -/
theorem witness_SystemInstructionResults :
    let s := one run0
    Issues s 0 .srseed (iw 0x5B 0 31 0) 0 ∧ Issues s 0 .kset (iw 0x78 7 1 (2 * 2 ^ 37 + 3 * 2 ^ 32)) 0 ∧
    Issues s 0 .kget (iw 0x78 31 7 (2 ^ 24 + 2)) 0 ∧ Issues s 0 .trapen (iw 0x79 0 0 0x1F) 0 ∧
    Issues s 0 .flags (iw 0x7A 31 0 0) 0 ∧ Issues s 0 .dset (iw 0x26 15 31 (13 * 2 ^ 24)) 0 ∧
    Issues s 0 .dget (iw 0x27 31 15 (13 * 2 ^ 24)) 0 :=
  ⟨issues_of (by decide), issues_of (by decide), issues_of (by decide), issues_of (by decide), issues_of (by decide),
   issues_of (by decide), issues_of (by decide)⟩

/-- An unassigned opcode, the first offset past the code, a first word marked as a second one, a wrong W bit, a second word
without its mark, the first and the last reserved guard, a reserved bit, and the first guard over a false predicate. -/
theorem witness_IllegalAndGuardedWords :
    let s := one run0
    let k := s.core 0
    let past := (one { run0 with pc := 0x1000 }).core 0
    let li : W64 := iw 0x03 0 0 0
    let lid : W64 := iw 0x05 0 0 0 ||| 1#64 <<< 63
    let g (n : Nat) : W64 := li ||| BitVec.ofNat 64 (n * 2 ^ 52)
    let wrong (op : CoreOp) (w : W64) : Prop := coreOp w.toNat = some op ∧ bits w.toNat 63 56 ≠ 0xFF
    (k.mode = .running ∧ k.hold = none ∧ k.stopping = false ∧ debugHolds s 0 = false ∧ k.trapValid = false ∧ pcInRange k 8 = true) ∧
    (coreOp (iw 0x0A 0 0 0).toNat = none ∧ pcInRange past 8 = false ∧ bits (0xFF#64 <<< 56).toNat 63 56 = 0xFF) ∧
    (coreRow (.li 0 (li ||| 1#64 <<< 63)) = some (.li, 0, li ||| 1#64 <<< 63, 0) ∧ wrong .li (li ||| 1#64 <<< 63) ∧
      bit (li ||| 1#64 <<< 63).toNat 63 ≠ CoreOp.wide .li) ∧
    (coreRow (.lid 0 lid 0) = some (.lid, 0, lid, 0) ∧ wrong .lid lid ∧ CoreOp.wide .lid = true ∧
      bits (0#64).toNat 63 56 ≠ 0xFF) ∧
    (wrong .lid lid ∧ pcInRange ((one { run0 with pc := 0xFF8 }).core 0) 8 = true ∧
      pcInRange ((one { run0 with pc := 0xFF8 }).core 0) 16 = false) ∧
    (wrong .li (g 1) ∧ Iw.guard (g 1).toNat = 1) ∧ (wrong .li (g 7) ∧ Iw.guard (g 7).toNat = 7) ∧
    (wrong .li (li ||| 1#64 <<< 32) ∧ coreLegal .li (li ||| 1#64 <<< 32).toNat 0 = false) ∧
    (wrong .li (g 8) ∧ Iw.guard (g 8).toNat = 8 ∧ bit (g 8).toNat 63 = CoreOp.wide .li ∧ coreLegal .li (g 8).toNat 0 = true ∧
      (Tab.get 0 k.p (8 % 8)).getLsbD 0 = false) :=
  ⟨by decide, by decide, by decide, by decide, by decide, by decide, by decide, by decide, by decide⟩

/-- The last bytes of the operand buffer, with another transfer far away. -/
theorem witness_OperandBufferAccesses :
    let k := { run0 with x := [(1, 0x100000)] }
    let s := one k
    let ob := 2 ^ 38
    let readable (a len : Nat) : Prop :=
      a + len ≤ 0x100000 ∧ k.readBlocked [⟨a, len⟩] = false ∧ k.obPoisoned a len = false
    let writable (a len : Nat) : Prop := a + len ≤ 0x100000 ∧ k.writeBlocked [⟨a, len⟩] = false
    (Issues s 0 .ld (iw 0x20 31 1 (3 * 2 ^ 40 + ob + 0xFFFFFFF8)) 0 ∧ readable 0xFFFF8 8) ∧
    (Issues s 0 .vld (iw 0x22 31 1 (ob + 0xFFFFFF00)) 0 ∧ readable 0xFFF00 256) ∧
    (Issues s 0 .dld (iw 0x24 15 1 (ob + 0xFFFFFFFF)) 0 ∧ readable 0xFFFC0 64) ∧
    (Issues s 0 .st (iw 0x21 31 1 (3 * 2 ^ 40 + ob + 0xFFFFFFF8)) 0 ∧ writable 0xFFFF8 8) ∧
    (Issues s 0 .vst (iw 0x23 31 1 (ob + 0xFFFFFF00)) 0 ∧ writable 0xFFF00 256 ∧ k.arithTrap { nonfinite := 0 } = false) ∧
    (Issues s 0 .dst (iw 0x25 15 1 (ob + 0xFFFFFFFF)) 0 ∧ writable 0xFFFC0 64) :=
  ⟨⟨issues_of (by decide), by decide⟩, ⟨issues_of (by decide), by decide⟩, ⟨issues_of (by decide), by decide⟩,
   ⟨issues_of (by decide), by decide⟩, ⟨issues_of (by decide), by decide⟩, ⟨issues_of (by decide), by decide⟩⟩

/-- The last bytes of a page. -/
theorem witness_ScratchLoads :
    let s := scr { run0 with x := [(1, 0x010000200000)] }
    let inScratch (a : W64) (len pa : Nat) : Prop :=
      ∃ va na key, coreAddr s a len true = .ok (.loc va) ∧ va % 2 ^ 21 + len ≤ 2 ^ 21 ∧
        translate s .read va = some (pa, na) ∧ place s pa = .scratch key ∧ ScratchSound s pa len
    (Issues s 0 .ld (iw 0x20 31 1 (3 * 2 ^ 40 + 0xFFFFFFF8)) 0 ∧ inScratch 0x0100001FFFF8 8 0x0100001FFFF8) ∧
    (Issues s 0 .vld (iw 0x22 31 1 0xFFFFFF00) 0 ∧ inScratch 0x0100001FFF00 256 0x0100001FFF00) ∧
    (Issues s 0 .dld (iw 0x24 15 1 0xFFFFFFFF) 0 ∧ inScratch 0x0100001FFFC0 64 0x0100001FFFC0) :=
  ⟨⟨issues_of (by decide), 0x0100001FFFF8, true, hashedKey 0x1FFFF8, loc_of (by decide), by decide, by decide, by decide, sound_of (by decide)⟩,
   ⟨issues_of (by decide), 0x0100001FFF00, true, hashedKey 0x1FFF00, loc_of (by decide), by decide, by decide, by decide, sound_of (by decide)⟩,
   ⟨issues_of (by decide), 0x0100001FFFC0, true, hashedKey 0x1FFFC0, loc_of (by decide), by decide, by decide, by decide, sound_of (by decide)⟩⟩

/-- The last bytes of a page. -/
theorem witness_ScratchStores :
    let s := scr { run0 with x := [(1, 0x010000200000)] }
    let inScratch (a : W64) (len pa : Nat) : Prop :=
      ∃ va na, coreAddr s a len false = .ok (.loc va) ∧ va % 2 ^ 21 + len ≤ 2 ^ 21 ∧
        translate s .write va = some (pa, na) ∧
        ∀ j, j < len → ∃ key, place s (pa + j) = .scratch key ∧ inNoticeRing s key = false
    (Issues s 0 .st (iw 0x21 31 1 (3 * 2 ^ 40 + 0xFFFFFFF8)) 0 ∧ inScratch 0x0100001FFFF8 8 0x0100001FFFF8) ∧
    (Issues s 0 .vst (iw 0x23 31 1 0xFFFFFF00) 0 ∧ (s.core 0).arithTrap { nonfinite := 0 } = false ∧
      inScratch 0x0100001FFF00 256 0x0100001FFF00) ∧
    (Issues s 0 .dst (iw 0x25 15 1 0xFFFFFFFF) 0 ∧ inScratch 0x0100001FFFC0 64 0x0100001FFFC0) :=
  ⟨⟨issues_of (by decide), 0x0100001FFFF8, true, loc_of (by decide), by decide, by decide, scratch_of (by decide)⟩,
   ⟨issues_of (by decide), by decide, 0x0100001FFF00, true, loc_of (by decide), by decide, by decide, scratch_of (by decide)⟩,
   ⟨issues_of (by decide), 0x0100001FFFC0, true, loc_of (by decide), by decide, by decide, scratch_of (by decide)⟩⟩

/-- One byte past the operand buffer; the first and the last byte of the register space and one before each; an address
of another device; an address with its reserved bits set. -/
theorem witness_LoadAndDetTraps :
    let at_ (a : W64) : State := one { run0 with x := [(1, a)] }
    let ld (ob : Bool) : W64 := iw 0x20 31 1 (b2n ob * 2 ^ 38)
    let regs (v : Nat) : Prop := v % 2 ^ 48 < 0x020010000000 ∧ 0x020000000000 < v % 2 ^ 48 + 1
    (Issues (at_ 0x100000) 0 .ld (ld true) 0 ∧ ((at_ 0x100000).core 0).trapValid = false ∧ 0x100000 < 0x100000 + 1) ∧
    (Issues (at_ 0x02000FFFFFFF) 0 .ld (ld false) 0 ∧ regs 0x02000FFFFFFF) ∧
    (Issues (at_ 0x020000000000) 0 .ld (ld false) 0 ∧ regs 0x020000000000) ∧
    (Issues (at_ 0x0001020010000000) 0 .ld (ld false) 0 ∧ ¬ regs 0x0001020010000000 ∧ bits 0x0001020010000000 49 48 ≠ 0) ∧
    (Issues (at_ 0x0005000000000000) 0 .ld (ld false) 0 ∧ idInSystem (at_ 0) 1 = false) ∧
    (let s := { at_ 0x0004000000000000 with regs := [(Reg.glbAxes, 1)] }
     Issues s 0 .ld (ld false) 0 ∧ bits 0x0004000000000000 49 48 = 0 ∧ idInSystem s 1 = true ∧ 1 ≠ ownId s) ∧
    (let s := one { run0 with det := true }
     Issues s 0 .npost (iw 0x63 1 0 0) 0 ∧ Issues s 0 .npop (iw 0x64 1 0 0) 0 ∧ Issues s 0 .tstamp (iw 0x68 31 0 0) 0 ∧
     Issues s 0 .cntr (iw 0x69 31 0 0) 0 ∧ Issues s 0 .amoAdd (iw 0x6D 31 1 0) 0 ∧
     Issues s 0 .amoFadd (iw 0x6D 31 1 (2 * 2 ^ 24)) 0 ∧ Issues s 0 .amoCas (iw 0x6D 31 1 (4 * 2 ^ 24)) 0) :=
  ⟨⟨issues_of (by decide), by decide⟩, ⟨issues_of (by decide), by decide⟩, ⟨issues_of (by decide), by decide⟩,
   ⟨issues_of (by decide), by decide⟩, ⟨issues_of (by decide), by decide⟩, ⟨issues_of (by decide), by decide⟩,
   ⟨issues_of (by decide), issues_of (by decide), issues_of (by decide), issues_of (by decide), issues_of (by decide),
    issues_of (by decide), issues_of (by decide)⟩⟩

/-- The last aligned word of a page. -/
theorem witness_AtomicsOfScratch :
    let s := scr { run0 with x := [(1, 0x0100001FFFF8)] }
    (translate s .write 0x0100001FFFF8 = some (0x0100001FFFF8, true) ∧
      place s 0x0100001FFFF8 = .scratch (hashedKey 0x1FFFF8) ∧ s.isPoison (hashedKey 0x1FFFF8) = false ∧
      s.wordState (hashedKey 0x1FFFF8 / 16) = .clean ∧ (∀ j, j < 8 → inNoticeRing s (hashedKey 0x1FFFF8 + j) = false) ∧
      (s.core 0).det = false) ∧
    coreAddr s 0x0100001FFFF8 8 true = .ok (.loc 0x0100001FFFF8) ∧ 0x0100001FFFF8 % 8 = 0 ∧
    coreAddr s 0x0100001FFFF8 4 true = .ok (.loc 0x0100001FFFF8) ∧
    Issues s 0 .amoAdd (iw 0x6D 31 1 (2 * 2 ^ 37 + 2 ^ 24)) 0 ∧ Issues s 0 .amoFadd (iw 0x6D 31 1 (2 * 2 ^ 37 + 2 * 2 ^ 24)) 0 ∧
    Issues s 0 .amoCas (iw 0x6D 31 1 (2 * 2 ^ 37 + 3 * 2 ^ 32 + 5 * 2 ^ 24)) 0 :=
  ⟨by decide, loc_of (by decide), by decide, loc_of (by decide), issues_of (by decide), issues_of (by decide), issues_of (by decide)⟩

/-- One row of 16 bytes at the start and the end of the operand buffer and in memory; a queue with one entry of room. -/
theorem witness_DmaInstructionResults :
    let k : Core := { run0 with d := [(0, desc 0 16 1 1 9 1), (1, desc 0xFFFF0 16 1 1 9 1), (2, desc 0x010000000000 16 1 1 9 0),
                                      (3, desc 0 0 1 1 9 1), (4, desc 0 4 1 1 0 1), (5, desc 0 4 1 1 0 0)] }
    let s := { scr k with xlat := [(0, 0x0F), (0x80000, 0x01000000000F)] }
    let e : DmaEntry := { kind := .dma, src := 0, dst := 0, tag := 15, flagAddr := 0, flagVal := 0, tileLo := 0, tileHi := 0, pc := 0 }
    let alike (i j : Nat) : Prop := checkDesc (Tab.get 0 k.d i) = .ok () ∧ checkDesc (Tab.get 0 k.d j) = .ok () ∧
      Desc.dim0 (Tab.get 0 k.d i) = Desc.dim0 (Tab.get 0 k.d j) ∧ Desc.dim1 (Tab.get 0 k.d i) = Desc.dim1 (Tab.get 0 k.d j) ∧
      Desc.dim2 (Tab.get 0 k.d i) = Desc.dim2 (Tab.get 0 k.d j) ∧ Desc.fmt (Tab.get 0 k.d i) = Desc.fmt (Tab.get 0 k.d j)
    let w (op src dst : Nat) : W64 := BitVec.ofNat 64 (op * 2 ^ 56 + src * 2 ^ 48 + dst * 2 ^ 44 + 15 * 2 ^ 40)
    let full : State := one { run0 with dmaQ := List.replicate 15 e }
    (Issues s 0 .dma (w 0x28 3 3) 0 ∧ alike 3 3 ∧ Desc.dim0 (Tab.get 0 k.d 3) = 0) ∧
    (Issues s 0 .dma (w 0x28 0 1) 0 ∧ alike 0 1 ∧ Desc.dim0 (Tab.get 0 k.d 0) ≠ 0 ∧ Desc.dim1 (Tab.get 0 k.d 0) ≠ 0 ∧
      Desc.dim2 (Tab.get 0 k.d 0) ≠ 0 ∧ (full.core 0).dmaQ.length < 16) ∧
    (Issues s 0 .put (w 0x2A 0 2) 0 ∧ alike 0 2 ∧ Desc.inOb (Tab.get 0 k.d 2) = false) ∧
    (Issues s 0 .racc (w 0x70 4 5) 0 ∧ raccCheck s (s.core 0) (w 0x70 4 5).toNat = .ok ()) ∧
    (Issues full 0 .dwait (iw 0x29 0 0 0x7FFF) 0 ∧
      ∀ e ∈ (full.core 0).dmaQ, (bits (iw 0x29 0 0 0x7FFF).toNat 15 0).testBit e.tag = false) ∧
    Issues s 0 .fenceL (iw 0x2B 0 0 0) 0 ∧ (Issues s 0 .fenceA (iw 0x2B 0 0 (2 ^ 32)) 0 ∧ (s.core 0).dmaQ = []) ∧
    (Issues s 0 .fenceR (iw 0x2B 0 0 (2 * 2 ^ 32)) 0 ∧ (s.core 0).putsOut = 0) :=
  ⟨⟨issues_of (by decide), ⟨ok_of (by decide), ok_of (by decide), by decide⟩, by decide⟩,
   ⟨issues_of (by decide), ⟨ok_of (by decide), ok_of (by decide), by decide⟩, by decide⟩,
   ⟨issues_of (by decide), ⟨ok_of (by decide), ok_of (by decide), by decide⟩, by decide⟩,
   ⟨issues_of (by decide), ok_of (by decide)⟩, ⟨issues_of (by decide), by decide⟩, issues_of (by decide),
   ⟨issues_of (by decide), by decide⟩, ⟨issues_of (by decide), by decide⟩⟩

/-- A row of one byte, and conditions that are raised with no trap enabled. -/
theorem witness_UnitCompletions :
    let e : DmaEntry := { kind := .dma, src := desc 0xFFFFF 1 1 1 9 1, dst := desc 0 1 1 1 9 1, tag := 0, flagAddr := 0,
                          flagVal := 0, tileLo := 0, tileHi := 0, pc := 0 }
    let u : UnitEntry := { pc := 0, conds := { nv := true, nonfinite := 1 } }
    let k : Core := { run0 with dmaQ := [e], mxeQ := [u], vecQ := [u, u] }
    k.hold = none ∧ cruHolds (one k) = false ∧ (one k).win.misses = [] ∧ e.kind = .dma ∧
    Desc.base e.dst + Desc.rowBytes e.src ≤ Desc.base e.src ∧ Desc.inOb e.src = true ∧ Desc.inOb e.dst = true ∧ Desc.dim0 e.src ≠ 0 ∧
    Desc.dim1 e.src = 1 ∧ Desc.dim2 e.src = 1 ∧ (Desc.fmt e.src).isBlock = false ∧
    k.obPoisoned (Desc.base e.src) (Desc.rowBytes e.src) = false ∧ k.arithTrap u.conds = false := by decide

/-- Slot 4,095 at and just below its value; the last word of a page, for each condition of `mwait`; waits met by a
write; every counter selector, and a die whose copy does not reload beside one whose copy does. -/
theorem witness_WaitsAndTime :
    let k : Core := { run0 with x := [(1, 0xFFF), (2, 5), (3, 6), (4, 0x0100001FFFFF)] }
    let s := { scr k with events := [(0xFFF, 5)] }
    let held (w : W64) : Core := { run0 with hold := some { w := w, e := 0, markT := true, met := true } }
    (Issues s 0 .erec (iw 0x60 0 1 (3 * 2 ^ 37)) 0 ∧
     (Issues s 0 .ewait (iw 0x61 0 1 (2 * 2 ^ 37)) 0 ∧ ((s.core 0).xr 2).toNat ≤ (s.event 0xFFF).toNat) ∧
     (Issues s 0 .ewait (iw 0x61 0 1 (3 * 2 ^ 37)) 0 ∧ (s.event 0xFFF).toNat < ((s.core 0).xr 3).toNat)) ∧
    (bits (0x0100001FFFFF : W64).toNat 47 3 * 8 = 0x0100001FFFF8 ∧ 0x0100001FFFF8 + 8 ≤ 0x020000000000 ∧
     translate s .read 0x0100001FFFF8 = some (0x0100001FFFF8, true) ∧
     place s 0x0100001FFFF8 = .scratch (hashedKey 0x1FFFF8) ∧ s.isPoison (hashedKey 0x1FFFF8) = false ∧
     s.wordState (hashedKey 0x1FFFF8 / 16) = .clean ∧ wordAt s (hashedKey 0x1FFFF8) = 0) ∧
    (Issues s 0 .mwait (iw 0x62 0 4 (0 * 2 ^ 24)) 0 ∧ Issues s 0 .mwait (iw 0x62 0 4 (2 ^ 24)) 0 ∧
     Issues s 0 .mwait (iw 0x62 0 4 (2 * 2 ^ 24)) 0) ∧
    (∃ h, (held (iw 0x61 0 0 0)).hold = some h ∧ h.met = true ∧ bits h.w.toNat 62 56 = 0x61) ∧
    (∃ h, (held (iw 0x62 0 0 0)).hold = some h ∧ h.met = true ∧ bits h.w.toNat 62 56 = 0x62) ∧
    (let s := { one run0 with reloading := [(1, 0)] }
     (s.core 0).det = false ∧ (s.reloading.any fun p => p.1 == 0 / 8) = false ∧ Issues s 0 .tstamp (iw 0x68 31 0 0) 0 ∧
     Issues s 0 .tstampT (iw 0x68 0 0 (2 ^ 24)) 0 ∧ Issues s 0 .cntr (iw 0x69 31 0 5) 0 ∧ Issues s 0 .cntr (iw 0x69 31 0 4) 0) :=
  ⟨⟨issues_of (by decide), ⟨issues_of (by decide), by decide⟩, ⟨issues_of (by decide), by decide⟩⟩, by decide,
   ⟨issues_of (by decide), issues_of (by decide), issues_of (by decide)⟩, ⟨_, rfl, by decide⟩, ⟨_, rfl, by decide⟩,
   ⟨by decide, by decide, issues_of (by decide), issues_of (by decide), issues_of (by decide), issues_of (by decide)⟩⟩

/-- The smallest queue with one entry of room and without; the first and last software TYPE and the ones beside them;
two priorities behind each other. -/
theorem witness_NoticeInstructionResults :
    let e (prio : Nat) : W256 := mkNotice 0x10 prio 0 0 0 0
    let q (l : List W256) (gap : Option W256) : State := { one { run0 with x := [(1, 63)] } with
      nqs := [(63, { depth := 4, entries := l, gap := gap })]
      regs := [(Reg.nqCtl 63, 1)] }
    let post (type : Nat) : W64 := iw 0x63 31 1 (type * 2 ^ 24)
    let some1 := q (List.replicate 14 (e 0)) none
    let fullQ := q (List.replicate 15 (e 0)) none
    (Issues some1 0 .npost (post 0x10) 0 ∧ Issues some1 0 .npost (post 0x3F) 0 ∧ nqEnabled some1 63 = true ∧
      (some1.nq 63).entries.length < 2 ^ (some1.nq 63).depth - 1 ∧ (some1.core 0).det = false ∧
      nqInWindow some1 63 = false ∧ (some1.nq 63).flushed = none) ∧
    (Issues fullQ 0 .npost (post 0x3F) 0 ∧ 2 ^ (fullQ.nq 63).depth - 1 ≤ (fullQ.nq 63).entries.length ∧
      nqEnabled (one run0) 63 = false) ∧
    (Issues some1 0 .npost (post 0x0F) 0 ∧ Issues some1 0 .npost (post 0x40) 0) ∧
    (Issues (q [] (some 1)) 0 .npop (iw 0x64 31 1 0) 0 ∧ ((q [] (some 1)).nq 63).gap = some 1) ∧
    (Issues (q [e 0, e 3, e 3] none) 0 .npop (iw 0x64 31 1 0) 0 ∧
      ((q [e 0, e 3, e 3] none).nq 63).entries = [e 0] ++ e 3 :: [e 3] ∧ noticePrio (e 0) < noticePrio (e 3)) ∧
    (Issues (q [] none) 0 .npop (iw 0x64 31 1 0) 0 ∧ nqEnabled (q [] none) 63 = true ∧ ((q [] none).nq 63).entries = []) ∧
    (let s := one { run0 with x := [(1, 63)] }
     Issues s 0 .npop (iw 0x64 31 1 0) 0 ∧ Issues s 0 .npost (post 0x3F) 0 ∧ nqEnabled s 63 = false ∧ nqInWindow s 63 = false ∧
       (s.nq 63).flushed = none) :=
  ⟨⟨issues_of (by decide), issues_of (by decide), by decide⟩, ⟨issues_of (by decide), by decide⟩,
   ⟨issues_of (by decide), issues_of (by decide)⟩, ⟨issues_of (by decide), by decide⟩,
   ⟨issues_of (by decide), by decide⟩, ⟨issues_of (by decide), by decide⟩,
   ⟨issues_of (by decide), issues_of (by decide), by decide⟩⟩

/-- Counter 1,023, named in a register and in the word: disabled, with a reissue, exhausted, and one short of its limit. -/
theorem witness_TakeResults :
    let k := run0
    let at_ (ctl index limit : W32) (l : List W32) : State := { one { run0 with x := [(1, 0x3FF)] } with
      wcs := [(1023, { reissue := l, baseGen := 0 })]
      regs := [(Reg.wcIndex 1023, index), (Reg.wcLimit 1023, limit), (Reg.wcCtl 1023, ctl)] }
    let named := iw 0x6C 31 0 0x3FF
    let read := iw 0x6C 31 1 (2 ^ 32)
    ((at_ 0 0 0 []).core 0).det = false ∧ ((at_ 0 0 0 []).core 0).tilePairs = [] ∧ k.dmaQ = [] ∧
    (Issues (at_ 0 0 0 []) 0 .take named 0 ∧ Issues (at_ 0 0 0 []) 0 .take read 0 ∧
      (at_ 0 0 0 []).flag (Reg.wcCtl 1023) 0 = false) ∧
    (Issues (at_ 1 0 0 [7, 8]) 0 .take named 0 ∧ (at_ 1 0 0 [7, 8]).flag (Reg.wcCtl 1023) 0 = true ∧
      ((at_ 1 0 0 [7, 8]).wc 1023).reissue = 7 :: [8]) ∧
    (Issues (at_ 1 5 5 []) 0 .take read 0 ∧ ((at_ 1 5 5 []).wc 1023).reissue = [] ∧
      ((at_ 1 5 5 []).reg (Reg.wcLimit 1023)).toNat ≤ ((at_ 1 5 5 []).reg (Reg.wcIndex 1023)).toNat) ∧
    (Issues (at_ 1 4 5 []) 0 .take read 0 ∧
      ((at_ 1 4 5 []).reg (Reg.wcIndex 1023)).toNat < ((at_ 1 4 5 []).reg (Reg.wcLimit 1023)).toNat) :=
  ⟨by decide, by decide, by decide, ⟨issues_of (by decide), issues_of (by decide), by decide⟩,
   ⟨issues_of (by decide), by decide⟩, ⟨issues_of (by decide), by decide⟩, ⟨issues_of (by decide), by decide⟩⟩

/-- A held tile with a contribution to an owner on this device, and a core with nothing outstanding. -/
theorem witness_TileAndKernelEnds :
    let s := one { run0 with tileHi := 0x80000000, tilePairs := [{ owner := 0, red := 1, layer := 2, deadline := 3 }] }
    (Issues s 0 .tend (iw 0x1E 0 0 0) 0 ∧ (s.core 0).held = true ∧ (s.core 0).dmaQ = [] ∧
      ∀ p ∈ (s.core 0).tilePairs, p.owner = ownId s) ∧
    (Issues (one run0) 0 .kernelEnd (iw 0x1D 0 0 0) 0 ∧ ((one run0).core 0).endPairs = []) :=
  ⟨⟨issues_of (by decide), by decide⟩, ⟨issues_of (by decide), by decide⟩⟩

/-- Queue 255 with 64 slots of 4 KiB: the whole queue reserved, one slot too few, an end that is not here, and the oldest
of its entries; then a wake for each wait. -/
theorem witness_StageQueueTraffic :
    let q := 255
    let sq (ctl : W32) (u : SQueue) : State := { one { run0 with x := [(1, 0x40000), (2, 0x1000), (3, 0x3F000)] } with
      sqs := [(q, u)]
      regs := [(Reg.sqCtl q, ctl)] }
    let e (first : Nat) (len : Option W64) : SqEntry := { first := first, count := 1, len := len }
    let both : W32 := 0x400007
    let free := sq both {}
    let short := sq both { used := 1 }
    let res := sq both { used := 2, reserved := [e 63 none, e 0 none] }
    let vis := sq both { used := 1, visible := [e 63 (some 0)] }
    let pop := sq both { used := 1, popped := [e 63 (some 0)] }
    (free.flag (Reg.sqPeer q) 31 = false ∧ sqInWindow free q = false ∧ free.flag (Reg.sqCtl q) 0 = true ∧ free.flag (Reg.sqCtl q) 1 = true ∧
      free.flag (Reg.sqCtl q) 2 = true ∧ free.fld (Reg.sqCtl q) 22 16 = 64 ∧ free.fld (Reg.sqCtl q) 12 8 = 0) ∧
    (Issues free 0 .sqres (iw 0x71 31 1 q) 0 ∧ max 1 ((((free.core 0).xr 1).toNat + 4095) / 4096) = 64) ∧
    (Issues short 0 .sqres (iw 0x71 31 1 q) 0 ∧ 64 - (short.sq q).used < 64 ∧ (short.sq q).lost = false) ∧
    Issues (sq 0x400005 {}) 0 .sqres (iw 0x71 31 1 q) 0 ∧
    (Issues res 0 .sqpub (iw 0x72 31 3 (2 * 2 ^ 37 + q)) 0 ∧ (res.sq q).reserved = e 63 none :: [e 0 none] ∧
      ((res.core 0).xr 3).toNat % 2 ^ 48 = (e 63 none).first * 4096 ∧ ((res.core 0).xr 2).toNat ≤ (e 63 none).count * 4096 ∧
      ∀ m ∈ [e 0 none], m.len = none ∧ m.first ≠ (e 63 none).first) ∧
    (Issues vis 0 .sqpop (iw 0x73 30 0 q) 0 ∧ (vis.sq q).visible = e 63 (some 0) :: []) ∧
    (Issues free 0 .sqpop (iw 0x73 30 0 q) 0 ∧ (free.sq q).visible = [] ∧ (free.sq q).lost = false) ∧
    (Issues pop 0 .sqrel (iw 0x74 31 0 q) 0 ∧ (pop.sq q).popped = e 63 (some 0) :: []) ∧
    (let h (w : W64) : Hold := { w := w, e := 0, markT := true }
     let held (w : W64) (u : SQueue) : State := { sq both u with cores := [(0, { run0 with hold := some (h w) })] }
     cruHolds (held 0 {}) = false ∧
     (((held (iw 0x71 31 1 q) {}).core 0).hold = some (h (iw 0x71 31 1 q)) ∧ coreOp (iw 0x71 31 1 q).toNat = some .sqres) ∧
     ((held (iw 0x73 30 0 q) { visible := [e 0 none] }).core 0).hold = some (h (iw 0x73 30 0 q)) ∧
     coreOp (iw 0x73 30 0 q).toNat = some .sqpop ∧
     (h 0).met = false ∧ ((held 0 {}).core 0).stopping = false ∧ sqInWindow (held 0 {}) q = false) :=
  ⟨by decide, ⟨issues_of (by decide), by decide⟩, ⟨issues_of (by decide), by decide⟩, issues_of (by decide),
   ⟨issues_of (by decide), by decide⟩, ⟨issues_of (by decide), by decide⟩, ⟨issues_of (by decide), by decide⟩,
   ⟨issues_of (by decide), by decide⟩, by decide⟩

/-- Every row issues with seven entries in the queue, masked by p7 and unmasked, on the last registers. -/
theorem witness_VectorLaneResults :
    let k : Core := { run0 with vecQ := List.replicate 7 { pc := 0, conds := {} } }
    let s := one k
    let w (ty fn lo : Nat) : W64 := iw 0x40 31 30 (2 ^ 31 + 7 * 2 ^ 28 + ty * 2 ^ 24 + fn * 2 ^ 16 + lo)
    k.vecQ.length < 8 ∧
    Issues s 0 .vectorArith (w 2 0 (29 * 2 ^ 37)) 0 ∧ Issues s 0 .vectorArith (w 1 3 (29 * 2 ^ 37 + 28 * 2 ^ 32)) 0 ∧
    Issues s 0 .vectorArith (w 0 7 0) 0 ∧ Issues s 0 .vectorDivSqrt (w 0 8 (29 * 2 ^ 37)) 0 ∧
    Issues s 0 .vectorDivSqrt (w 0 9 0) 0 ∧ Issues s 0 .vectorFunction (w 0 0x0A 0) 0 ∧
    Issues s 0 .vectorFunction (w 2 0x0B 0) 0 ∧ Issues s 0 .vectorFunction (w 0 0x0D 0) 0 ∧
    Issues s 0 .vectorBitwise (w 3 0x0E (29 * 2 ^ 37)) 0 ∧ Issues s 0 .vectorBitwise (w 3 0x13 (29 * 2 ^ 37)) 0 ∧
    Issues s 0 .vmov (w 3 0x14 0) 0 ∧ Issues s 0 .vsel (iw 0x42 31 30 (29 * 2 ^ 37 + 7 * 2 ^ 32)) 0 ∧
    Issues s 0 .vbcast (iw 0x43 31 0 (31 * 2 ^ 11)) 0 ∧ Issues s 0 .vbcast (iw 0x43 31 0 (2 ^ 24 + 2 ^ 16 + 15 * 2 ^ 11)) 0 :=
  ⟨by decide, issues_of (by decide), issues_of (by decide), issues_of (by decide), issues_of (by decide),
   issues_of (by decide), issues_of (by decide), issues_of (by decide), issues_of (by decide), issues_of (by decide),
   issues_of (by decide), issues_of (by decide), issues_of (by decide), issues_of (by decide), issues_of (by decide)⟩

/-- The last lane, and every operation of the rows. -/
theorem witness_VectorReductionResults :
    let k : Core := { run0 with vecQ := List.replicate 7 { pc := 0, conds := {} } }
    let s := one k
    k.vecQ.length < 8 ∧
    Issues s 0 .vcmp (iw 0x41 7 31 (30 * 2 ^ 37 + 3 * 2 ^ 24 + 3 * 2 ^ 16)) 0 ∧
    Issues s 0 .vcmp (iw 0x41 7 31 (30 * 2 ^ 37)) 0 ∧
    (Issues s 0 .vlane (iw 0x43 0 31 (31 * 2 ^ 37 + 2 * 2 ^ 16 + 63)) 0 ∧
      bits (iw 0x43 0 31 (31 * 2 ^ 37 + 2 * 2 ^ 16 + 63)).toNat 10 0 < 64) ∧
    Issues s 0 .vred (iw 0x44 0 31 (15 * 2 ^ 37)) 0 ∧ Issues s 0 .vred (iw 0x44 0 31 (15 * 2 ^ 37 + 2 ^ 16)) 0 ∧
    Issues s 0 .vred (iw 0x44 0 31 (15 * 2 ^ 37 + 2 * 2 ^ 16)) 0 ∧
    Issues s 0 .vredIsum (iw 0x44 0 31 (31 * 2 ^ 37 + 3 * 2 ^ 24 + 3 * 2 ^ 16)) 0 :=
  ⟨by decide, issues_of (by decide), issues_of (by decide), ⟨issues_of (by decide), by decide⟩, issues_of (by decide),
   issues_of (by decide), issues_of (by decide), issues_of (by decide)⟩

/-- FP32 to E5M2 with a random rounding, INT32 to UINT4, and the last block format both ways. -/
theorem witness_VectorConversionResults :
    let k : Core := { run0 with vecQ := List.replicate 7 { pc := 0, conds := {} } }
    let s := one k
    k.vecQ.length < 8 ∧
    (Issues s 0 .vcvt (iw 0x58 31 30 (0 * 2 ^ 23 + 4 * 2 ^ 18 + 2 * 2 ^ 16 + 31 * 2 ^ 11 + 2 ^ 10)) 0 ∧
      Fmt.ofCode 0 = some .fp32 ∧ Fmt.ofCode 4 = some .e5m2) ∧
    (Issues s 0 .vcvt (iw 0x58 31 30 (8 * 2 ^ 23 + 0xC * 2 ^ 18)) 0 ∧ Fmt.ofCode 8 = some .int32 ∧
      Fmt.ofCode 0xC = some .uint4) ∧
    (Issues s 0 .vquant (iw 0x59 31 30 (31 * 2 ^ 37 + 0x16 * 2 ^ 23 + 2 * 2 ^ 16)) 0 ∧ Fmt.ofCode 0x16 = some .z4s) ∧
    Issues s 0 .vdeq (iw 0x5A 31 30 (31 * 2 ^ 37 + 0x16 * 2 ^ 23)) 0 :=
  ⟨by decide, ⟨issues_of (by decide), by decide⟩, ⟨issues_of (by decide), by decide⟩, ⟨issues_of (by decide), by decide⟩,
   issues_of (by decide)⟩

/-- The smallest plan into the last tile, in both modes, with the live part whole and empty. -/
theorem witness_MatrixProductResults :
    let sh (m : W32) : Tab KShape := [(7, { m := m, n := 64, k := 256 })]
    let k (m : W32) : Core := { run0 with d := [(0, desc 0 256 16 1 9 1), (1, desc 0x1000 256 64 1 9 1)], k := sh m,
                                          mxeQ := List.replicate 3 { pc := 0, conds := {} } }
    let w : W64 := BitVec.ofNat 64 (0x30 * 2 ^ 56 + 1 * 2 ^ 41 + 3 * 2 ^ 39 + 7 * 2 ^ 30)
    let fits (m : W32) : Prop := ∃ p, mmPlan ((one (k m)).core 0) w.toNat = .ok p ∧
      (okB (initCheck ((one (k m)).core 0) p w.toNat) && decide (p.m = 16 ∧ p.n = 64 ∧ p.red = 256 ∧ p.tiles = 1)) = true
    (Issues (one (k 16)) 0 .mm w 0 ∧ fits 16 ∧ (k 16).xr (bits w.toNat 29 25) = 0 ∧ (k 16).dmaQ = [] ∧ (k 16).obPoison = [] ∧
      (k 16).mxeQ.length < 4) ∧
    (Issues (one (k 0)) 0 .mm w 0 ∧ fits 0) :=
  ⟨⟨issues_of (by decide), plan_of (by decide), by decide⟩, ⟨issues_of (by decide), plan_of (by decide)⟩⟩

/-- The smallest plane; the last segment of a tile of each shape; statistics of a whole tile into the last registers. -/
theorem witness_PlaneAndTileMoves :
    let d := desc 0 256 64 1 9 1
    let k : Core := { run0 with d := [(15, d)], x := [(1, 0x33F), (2, 0xFF)], tiles := [(1, { transposed := true })] }
    let s := one k
    (Issues s 0 .pload (iw 0x31 31 0 0) 0 ∧ checkDesc d = .ok () ∧ Desc.inOb d = true ∧ (Desc.fmt d).isOperand = true ∧
      256 ≤ Desc.dim0 d ∧ 64 ≤ Desc.dim1 d ∧ k.dmaQ = [] ∧ k.obPoison = [] ∧ k.mxeQ.length < 4) ∧
    (Issues s 0 .vtget (iw 0x33 31 1 (1 * 2 ^ 37)) 0 ∧ Issues s 0 .vtget (iw 0x33 31 0 (2 * 2 ^ 37)) 0 ∧ k.vecQ.length < 8) ∧
    (Issues s 0 .vtput (iw 0x33 0 1 (1 * 2 ^ 37 + 31 * 2 ^ 32 + 2 ^ 24)) 0) ∧
    ((Tab.get {} k.tiles 1).transposed = true ∧ bits (k.xr 1).toNat 7 0 < 64 ∧
      bits (k.xr 1).toNat 7 0 * 256 + bits (k.xr 1).toNat 9 8 * 64 = 16320) ∧
    ((Tab.get {} k.tiles 0).transposed = false ∧ bits (k.xr 2).toNat 9 8 = 0 ∧ bits (k.xr 2).toNat 7 0 * 64 = 16320) ∧
    (let e := 2 ^ 6 + 24 * 2 ^ 42 + 28 * 2 ^ 47
     let k : Core := { run0 with x := [(1, BitVec.ofNat 64 e)], k := [(7, { m := 256, n := 64, k := 0 })] }
     Issues (one k) 0 .tepi (BitVec.ofNat 64 (0x32 * 2 ^ 56 + 3 * 2 ^ 50 + 7 * 2 ^ 47 + 1 * 2 ^ 42)) 0 ∧
       (k.xr 1).toNat = e ∧ bits e 46 42 = 24 ∧ bits e 51 47 = 28) :=
  ⟨⟨issues_of (by decide), ok_of (by decide), by decide⟩, ⟨issues_of (by decide), issues_of (by decide), by decide⟩,
   issues_of (by decide), by decide, by decide, ⟨issues_of (by decide), by decide⟩⟩

/-- The smallest plan, with all keys live and with none. -/
theorem witness_AttentionResults :
    let k (keys : W32) : Core := { run0 with
      d := [(0, desc 0 64 16 1 2 1), (1, desc 0x1000 64 256 1 2 1), (2, desc 0x2000 64 256 1 2 1)]
      k := [(7, { m := 16, n := keys, k := 64 })] }
    let w : W64 := BitVec.ofNat 64 (0xB8 * 2 ^ 56 + 0 * 2 ^ 48 + 1 * 2 ^ 44 + 2 * 2 ^ 40 + 3 * 2 ^ 38 + 0 * 2 ^ 36 + 31 * 2 ^ 31
      + 30 * 2 ^ 26 + 7 * 2 ^ 19 + 2 ^ 16)
    let e : W64 := 0xFF00000000000000
    let fits (keys : W32) : Prop := ∃ p, attnPlan ((one (k keys)).core 0) w.toNat e.toNat = .ok p ∧
      decide (p.m = 16 ∧ p.d = 64) = true
    (Issues (one (k 256)) 0 .attn w e ∧ fits 256 ∧ (k 256).dmaQ = [] ∧ (k 256).obPoison = [] ∧ (k 256).mxeQ.length < 4 ∧
      bits w.toNat 35 31 ≠ bits w.toNat 30 26) ∧
    (Issues (one (k 0)) 0 .attn w e ∧ fits 0) :=
  ⟨⟨issues_of (by decide), plan_of (by decide), by decide⟩, ⟨issues_of (by decide), plan_of (by decide)⟩⟩

/-- The last core in service, with a tile of a counter with one place left; a hang at its limit and one Beat before; the
end of a reset that keeps the core and of one that does not. -/
theorem witness_CoreFaultsAndResets :
    let k : Core := { run0 with tileLo := 7, tileHi := 0x83FF0000 }
    let s : State := { State.reset with
      cores := [(255, k)]
      wcs := [(1023, { reissue := List.replicate 7 0, baseGen := 0 })]
      regs := [(Reg.glbCoreMap 7, 0x80000000)] }
    let hang (b : W64) : State := { one run0 with beat := b }
    let resetting (act : Nat) : Core := { mode := .resetting, faulted := true, faultAct := act }
    (coreInService s 255 = true ∧ k.mode ≠ .resetting ∧ k.mode ≠ .outOfService ∧ k.held = true ∧ k.tilePairs = [] ∧
      bits k.tileHi.toNat 25 16 = 1023 ∧ (s.wc 1023).reissue.length < 8 ∧
      (s.fld (Reg.wcGen 1023) 15 0 + 1) % 2 ^ 16 ≠ (s.wc 1023).baseGen.toNat) ∧
    (((hang 131072).core 0).mode = .running ∧ ((hang 131072).core 0).hold = none ∧
      131072 ≤ ((hang 131072).beat - ((hang 131072).core 0).lastRetire).toNat) ∧
    ((hang 131071).beat - ((hang 131071).core 0).lastRetire).toNat < 131072 ∧
    (∀ a, (resetting a).mode = .resetting ∧ (resetting a).faulted = true ∧ (resetting a).restart = false) ∧
    (let k : Core := { resetting 0 with restart := true, disp := some 3 }
     let s : State := { one k with disps := [(3, { live := true, set := [0] })] }
     (s.core 0).mode = .resetting ∧ (s.core 0).faulted = true ∧ (s.core 0).restart = true ∧ (s.core 0).disp = some 3 ∧
       (s.disp 3).live = true ∧ (s.disp 3).trap = none ∧ (s.disp 3).fault = none ∧ (s.core 0).faultAct = 0) := by
  refine ⟨by decide, by decide, by decide, fun a => ⟨rfl, rfl, rfl⟩, by decide⟩

/-- Boundaries of 4 and of 3, a change that is due, and a wipe that is asked for and one that runs. -/
theorem witness_PartitionAndWipe :
    let s := State.reset
    (Admitted s .secure Reg.cruPartition 4 ∧ (4 : W32).toNat % 32 = 4) ∧
    (Admitted s .secure Reg.cruPartition 3 ∧ (3 : W32).toNat % 32 < 4) ∧
    (NothingHeld { s with posted := [(Reg.cruPartition, 4)] } ∧ s.win.lines = [] ∧ s.wiping = none) ∧
    (s.posted.all (fun p => p.1 != Reg.cruPartition) = true ∧ s.wiping ≠ some .cru) ∧
    Admitted s .secure Reg.cruWipe 1 ∧ (Admitted (srv []) (.sprue true) Reg.cruPartition 3 ∧ isSprue (.sprue true) = true) ∧
    (NothingHeld { s with wiping := some .cru } ∧ ({ s with wiping := some .cru } : State).wiping = some .cru) :=
  ⟨⟨admitted_of (by decide), by decide⟩, ⟨admitted_of (by decide), by decide⟩, ⟨nothingHeld_of rfl rfl rfl, rfl, rfl⟩,
   by decide, admitted_of (by decide), ⟨admitted_of (by decide), rfl⟩, ⟨nothingHeld_of rfl rfl rfl, rfl⟩⟩

/-- The last line of HBM fills; the last words of the last slice and of the last die are due. -/
theorem witness_WindowCommands :
    let s := State.reset
    (Admitted s .secure Reg.cruCacheCtl 1 ∧ Admitted s .secure Reg.cruCacheCtl 2) ∧
    (withRegs [(Reg.cruStatus, 8)]).flag Reg.cruStatus 3 = true ∧
    (let line := 2 ^ 32 - 1
     let s : State := { s with win := { misses := [{ line := line, waiters := [] }] } }
     s.win.misses = [{ line := line, waiters := [] }] ∧ cruHolds s = false ∧ line * 128 < 2 ^ 39 ∧
       lineSettled s line = true ∧ stackHeld s (line * 128) = false ∧ pageRetired s (line * 128) = false ∧
       (upFrom 0 8).all (fun i => s.wordState (8 * line + i) == .clean) = true ∧ (s.wline (line * 128)).valid = false) ∧
    State.reset.win.misses = [] ∧
    (let s : State := { withRegs [(Reg.cruPartition, 16), (Reg.cruScrub, 1), (Reg.hbmScrub 7, 1)] with beat := 1 }
     (scrubKey s 15 0x0181EFFFFFF0 = some 0x0181EFFFFFF ∧ s.wordState 0x0181EFFFFFF = .clean) ∧
     (scrubKey s 23 0x7FFFFFFFF0 = some 0x7FFFFFFFF ∧ s.wordState 0x7FFFFFFFF = .clean) ∧
     ({ s with errs := [(0x0181EFFFFFF, .corrected)] } : State).wordState 0x0181EFFFFFF = .corrected ∧
     (s.reg Reg.cruScrub).toNat = 1 ∧ (s.reg (Reg.hbmScrub (23 - 16))).toNat = 1 ∧ (s.beat - Tab.get 0 s.scrubbed 15).toNat = 1) :=
  ⟨⟨admitted_of (by decide), admitted_of (by decide)⟩, by decide, by decide, rfl, by decide⟩

/-- The last counter and the last queues, with each field at the edges of its range. -/
theorem witness_CrucibleQueueRegisters :
    let s := State.reset
    let nq (d : Nat) : W32 := BitVec.ofNat 32 (d * 2 ^ 16 + 1)
    let on : State := withRegs [(Reg.nqCtl 63, nq 16)]
    (Admitted s .secure (Reg.wcIndex 1023) 5 ∧ Admitted s .secure (Reg.wcLimit 1023) 5 ∧ Admitted s .secure (Reg.wcGen 1023) 5) ∧
    (Admitted s .secure (Reg.wcCtl 1023) 1 ∧ Admitted s .secure (Reg.wcCtl 1023) 0) ∧
    (Admitted s .secure (Reg.nqBaseHi 63) 1 ∧ Admitted on .secure (Reg.nqBaseLo 63) 32 ∧ nqEnabled on 63 = true) ∧
    (Admitted s .secure (Reg.nqCtl 63) (nq 3) ∧ bits (nq 3).toNat 20 16 < 4 ∧
      Admitted s .secure (Reg.nqCtl 63) (nq 17) ∧ 16 < bits (nq 17).toNat 20 16) ∧
    (Admitted s .secure (Reg.nqCtl 63) (nq 4) ∧ bits (nq 4).toNat 20 16 = 4 ∧ Admitted s .secure (Reg.nqCtl 63) (nq 16) ∧
      bits (nq 16).toNat 20 16 = 16 ∧ (nq 16).getLsbD 1 = false ∧ nqEnabled s 63 = false) ∧
    (Admitted on .secure (Reg.nqCtl 63) (on.reg (Reg.nqCtl 63) ||| 2) ∧ on.fld (Reg.nqCtl 63) 20 16 = 16 ∧
      cruHolds on = false ∧ nqInWindow on 63 = false) ∧
    (Admitted s .secure (Reg.sqCtl 255) 0x400001 ∧ Admitted s .secure (Reg.sqCtl 255) 0x411000 ∧
      Admitted s .secure (Reg.sqCtl 255) 0x410000 ∧ sqRemote s 255 = false) ∧
    (let s := withRegs [(Reg.glbAxes, 1), (Reg.sqPeer 255, 0x80000001)]
     Admitted s .secure (Reg.sqCtl 255) 0x400001 ∧ sqRemote s 255 = true ∧ (s.sq 255).lost = false ∧
       peerCut s (s.fld (Reg.sqPeer 255) 12 0) = true) :=
  ⟨⟨admitted_of (by decide), admitted_of (by decide), admitted_of (by decide)⟩,
   ⟨admitted_of (by decide), admitted_of (by decide)⟩, ⟨admitted_of (by decide), admitted_of (by decide), by decide⟩,
   ⟨admitted_of (by decide), by decide, admitted_of (by decide), by decide⟩,
   ⟨admitted_of (by decide), by decide, admitted_of (by decide), by decide⟩, ⟨admitted_of (by decide), by decide⟩,
   ⟨admitted_of (by decide), admitted_of (by decide), admitted_of (by decide), rfl⟩, ⟨admitted_of (by decide), by decide⟩⟩

/-- The last queue with one entry of room and with none, with a GAP notice pending, the TYPES at and beside the edges of the
software range, two priorities behind each other, a queue as old as its limit, and the companion's pops. -/
theorem witness_NoticeQueueTraffic :
    let e (type prio : Nat) : W256 := mkNotice type prio 0 0 0 0
    let s (l : List W256) : State := { withRegs [(Reg.nqCtl 63, 1), (Reg.nqStale 63, 7)] with
      nqs := [(63, { depth := 4, entries := l })]
      beat := 7 }
    let room := s (List.replicate 14 (e 0x10 0))
    let fullQ := s (List.replicate 15 (e 0x10 0))
    let idle : Prop := isSprue .mgmt = false ∧ (∀ r, Requester.mgmt ≠ .ring r) ∧ wipeRuns room = false ∧
      cruHolds room = false ∧ nqInWindow room 63 = false ∧ (room.nq 63).flushed = none ∧
      admits room .mgmt (if room.flag (Reg.nqCtl 63) 4 then .o else .p) = true
    (cruHolds room = false ∧ nqEnabled room 63 = true ∧ (room.nq 63).entries.length = 2 ^ (room.nq 63).depth - 2 ∧
      0x10 ≤ noticeType (e 0x3F 3) ∧ noticeType (e 0x3F 3) ≤ 0x3F) ∧
    ((fullQ.nq 63).entries.length = 2 ^ (fullQ.nq 63).depth - 1 ∧ nqEnabled State.reset 63 = false) ∧
    (noticeType (e 0x0F 0) < 0x10 ∧ 0x3F < noticeType (e 0x40 0)) ∧ idle ∧
    (((s [e 0x10 0, e 0x10 1, e 0x11 1]).nq 63).entries = [e 0x10 0] ++ e 0x10 1 :: [e 0x11 1] ∧
      noticePrio (e 0x10 0) < noticePrio (e 0x10 1) ∧ (room.nq 63).gap = none) ∧ ((s []).nq 63).entries = [] ∧
    (({ s [] with nqs := [(63, { depth := 4, gap := some (e 1 3) })] } : State).nq 63).gap = some (e 1 3) ∧
    ((s [e 0x10 0]).reg (Reg.nqStale 63)).toNat = ((s [e 0x10 0]).beat - ((s [e 0x10 0]).nq 63).timer).toNat ∧
    ((s [e 0x10 0]).nq 63).staleFired = false ∧ (s [e 0x10 0]).flag (Reg.nqCtl 63) 3 = false ∧
    (let s : State := { srv [(Reg.nqCtl 63, 1)] with nqs := [(63, { depth := 4 })] }
     SprueServes s ∧ (∀ r, Requester.sprue true ≠ .ring r) ∧ nqInWindow s 63 = false ∧ nqEnabled s 63 = true ∧
       admits s (.sprue true) .p = true) ∧
    cruHolds (withRegs [(Reg.cruStatus, 2)]) = true ∧
    (let s : State := withRegs [(Reg.nqCtl 63, 1), (Reg.cruPartition, 4)]
     let s : State := { s with nqs := [(63, { depth := 4, base := 0x0100FFFFFE00 })] }
     nqInWindow s 63 = true ∧ cruHolds s = false) :=
  ⟨by decide, by decide, by decide, ⟨rfl, fun _ h => Requester.noConfusion h, by decide, by decide, by decide, by decide, by decide⟩, by decide,
   by decide, by decide, by decide, by decide, by decide,
   ⟨serves_of (by decide), fun _ h => Requester.noConfusion h, by decide, by decide, by decide⟩, by decide, by decide⟩

/-- The last 64 bytes of scratch, and the first after the ring windows. -/
theorem witness_CompanionMemoryRequests :
    let s := srv []
    let readable (a : Nat) : Prop := ∃ key, place s a = .scratch key ∧ ScratchSound s a 64
    let writable (a : Nat) : Prop := (a < 0x010000000000 ∨ 0x010000400000 ≤ a) ∧
      ∀ j, j < 64 → ∃ key, place s (a + j) = .scratch key ∧ inNoticeRing s key = false
    SprueServes s ∧ s.win.misses = [] ∧ readable 0x010000000000 ∧ readable 0x0100FFFFFFC0 ∧ writable 0x0100FFFFFFC0 ∧ writable 0x010000400000 :=
  ⟨serves_of (by decide), rfl, ⟨hashedKey 0, by decide, sound_of (by decide)⟩,
   ⟨hashedKey 0xFFFFFFC0, by decide, sound_of (by decide)⟩, ⟨by decide, scratch_of (by decide)⟩,
   ⟨by decide, scratch_of (by decide)⟩⟩

/-- The last line of an aperture of one page. -/
theorem witness_ApertureRequests :
    let s := srv [(Reg.sprApCtl, 1), (Reg.sprApBase, 3)]
    let a := 4 * 2 ^ 21 - 1
    SprueServes s ∧ inAperture s a = true ∧ inAperture s (a + 1) = false ∧
    (s.posted.any fun p => p.1 == Reg.sprApCtl) = false ∧ pageRetired s (a / 64 * 64) = false ∧ lineSnooped s a = false ∧
    a / 64 * 64 < 2 ^ 39 ∧ stackHeld s (a / 64 * 64) = false ∧ (s.wline (a / 64 * 64)).dirty = false ∧
    (unitsOf 16 (a / 64 * 64) 64).all (fun u => s.wordState (u / 16) == .clean && !s.isPoison u) = true :=
  ⟨serves_of (by decide), by decide⟩

/-- The last sector of the companion window: held modified, asked for by a read, by a write, and snooped. -/
theorem witness_SnoopsAndAnswers :
    let top := 2 ^ 44 - 64
    let here := 0x100000000000 + top
    let s := srv []
    let line : WLine := { valid := true, sec0 := .m, sec1 := .m }
    let held : State := { s with win := { lines := [(here / 128, line)] } }
    let req (opc : Nat) : SprReq := { opc := opc, addr := here, waiters := [], snooped := false, sentAt := 0, dead := false }
    let asked (opc : Nat) : State := { held with spr := { spr0 with reqs := [(5, some (req opc))] } }
    let sn : ApSnoop := { line := 7, inv := true, waiters := [], sentAt := 0 }
    let snooped : State := { s with spr := { spr0 with snoops := [sn] } }
    (SprueServes held ∧ held.spr.backlog = [] ∧ sectorReq held (here / 64) = none ∧ (held.wline here).valid = true ∧
      (held.wline here).sector here = .m ∧ 0x100000000000 + (top + 2 ^ 44) % 2 ^ 44 / 64 * 64 = here) ∧
    (SprueServes (asked 1) ∧ (asked 1).spr.backlog = [] ∧ Tab.get none (asked 1).spr.reqs 5 = some (req 1) ∧
      ((asked 1).wline (0x100000000000 + here % 2 ^ 44)).valid = true) ∧
    (SprueServes (asked 4) ∧ (asked 4).spr.backlog = [] ∧ Tab.get none (asked 4).spr.reqs 5 = some (req 4) ∧ 4 ≤ (req 4).opc) ∧
    (SprueServes snooped ∧ snooped.spr.snoops = [sn] ∧ sn.line = (7 * 64 + 63) / 64 ∧ snooped.held = [] ∧ snooped.posted = [] ∧
      snooped.spr.backlog = []) :=
  ⟨⟨serves_of (by decide), by decide⟩, ⟨serves_of (by decide), by decide⟩, ⟨serves_of (by decide), by decide⟩, ⟨serves_of (by decide), by decide⟩⟩

/-- Frame 0 after 4,095, the seventh and the eighth failure, every timeout at its limit; the last vector, and an
aperture of the largest size on an aligned and on an unaligned base. -/
theorem witness_SprueTransportAndRegisters :
    let f (ok : Bool) (nak : Bool := false) : SprueFrame :=
      { crcOk := ok, seq := 0, ftype := 0, ack := 0, nak := nak, credits := (1, 2, 3, 4) }
    let s (p : Sprue) : State := { srv [(Reg.sprReqTimeout, 10), (Reg.sprSnpTimeout, 10)] with
      spr := p
      beat := 100000 }
    let got := s { rxSeq := 4095, txSeq := 0, acked := 4095 }
    let req : SprReq := { opc := 1, addr := 0, waiters := [], snooped := false, sentAt := 90000, dead := false }
    let sn : ApSnoop := { line := 1, inv := true, waiters := [], sentAt := 90000 }
    let down := withRegs [(Reg.sprStatus, 2)]
    (got.flag Reg.sprStatus 1 = false ∧ (f true).crcOk = true ∧ (f true).ftype < 2 ∧ (f true).nak = false ∧ got.spr.queued = [] ∧
      (f true).seq = (got.spr.rxSeq + 1) % 4096 ∧ 1 ≤ ((f true).ack + 4096 - got.spr.acked) % 4096 ∧
      ((f true).ack + 4096 - got.spr.acked) % 4096 ≤ (got.spr.txSeq + 4096 - got.spr.acked) % 4096) ∧
    (let got := s { rxSeq := 4095, unacked := [{ opc := 0x41, addr := 7 }] }
     got.flag Reg.sprStatus 1 = false ∧ (f true true).seq = (got.spr.rxSeq + 1) % 4096 ∧ (f true true).nak = true ∧
       got.spr.queued = [] ∧ (f true true).ack = got.spr.acked ∧ got.spr.acked < 4096) ∧
    ((f false).crcOk = false ∧ (s { failures := 6 }).spr.failures < 7 ∧ 7 ≤ (s { failures := 7 }).spr.failures ∧
      (s { failures := 7 }).flag Reg.sprStatus 1 = false) ∧
    ((s { txSeq := 1 }).spr.txSeq ≠ (s { txSeq := 1 }).spr.acked ∧
      100000 ≤ ((s { txSeq := 1 }).beat - (s { txSeq := 1 }).spr.lastAck).toNat) ∧ (down.flag Reg.sprStatus 1 = true ∧ down.boot.sprLanes = [] ∧ down.spr.queued = []) ∧
    (Tab.get none (s { reqs := [(3, some req)] }).spr.reqs 3 = some req ∧
      1000 * ((s {}).reg Reg.sprReqTimeout).toNat = ((s {}).beat - req.sentAt).toNat) ∧
    ((s { snoops := [sn] }).spr.snoops = [sn] ∧ sn.line = 64 / 64 ∧
      1000 * ((s {}).reg Reg.sprSnpTimeout).toNat = ((s {}).beat - sn.sentAt).toNat ∧ (s {}).held = [] ∧ (s {}).posted = [] ∧
      req.dead = false ∧ req.waiters = [] ∧ sn.waiters = []) ∧
    (let p := srv [(Reg.sprIntMask 7, 0), (Reg.sprIntPending 7, 0x80000000)]
     Admitted p .secure Reg.sprIntEoi 255 ∧ p.flag (Reg.sprIntPending (255 / 32)) (255 % 32) = true ∧
       p.flag (Reg.sprIntMask (255 / 32)) (255 % 32) = false ∧ SprueSends p) ∧
    (Admitted (srv []) .secure Reg.sprIntEoi 0 ∧ (srv []).flag (Reg.sprIntPending 0) 0 = false) ∧
    Admitted (srv []) .secure (Reg.sprIntMask 7) (BitVec.allOnes 32) ∧
    (let p := srv [(Reg.sprApBase, 0x200)]
     Admitted p .secure Reg.sprApCtl 0x13 ∧ p.flag Reg.sprApCtl 0 = false ∧ bits (0x13 : W32).toNat 4 1 = 9 ∧
       p.fld Reg.sprApBase 17 0 % 2 ^ 9 = 0) ∧
    (let p (d : Tab Coherence) : State := { srv [(Reg.sprApCtl, 1)] with spr := { spr0 with dir := d } }
     Admitted (p []) .secure Reg.sprApCtl 0 ∧ Admitted (p [(7, .m)]) .secure Reg.sprApCtl 0 ∧ SprueSends (p [(7, .m)]) ∧
       (p [(7, .m)]).spr.dir = [(7, .m)] ∧ (p []).flag Reg.sprApCtl 0 = true ∧ (p []).spr.snoops = [] ∧ (p []).posted = []) ∧
    (let p := srv [(Reg.sprApBase, 0x201)]
     Admitted p .secure Reg.sprApCtl 0x13 ∧ p.fld Reg.sprApBase 17 0 % 2 ^ 9 ≠ 0 ∧ Admitted p .secure Reg.sprApCtl 0x15 ∧
       bits (0x15 : W32).toNat 4 1 = 10) :=
  ⟨by decide, by decide, by decide, by decide, by decide, by decide, by decide,
   ⟨admitted_of (by decide), by decide, by decide, sends_of (by decide)⟩,
   ⟨admitted_of (by decide), by decide⟩, admitted_of (by decide), ⟨admitted_of (by decide), by decide⟩,
   ⟨admitted_of (by decide), admitted_of (by decide), sends_of (by decide), by decide⟩,
   ⟨admitted_of (by decide), by decide, admitted_of (by decide), by decide⟩⟩

/-- A register with read-clearing bits and GLB_ACCESS_STATUS, read here and over the Sprue, and a register without such
bits read over the Sprue. -/
theorem witness_RegisterReads :
    let overSprue (off : Nat) (rc : Bool) : Prop := SprueServes (srv []) ∧ badSize off = false ∧
      (srv []).parityBad.contains (aliasOf off) = false ∧ (srv []).held.any writeHeld = false ∧
      ∃ d, regAt off = some d ∧ decide ((d.rc ≠ 0 ↔ rc = true) ∧ regPresent (srv []) off = some d ∧ d.cls.rank ≤ b2n true ∧
        (off < 0x108010 ∨ 0x108020 ≤ off)) = true
    (AdmittedRead State.reset .secure Reg.cruErrStatus ∧ Reg.cruErrStatus ≠ Reg.glbAccessStatus ∧
      ∃ d, regAt Reg.cruErrStatus = some d ∧ decide (d.rc ≠ 0) = true) ∧
    (AdmittedRead State.reset .secure Reg.glbAccessStatus ∧
      ∃ d, regAt Reg.glbAccessStatus = some d ∧ decide (d.rc ≠ 0) = true) ∧
    overSprue Reg.cruScrub false ∧ overSprue Reg.cruErrStatus true ∧ overSprue Reg.glbAccessStatus true :=
  ⟨⟨admittedRead_of (by decide), by decide, some_of (by decide)⟩, ⟨admittedRead_of (by decide), some_of (by decide)⟩,
   ⟨serves_of (by decide), by decide, by decide, by decide, some_of (by decide)⟩,
   ⟨serves_of (by decide), by decide, by decide, by decide, some_of (by decide)⟩,
   ⟨serves_of (by decide), by decide, by decide, by decide, some_of (by decide)⟩⟩

/-- Plain registers with and without a range, here and over the Sprue, at and beside the edges of the range; a requester
without the class; and a posted write. -/
theorem witness_RegisterWrites :
    let ranged (s : State) (rq : Requester) (off : Nat) (v : W32) (ok : Bool) : Prop := plainReg off = true ∧ Admitted s rq off v ∧
      ∃ r, regRange off = some r ∧ decide ((r.2.2.1 ≤ bits v.toNat r.1 r.2.1 ∧ bits v.toNat r.1 r.2.1 ≤ r.2.2.2) ↔ ok = true) = true
    (plainReg Reg.glbFaultCtl = true ∧ regRange Reg.glbFaultCtl = none ∧ Admitted State.reset .secure Reg.glbFaultCtl 0xFFFFFFFF ∧
      (regAt Reg.glbFaultCtl).isSome = true) ∧
    (plainReg Reg.cntLatchLo = true ∧ regRange Reg.cntLatchLo = none ∧ Admitted (srv []) (.sprue true) Reg.cntLatchLo 5) ∧
    (ranged State.reset .secure Reg.sprReqTimeout 10 true ∧ ranged State.reset .secure Reg.sprReqTimeout 1000000 true ∧
      ranged State.reset .secure Reg.sprReqTimeout 9 false ∧ ranged State.reset .secure Reg.sprReqTimeout 1000001 false ∧
      ranged (srv []) (.sprue true) Reg.sprReqTimeout 10 true ∧ ranged (srv []) (.sprue true) Reg.sprReqTimeout 9 false) ∧
    (let s := State.reset
     isSprue (.ring 63) = false ∧ badSize Reg.cruScrub = false ∧ nqEnabled s (s.fld Reg.rsrCtl 11 6) = false ∧
     ∃ d, regPresent s Reg.cruScrub = some d ∧ decide (admits s (.ring 63) d.cls = false ∧ regAt Reg.cruScrub = some d) = true) ∧
    (let s : State := { State.reset with posted := [(Reg.rglCap, 1)] }
     s.posted = [(Reg.rglCap, 1)] ∧ ownDone s Reg.rglCap = false ∧ 0x900000 ≤ Reg.rglCap ∧ Reg.rglCap ≠ Reg.sprApCtl ∧
     (regAt Reg.rglCap).isSome = true ∧ State.reset.posted = []) :=
  ⟨⟨by decide, by decide, admitted_of (by decide), by decide⟩, ⟨by decide, by decide, admitted_of (by decide)⟩,
   ⟨⟨by decide, admitted_of (by decide), some_of (by decide)⟩, ⟨by decide, admitted_of (by decide), some_of (by decide)⟩,
    ⟨by decide, admitted_of (by decide), some_of (by decide)⟩, ⟨by decide, admitted_of (by decide), some_of (by decide)⟩,
    ⟨by decide, admitted_of (by decide), some_of (by decide)⟩, ⟨by decide, admitted_of (by decide), some_of (by decide)⟩⟩,
   ⟨by decide, by decide, by decide, some_of (by decide)⟩, by decide⟩

/-- A register of the counters fails the sweep; the mailbox with an assigned and with an unassigned selector. -/
theorem witness_ParityAndMailbox :
    (let s : State := { State.reset with parityDirty := true }
     s.parityBad = [] ∧ nqEnabled s (s.fld Reg.rsrCtl 11 6) = false ∧ s.flag Reg.glbFaultCtl 8 = false ∧
     Reg.cntLatchLo ≠ Reg.glbParityAddr ∧ 0x1000000 ≤ Reg.cntLatchLo ∧
     ∃ d, regAt Reg.cntLatchLo = some d ∧ decide (d.rw = 0xFFFFFFFF ∧ d.rwp = 0) = true) ∧
    Admitted State.reset .secure Reg.mbxSel 0x03000FFF ∧
    (let s := withRegs [(Reg.mbxSel, 0x03000FFF), (Reg.mbxValid, 4)]
     s.flag Reg.mbxValid 2 = true ∧ (mbxValue s (s.fld Reg.mbxSel 31 24) (s.fld Reg.mbxSel 23 0)).isSome = true) ∧
    (let s := withRegs [(Reg.mbxSel, 0x03001000), (Reg.mbxValid, 4)]
     s.flag Reg.mbxValid 2 = true ∧ mbxValue s (s.fld Reg.mbxSel 31 24) (s.fld Reg.mbxSel 23 0) = none) ∧
    (State.reset.flag Reg.mbxValid 2 = false) ∧
    (AdmittedRead (withRegs [(Reg.mbxValid, 1)]) .secure (Reg.mbxData 3) ∧ (withRegs [(Reg.mbxValid, 1)]).flag Reg.mbxValid 0 = true) :=
  ⟨⟨by decide, by decide, by decide, by decide, by decide, some_of (by decide)⟩, admitted_of (by decide), by decide, by decide,
   by decide, ⟨admittedRead_of (by decide), by decide⟩⟩

/-- The last virtual page with each operation, and a page past the end. -/
theorem witness_TranslationRequests :
    let last : W32 := 0x7FFFFFF
    let q (op : Nat) (va : W32) : XlatReq := { cmd := BitVec.ofNat 32 (op + 7 * 32), va := va, pa := 0, host := true }
    let s (l : List (Nat × W64)) (x : XlatReq) : State := { withRegs [(Reg.glbXlatSize, 1)] with
      xlat := l
      xlatReq := some x }
    let mapped : List (Nat × W64) := [(0x7FFFFFF, 3)]
    (Admitted State.reset .secure Reg.glbXlatCmd 1 ∧ Admitted State.reset .secure Reg.glbXlatCmd 4) ∧
    ((s [] (q 1 0x8000000)).xlatReq = some (q 1 0x8000000) ∧ xlatErr (s [] (q 1 0x8000000)) (q 1 0x8000000) = 6) ∧
    (xlatErr (s [] (q 1 last)) (q 1 last) = 0 ∧ bits (q 1 last).cmd.toNat 3 0 = 1) ∧
    (xlatErr (s mapped (q 2 last)) (q 2 last) = 0 ∧ bits (q 2 last).cmd.toNat 3 0 = 2 ∧ (s mapped (q 2 last)).rgl.pagesDue = []) ∧
    (xlatErr (s mapped (q 3 last)) (q 3 last) = 0 ∧ bits (q 3 last).cmd.toNat 3 0 = 3) ∧
    (xlatErr (s mapped (q 4 last)) (q 4 last) = 0 ∧ bits (q 4 last).cmd.toNat 3 0 = 4) :=
  ⟨⟨admitted_of (by decide), admitted_of (by decide)⟩, by decide, by decide, by decide, by decide, by decide⟩

/-- The last ring, with the smallest and the largest size and the ones beside them, a tail as far ahead as the ring is
long and one further, each source of the tail, and each state of RING_CMD. -/
theorem witness_RingRegisters :
    let ring (st : RingState) (l : List (Nat × W32)) : State := { esc 0 {} l with rings := [(63, { state := st })] }
    let off : State := { withRegs [(Reg.glbState, 13)] with rings := [] }
    let on := ring .active []
    let word : State := { esc 64 {} [] with
      regs := [(Reg.cruPartition, 16), (Reg.ringCtl 63, 0x60003), (Reg.ringTailptrHi 63, 0x100)]
      rings := [(63, { state := .active })] }
    let ctl (n e : Nat) : W32 := BitVec.ofNat 32 (n * 2 ^ 16 + e)
    (Admitted off .secure (Reg.ringCtl 63) (ctl 6 1) ∧ Admitted off .secure (Reg.ringCtl 63) (ctl 16 1) ∧
      off.flag (Reg.ringCtl 63) 0 = false ∧ ringBase off 63 % (2 ^ 16 * 64) = 0 ∧ cqBase off 63 % (cqN off 63 * 32) = 0 ∧
      isReady off = true ∧ off.replay.stale = false ∧ off.sealed = false ∧ (off.ring 63).waitCq = [] ∧ bits (ctl 16 1).toNat 20 16 = 16) ∧
    (Admitted on .secure (Reg.ringCtl 63) (ctl 6 0) ∧ ((on.reg (Reg.ringCtl 63)) ^^^ ctl 6 0) &&& 0xFF1F0006 = 0 ∧ (on.ring 63).running = [] ∧
      on.flag (Reg.ringCtl 63) 0 = true) ∧
    (Admitted on .secure (Reg.ringCtl 63) (ctl 7 1) ∧ ((on.reg (Reg.ringCtl 63)) ^^^ ctl 7 1) &&& 0xFF1F0006 ≠ 0) ∧
    (Admitted off .secure (Reg.ringCtl 63) (ctl 5 1) ∧ Admitted off .secure (Reg.ringCtl 63) (ctl 17 1)) ∧
    (Admitted on .secure (Reg.ringTail 63) 64 ∧ Admitted on .secure (Reg.dbTail 63) 64 ∧ on.flag (Reg.ringCtl 63) 1 = false ∧
      (64 - ringHead on 63).toNat = ringN on 63) ∧
    (Admitted on .secure (Reg.ringTail 63) 65 ∧ ringN on 63 < (65 - ringHead on 63).toNat) ∧
    (Admitted word .secure (Reg.dbTail 63) 0 ∧ word.flag (Reg.ringCtl 63) 1 = true) ∧
    ((word.ring 63).state ≠ .disabled ∧ cruHolds word = false ∧ ∃ l f, escRead (hostRing word 63) {} (tailWord word 63) 8 word = (.ok l, f) ∧
      decide (f.regs = word.regs ∧ f.rings = word.rings ∧ (BitVec.ofNat 32 (ofBytes l) - ringHead word 63).toNat = ringN word 63) = true) ∧
    (Admitted on .secure (Reg.ringCmd 63) 2 ∧ (on.ring 63).state = .active ∧ Admitted off .secure (Reg.ringCmd 63) 2 ∧
      (off.ring 63).state ≠ .active) ∧
    (∀ st, st = .paused ∨ st = .haltedErr ∨ st = .haltedCq ∨ st = .active → Admitted (ring st []) .secure (Reg.ringCmd 63) 1 ∧
      ((ring st []).ring 63).state = st) ∧ Admitted off .secure (Reg.ringCmd 63) 1 ∧
    (ring .haltedCq [(Reg.ringShadowTail 63, 1)]).reg (Reg.ringShadowHead 63) ≠
      (ring .haltedCq [(Reg.ringShadowTail 63, 1)]).reg (Reg.ringShadowTail 63) := by
  refine ⟨⟨admitted_of (by decide), admitted_of (by decide), by decide⟩, ⟨admitted_of (by decide), by decide⟩,
    ⟨admitted_of (by decide), by decide⟩, ⟨admitted_of (by decide), admitted_of (by decide)⟩, ⟨admitted_of (by decide), admitted_of (by decide), by decide⟩,
    ⟨admitted_of (by decide), by decide⟩, ⟨admitted_of (by decide), by decide⟩, ⟨by decide, by decide, pair_of (by decide)⟩,
    ⟨admitted_of (by decide), by decide, admitted_of (by decide), by decide⟩, ?_, admitted_of (by decide), by decide⟩
  rintro st (rfl | rfl | rfl | rfl) <;> exact ⟨admitted_of (by decide), by decide⟩

/-- A running, a waiting, a completed and an unknown command of the last ring, across the wrap of the numbers. -/
theorem witness_RingAborts :
    let c (seq : W32) : Cmd := { uid := 1, seq := seq, sub := 0, iter := 0, body := 0, start := 0, limit := 0 }
    let s := esc 0 { running := [c 0xFFFFFFFF], done := [0xFFFFFFFE] } []
    (precedes (s.ring 63).pos.seq 0 = false ∧ precedes (s.ring 63).pos.seq 1 = true ∧ (s.ring 63).pos.inBuf = false ∧
      (let s : State := { s with regs := (Reg.ringTail 63, 2) :: s.regs }
       Admitted s .secure (Reg.ringAbort 63) 1 ∧ Admitted (storeReg (Reg.ringAbort 63) 1 s) .secure (Reg.ringAbortCtl 63) 1 ∧
       precedes 1 (s.reg (Reg.ringTail 63)) = true)) ∧
    (s.ring 63).state ≠ .disabled ∧ (∃ d ∈ (s.ring 63).running, d.seq = 0xFFFFFFFF) ∧ isWaiting s 63 0 = true ∧
    isWaiting s 63 0xFFFFFFFE = false ∧ (s.ring 63).done.contains 0xFFFFFFFE = true ∧
    (s.ring 63).done.contains 0xFFFFFFFD = false ∧ Admitted s .secure (Reg.ringAbort 63) 0 ∧
    Admitted (storeReg (Reg.ringAbort 63) 0 s) .secure (Reg.ringAbortCtl 63) 0 ∧
    Admitted (storeReg (Reg.ringAbort 63) 0 s) .secure (Reg.ringAbortCtl 63) 1 ∧ Admitted s .secure (Reg.ringAbortCtl 63) 2 :=
  ⟨⟨by decide, by decide, by decide, admitted_of (by decide), admitted_of (by decide), by decide⟩, by decide,
   ⟨_, List.mem_singleton.mpr rfl, by decide⟩, by decide, by decide, by decide, by decide, admitted_of (by decide),
   admitted_of (by decide), admitted_of (by decide), admitted_of (by decide)⟩

/-- A completion queue with one free slot, at its last slot; the last status below 0x10 and 0x10. -/
theorem witness_Completions :
    let s := esc 0 {} [(Reg.ringCqTail 63, 63), (Reg.escEvtSel, 0xFFF)]
    let e : Cqe := { entry := 1, ext := none, irq := false }
    (Admitted s .secure (Reg.ringCqHead 63) 1 ∧ Admitted s .secure (Reg.dbCqHead 63) 1 ∧ (s.ring 63).waitCq = [] ∧
      (s.ring 63).marker = false) ∧
    Admitted s .secure Reg.escEvtHi 0xFFFFFFFF ∧ (Cb.cqe 0 = false ∧ Cb.cont 0 = false ∧ (s.ring 63).state = .active) ∧
    (cqRoom s 63 e = true ∧ cruHolds s = false ∧ e.ext = none ∧ cqBase s 63 + 32 * ((s.reg (Reg.ringCqTail 63)).toNat % cqN s 63) = 0x0100000107E0 ∧
      ∃ u f, escWrite (hostRing s 63) {} 0x0100000107E0 (toBytes 32 e.entry.toNat) s = (.ok u, f) ∧
        decide (f.rings = s.rings ∧ f.regs = s.regs) = true) :=
  ⟨⟨admitted_of (by decide), admitted_of (by decide), by decide⟩, admitted_of (by decide), by decide, by decide, by decide, by decide, by decide,
   pair_of (by decide)⟩

/-- The first unassigned opcode, and the last reserved byte of each row. -/
theorem witness_BadCommands :
    let bad (op body off : Nat) : Prop := ∃ f, Takes (esc (cb op 0 body) {} []) {} 63 (cb op 0 body) f ∧
      cmdOffence (f.admitting 63 (cb op 0 body)) (cb op 0 body) = some off
    bad 0xFF 0 0 ∧ bad 0x01 (2 ^ 376) 48 ∧ bad 0x0F (63 + 0x0F * 2 ^ 8) 17 ∧ bad 0x0F (63 + 0x40 * 2 ^ 8) 17 ∧
    bad 0x11 0 0 ∧ bad 0x00 (2 ^ 376) 16 ∧ bad 0x02 (2 ^ 376) 44 ∧ bad 0x05 4096 16 ∧ bad 0x0F 64 16 :=
  ⟨bad_of (by decide), bad_of (by decide), bad_of (by decide), bad_of (by decide), bad_of (by decide), bad_of (by decide), bad_of (by decide), bad_of (by decide), bad_of (by decide)⟩

/-- Slot 4,095 with a sum that passes the largest number, queue 63 with one place and with none enabled, the TYPES at and
beside the edges of the software range, a word of memory and a register. -/
theorem witness_SimpleCommands :
    let nq : State → State := fun s => { s with
      nqs := [(63, { depth := 4, entries := List.replicate 14 1 })]
      regs := s.regs ++ [(Reg.nqCtl 63, 1)] }
    let e (b : W512) : State := esc b {} []
    let rec_ (m v : Nat) : W512 := cb 0x04 0 (0xFFF + m * 2 ^ 16 + v * 2 ^ 64)
    let note (type : Nat) : W512 := cb 0x0F 0 (63 + type * 2 ^ 8 + 3 * 2 ^ 16 + 7 * 2 ^ 128)
    let write (a n : Nat) : W512 := cb 0x10 0 (a + 5 * 2 ^ 64 + n * 2 ^ 128)
    Adm (e (cb 0 0 0)) (cb 0 0 0) (fun _ _ => true) ∧
    Adm (e (rec_ 0 (2 ^ 64 - 1))) (rec_ 0 (2 ^ 64 - 1)) (fun _ _ => true) ∧
    Adm { e (rec_ 1 (2 ^ 64 - 1)) with events := [(0xFFF, 1)] } (rec_ 1 (2 ^ 64 - 1)) (fun _ a => decide (a.event 0xFFF = 1)) ∧
    Adm (e (cb 0x0E 0 0)) (cb 0x0E 0 0) (fun _ _ => true) ∧
    Adm (e (cb 0x0E 0 0x0100001FFFF8)) (cb 0x0E 0 0x0100001FFFF8)
      (fun _ a => pairB (escWrite false {} 0x0100001FFFF8 (toBytes 8 a.beat.toNat) a) fun _ u => decide (u.beat = a.beat)) ∧
    Adm (nq (e (note 0x3F))) (note 0x3F) (fun _ a => nqEnabled a 63 && !nqInWindow a 63 && decide ((a.nq 63).entries.length + 1 = 2 ^ (a.nq 63).depth - 1)) ∧
    Adm (e (note 0x10)) (note 0x10) (fun _ a => !nqEnabled a 63) ∧
    Adm (e (write 0x0100001FFFF8 8)) (write 0x0100001FFFF8 8)
      (fun _ a => (regOffset a 0x0100001FFFF8).isNone && pairB (escWrite false {} 0x0100001FFFF8 (toBytes 8 5) a) fun _ _ => true) ∧
    (let s : State := { e (write 0x020000400014 4) with
       regs := (e 0).regs.map fun p => if p.1 = Reg.ringCtl 63 then (p.1, 0x60005) else p }
     Adm s (write 0x020000400014 4) (fun f a => decide (regOffset a 0x020000400014 = some Reg.cruScrub ∧ regRange Reg.cruScrub = none) &&
       plainReg Reg.cruScrub && admittedB a (.ring 63) Reg.cruScrub 5 && f.rings.all fun e => e.2.running.all fun d => d.uid != f.nextUid)) :=
  ⟨admits_of (by decide), admits_of (by decide), admits_of (by decide), admits_of (by decide), admits_of (by decide),
   admits_of (by decide), admits_of (by decide), admits_of (by decide), admits_of (by decide)⟩

/-- A COPY of nothing and of one byte, a WAIT met and not met, a BARRIER of two that comes first and last, one of a tree,
and a STRIKE at the present Beat. -/
theorem witness_LongCommands :
    let fresh (s f : State) : Bool := (s.ring 63).running.all fun d => d.uid != f.nextUid
    let copy (n : Nat) : W512 := cb 0x02 0 (0x010000100000 + 0x010000180000 * 2 ^ 64 + n * 2 ^ 128)
    let wait : W512 := cb 0x05 0 (0xFFF + 5 * 2 ^ 64)
    let bar : W512 := cb 0x06 0 (1 + 0 * 2 ^ 32 + 2 * 2 ^ 40)
    let tree : W512 := cb 0x06 0 (1 + 1 * 2 ^ 32 + 1 * 2 ^ 48)
    let strike : W512 := cb 0x07 0 9
    let other : Cmd := { uid := 100, seq := 0, sub := 0, iter := 0, body := bar, start := 0, limit := 0 }
    let two : State := { esc bar {} [] with rings := [(0, { state := .active, running := [other] }), (63, { state := .active })] }
    let gated (f : State) : State := (f.admitting 63 bar).modRing 63 fun k => { k with gate := some (newCmd f 63 bar).uid }
    Adm (esc (copy 0) {} []) (copy 0) (fun _ _ => true) ∧
    Adm (esc (copy 1) {} []) (copy 1) (fun _ a => !copyEndBad a true (Cb.addr (copy 1)) 1 && !copyEndBad a false (Cb.value (copy 1)) 1) ∧
    Adm (esc wait {} []) wait (fun f _ => fresh (esc wait {} []) f) ∧
    Adm { esc wait {} [] with events := [(0xFFF, 5)] } wait (fun _ a => decide (Cb.at_ wait 24 8 ≤ (a.event 0xFFF).toNat)) ∧
    Adm (esc bar {} []) bar (fun f _ => decide ((localBars (gated f) 1).length = 1)) ∧
    Adm two bar (fun f _ => decide ((localBars (gated f) 1).length = 2) &&
      (localBars (gated f) 1).all fun e => decide (Cb.barId e.2.body = 1 ∧ Cb.count e.2.body = 2)) ∧
    Adm (esc tree {} []) tree (fun _ _ => decide (Cb.scope tree = 1)) ∧
    Adm { esc strike {} [] with beat := 9 } strike (fun f a => decide (a.beat.toNat = Cb.addr strike) &&
      fresh (esc strike {} []) f) :=
  ⟨admits_of (by decide), admits_of (by decide), admits_of (by decide), admits_of (by decide), admits_of (by decide),
   admits_of (by decide), admits_of (by decide), admits_of (by decide)⟩

/-- Conditions on an event that hold, fail and cannot be read, each frame on top and no frame, the last turn of a loop and
one before it, the eighth frame, and a call from the ring and from a buffer. -/
theorem witness_ControlFlowCommands :
    let e (k : Ring) (b : W512) : State := esc b k []
    let cond (op src v : Nat) : W512 := cb op 0 (src + 0xFFF * 2 ^ 16 + 2 ^ 32 * b2n (op == 0x0B) + v * 2 ^ 192)
    let far : W512 := cb 0x08 0 (1 + 0x030000000000 * 2 ^ 128)
    let loop (n : Nat) : W512 := cb 0x0B 0 (n * 2 ^ 64)
    let call : W512 := cb 0x0C 0 (0x010000100000 + 65536 * 2 ^ 64)
    let c (b : W512) : Cmd := { uid := 100, seq := 0, sub := 0, iter := 0, body := b, start := 0, limit := 0 }
    let fr (kind : FrameKind) (b : W512) (iter : Nat) : Frame := { kind := kind, cmd := c b, iter := iter, pos := {} }
    let atEnd (a : State) : Bool := !available a 63 (a.ring 63).pos && !(a.ring 63).pos.inBuf && decide ((a.ring 63).state = .active)
    let seven : Ring := { frames := List.replicate 7 (fr .ifF 0 0) }
    Adm (e seven (cond 0x08 0 0)) (cond 0x08 0 0) (fun _ a => decide ((a.ring 63).frames.length < 8) &&
      pairB (condition {} 63 (cond 0x08 0 0) a) fun x u => x && decide (u.rings = a.rings)) ∧
    Adm (e {} (cond 0x08 0 1)) (cond 0x08 0 1) (fun _ a => atEnd a && pairB (condition {} 63 (cond 0x08 0 1) a) fun x u => !x && decide (u = a)) ∧
    Adm (e {} far) far (fun _ a => errB (condition {} 63 far a) fun _ u => decide (u.rings = a.rings)) ∧
    Adm (e { frames := [fr .ifF 0 0] } (cb 0x09 0 0)) (cb 0x09 0 0) (fun _ a => atEnd a) ∧ Adm (e {} (cb 0x09 0 0)) (cb 0x09 0 0) (fun _ a => (a.ring 63).frames.isEmpty) ∧
    Adm (e { frames := [fr .ifF 0 0] } (cb 0x0A 0 0)) (cb 0x0A 0 0) (fun _ _ => true) ∧
    Adm (e { frames := [fr .loopF (loop 2) 0] } (cb 0x0A 0 0)) (cb 0x0A 0 0) (fun _ _ => true) ∧
    Adm (e { frames := [fr .loopF (loop 2) 1] } (cb 0x0A 0 0)) (cb 0x0A 0 0) (fun _ _ => true) ∧ Adm (e {} (cb 0x0A 0 0)) (cb 0x0A 0 0) (fun _ _ => true) ∧
    Adm (e seven (loop 1)) (loop 1) (fun _ _ => decide (Cb.loopMode (loop 1) = 0 ∧ Cb.loopCount (loop 1) ≠ 0)) ∧
    Adm (e seven (cond 0x0B 0 0)) (cond 0x0B 0 0) (fun _ a => pairB (condition {} 63 (cond 0x0B 0 0) a) fun x u => x && decide (u.rings = a.rings)) ∧
    Adm (e {} (loop 0)) (loop 0) (fun _ a => decide (Cb.loopCount (loop 0) = 0 ∧ 1 < ringN a 63) && atEnd a) ∧
    Adm (e {} (cond 0x0B 0 1)) (cond 0x0B 0 1) (fun _ a => atEnd a && decide (1 < ringN a 63) &&
      pairB (condition {} 63 (cond 0x0B 0 1) a) fun x u => !x && decide (u = a)) ∧
    Adm (e seven call) call (fun _ _ => true) ∧ Adm (e { frames := [fr .callF call 0] } (cb 0x0D 0 0)) (cb 0x0D 0 0) (fun _ _ => true) ∧
    Adm (e {} (cb 0x0D 0 0)) (cb 0x0D 0 0) (fun _ _ => true) :=
  ⟨admits_of (by decide), admits_of (by decide), admits_of (by decide), admits_of (by decide), admits_of (by decide),
   admits_of (by decide), admits_of (by decide), admits_of (by decide), admits_of (by decide), admits_of (by decide),
   admits_of (by decide), admits_of (by decide), admits_of (by decide), admits_of (by decide), admits_of (by decide),
   admits_of (by decide)⟩

/-- A COPY of its only piece, a WAIT met and one not, a STRIKE at its Beat, a limit one Beat past, and a mutual wait of
the last ring at its time and one Beat before. -/
theorem witness_RunningCommandEvents :
    let copy : W512 := cb 0x02 0 (0x010000100000 + 0x010000180000 * 2 ^ 64 + 64 * 2 ^ 128)
    let c (b : W512) : Cmd := { uid := 1, seq := 0, sub := 0, iter := 0, body := b, start := 0, limit := 1 }
    let s (x : Cmd) (b : W64) : State := { esc 0 { running := [x] } [] with beat := b }
    let wait : W512 := cb 0x05 0 (5 + 1 * 2 ^ 64)
    let mw (b : W64) : State := { esc 0 { running := [c wait] } [(Reg.escCtl, 1)] with
      mwSince := some 0
      beat := b }
    (runningAt (s (c copy) 0) 63 0 = some (c copy) ∧ Cb.opcode copy = 0x02 ∧ cruHolds (s (c copy) 0) = false ∧
      Cb.bytes copy = 64 ∧ pieceHeld (s (c copy) 0) copy 0 = false ∧ (c copy).pieces = [] ∧ (c copy).written = 0 ∧
      (c copy).poisoned = false ∧ ∃ l u, pieceRead {} copy 0 64 (s (c copy) 0) = (.ok l, u) ∧
        pairB (pieceWrite {} 63 (c copy) 0 l u) (fun _ _ => true) = true) ∧
    (∀ m, runningAt (s { c wait with met := m } 0) 63 0 = some { c wait with met := m } ∧ Cb.opcode wait = 0x05) ∧
    (let x : Cmd := { c (cb 0x07 0 9) with target := 9 }
     runningAt (s x 9) 63 0 = some x ∧ x.target.toNat ≤ (s x 9).beat.toNat ∧ replaying (s x 9) = false ∧ recording (s x 9) = false ∧
     (s x 8).beat.toNat < x.target.toNat) ∧
    (1000 * (c copy).limit < ((s (c copy) 1001).beat - (c copy).start).toNat ∧ (s (c copy) 1001).flag Reg.rsrCtl 1 = false ∧
      ((s (c copy) 1000).beat - (c copy).start).toNat = 1000 * (c copy).limit) ∧
    mwDue (mw 1000000) = true ∧ mwDue (mw 999999) = false :=
  ⟨⟨by decide, by decide, by decide, by decide, by decide, by decide, by decide, by decide, pair_of (by decide)⟩, by decide, by decide, by decide, by decide, by decide⟩

/-- Dispatches to core 255 alone: a shape as large as its plan's and one larger, an empty grid, a malformed header, an
image that the seal names and one it does not, a hash that differs, a core that has become free, and the last end. -/
theorem witness_Dispatches :
    let b : W512 := cb 0x01 0 (0x010000100000 + 0x010000101000 * 2 ^ 64 + (255 + 1 * 2 ^ 16) * 2 ^ 128)
    let shape (m : Nat) : List Byte := [BitVec.ofNat 8 m, 0, 0, 0, 1, 0, 0, 0]
    let header (version : Nat) : List Byte := [BitVec.ofNat 8 version] ++ List.replicate 15 0 ++ shape 4
    let s (version m : Nat) : State := { esc b {} [(Reg.glbCoreMap 7, 0x80000000)] with
      mem := cells 0 (toBytes 64 b.toNat) ++ cells 0x100000 (header version) ++ cells 0x101000 (shape m) }
    let reads (p : List Byte → List Byte → State → Bool) (_ a : State) : Bool :=
      !a.sealed && (upFrom 255 1).all (coreInService a) &&
      pairB (escReadAt false {} (Cb.addr b) 128 a) fun h u => pairB (escReadAt false {} (Cb.at_ b 24 8) 96 u) fun sh v => p h sh v
    let fits (h sh : List Byte) : Bool := !badHeader h && !exceedsPlan (shapesOf sh) (shapesOf (h.drop 16))
    let image (d : W256) : Image := { addr := 0x010000100000, bytes := 1, digest := d }
    let man (l : List Image) : Manifest := { job := 0, set := [], rings := 2 ^ 63, ranges := [], images := l, digest := 0 }
    let sealed (l : List Image) : State := { s 1 1 with
      regs := (Reg.glbState, 0x100D) :: (s 1 1).regs
      manifest := some (man l) }
    let x : Cmd := { uid := 5, seq := 0, sub := 0, iter := 0, body := b, start := 0, limit := 0 }
    let run (d : Disp) : State := { s 1 1 with
      rings := [(63, { state := .active, running := [x] })]
      disps := [(5, d)] }
    Adm (s 1 4) b (reads fun h sh v => fits h sh && decide ((shapesOf sh).headD {} = { m := 4, n := 1, k := 0 }) && coreFree v 255) ∧
    Adm (s 1 5) b (reads fun h sh _ => !badHeader h && exceedsPlan (shapesOf sh) (shapesOf (h.drop 16))) ∧
    Adm (s 1 0) b (reads fun h sh _ => fits h sh && decide (((shapesOf sh).headD {}).m = 0)) ∧
    Adm (s 2 1) b (reads fun h _ _ => badHeader h) ∧
    Adm (sealed []) b (fun _ a => a.sealed && decide (imageOf a b = none)) ∧
    Adm (sealed [image 0]) b (fun _ a => a.sealed && !a.verified.contains (Cb.addr b) && (imageOf a b).isSome) ∧
    (runningAt (run { verifying := true }) 63 0 = some x ∧ Cb.opcode x.body = 0x01 ∧
      imageOf (run { verifying := true }) x.body = none) ∧
    (let s : State := { run { verifying := true } with manifest := some (man [image 7]) }
     runningAt s 63 0 = some x ∧ imageOf s x.body = some (image 7) ∧
     ∃ l w, escReadAt false {} 0x010000100000 1 s = (.ok l, w) ∧ decide (l = [1] ∧ w.verified = []) = true) ∧
    (∀ h : W256, (image h).digest = h ∧ (image (h + 1)).digest ≠ h) ∧
    (let d : Disp := { live := true, set := [255] }
     (run d).disp 5 = d ∧ 255 ∈ d.set ∧ 255 ∉ d.started ∧ d.trap = none ∧ d.fault = none ∧ coreFree (run d) 255 = true ∧ d.live = true ∧ d.entry = bytesAt (header 1) 8 4) ∧
    (let d : Disp := { live := true, set := [255], started := [255] }
     (run d).disp 5 = d ∧ (∀ j ∈ d.set, j ∈ d.started) ∧ ∀ j ∈ d.started, ((run d).core j).mode = .idle) ∧
    (let d : Disp := { live := true, set := [255], started := [255], trap := some (0x0B, 255) }
     (run d).disp 5 = d ∧ d.trap = some (0x0B, 255) ∧
       ∀ j ∈ d.started, ((run d).core j).mode ≠ .running ∧ ((run d).core j).mode ≠ .resetting) := by
  refine ⟨admits_of (by decide), admits_of (by decide), admits_of (by decide), admits_of (by decide), admits_of (by decide),
    admits_of (by decide), by decide, ⟨by decide, by decide, pair_of (by decide)⟩, fun h => ⟨rfl, ?_⟩, by decide, by decide,
    by decide⟩
  show h + 1 ≠ h
  bv_omega

/-- One chain per KIND, a malformed and a misaligned descriptor, a poll, the end of a descriptor, and a limit at its Beat
and one past it. -/
theorem witness_Chains :
    let dsc (kind : Nat) (a0 a1 a2 a3 : Nat) : List Byte :=
      toBytes 64 (kind + a0 * 2 ^ 128 + a1 * 2 ^ 192 + a2 * 2 ^ 256 + a3 * 2 ^ 320)
    let c : Chain := { addr := 0x010000000000, desc := 0, start := 0, work := .fetch }
    let s (l : List Byte) (c : Chain) : State := { esc 0 {} [] with
      mem := cells 0 l
      chain := some c }
    let fetched (l : List Byte) (p : W512 → State → Bool) : Prop :=
      ∃ m u, escReadAt false {} c.addr 64 (s l c) = (.ok m, u) ∧
        (decide (u.chain = (s l c).chain) && !cruHolds (s l c) && decide (c.addr % 64 = 0) && p (BitVec.ofNat 512 (ofBytes m)) u) = true
    let word := 0x0100001FFFF8
    let poll : Chain := { c with
      work := .poll
      desc := BitVec.ofNat 512 (ofBytes (dsc 4 0 word 0 0) + 2 ^ 32) }
    let done : Chain := { c with work := .done 0x0F }
    Admitted (esc 0 {} []) .secure Reg.escChainHi 0x100 ∧
    fetched (dsc 1 1 2 3 4) (fun d _ => decide (Cd.kind d = 1) && !Cd.bad d) ∧
    fetched (dsc 2 1 2 3 4) (fun d _ => decide (Cd.kind d = 2) && !Cd.bad d) ∧
    fetched (dsc 3 0 word 5 0) (fun d u => decide (Cd.kind d = 3) && !Cd.bad d && (regOffset u (Cd.arg d 1)).isNone &&
      pairB (escWrite false {} word (toBytes 8 (Cd.arg d 2)) u) fun _ w => decide (w.chain = u.chain)) ∧
    fetched (dsc 4 0 word 0 0) (fun d _ => decide (Cd.kind d = 4) && !Cd.bad d) ∧
    fetched (dsc 5 0 0 0 0) (fun d _ => decide (Cd.kind d = 5) && !Cd.bad d) ∧
    (let s : State := { s (dsc 6 1 2 63 0x3F) c with
       regs := (esc 0 {} []).regs ++ [(Reg.nqCtl 63, 1)]
       nqs := [(63, { depth := 4, entries := List.replicate 14 1 })] }
     ∃ m u, escReadAt false {} c.addr 64 s = (.ok m, u) ∧ (nqEnabled u 63 && !nqInWindow u 63 &&
       decide (Cd.arg (BitVec.ofNat 512 (ofBytes m)) 2 % 64 = 63 ∧ Cd.arg (BitVec.ofNat 512 (ofBytes m)) 3 % 256 = 0x3F ∧
         (u.nq 63).entries.length < 2 ^ (u.nq 63).depth - 1)) = true) ∧
    fetched (dsc 7 0 0 0 0) (fun d _ => Cd.bad d) ∧ ({ c with addr := c.addr + 63 } : Chain).addr % 64 ≠ 0 ∧
    ((s [] poll).chain = some { poll with work := .poll } ∧ ∃ m u, escReadAt false {} (Cd.arg poll.desc 1) 8 (s [] poll) = (.ok m, u) ∧
      decide (u.chain = (s [] poll).chain ∧ Nat.land (ofBytes m) (Cd.arg poll.desc 2) = Cd.arg poll.desc 3) = true) ∧
    (∃ x w, escWrite false {} (done.addr + 2) (toBytes 1 0x0F) (s [] done) = (.ok x, w) ∧ (decide (w.beat = (s [] done).beat) &&
      pairB (escWrite false {} (done.addr + 48) (toBytes 8 (s [] done).beat.toNat) w) (fun _ z => decide (z.beat = (s [] done).beat))
        && !Cd.notify done.desc) = true) ∧
    (let fill : Chain := { c with
       work := .fill
       desc := BitVec.ofNat 512 (ofBytes (dsc 2 8 word 5 0)) }
     (s [] fill).chain = some { fill with work := .fill } ∧ Cd.arg fill.desc 0 ≠ 0 ∧
       ∃ x w, escWrite false {} (Cd.arg fill.desc 1) (fillBytes (Cd.arg fill.desc 0) (Cd.arg fill.desc 2)) (s [] fill) = (.ok x, w) ∧
         decide (w.chain = (s [] fill).chain) = true) ∧
    (let copy : Chain := { c with
       work := .copy
       desc := BitVec.ofNat 512 (ofBytes (dsc 1 8 word 0x010000000000 0)) }
     (s [] copy).chain = some { copy with work := .copy } ∧ Cd.arg copy.desc 0 ≠ 0 ∧
       ∃ st w, chainCopyAll {} copy.desc (s [] copy) = (st, w)) ∧
    1000 * Cd.timeout poll.desc < (({ s [] poll with beat := 1001 } : State).beat - poll.start).toNat ∧
    (({ s [] poll with beat := 1000 } : State).beat - poll.start).toNat ≤ 1000 * Cd.timeout poll.desc :=
  ⟨admitted_of (by decide), pair_of (by decide), pair_of (by decide), pair_of (by decide), pair_of (by decide),
   pair_of (by decide), pair_of (by decide), pair_of (by decide), by decide, ⟨by decide, pair_of (by decide)⟩,
   pair_of (by decide +kernel), ⟨by decide, by decide, pair_of (by decide)⟩, ⟨by decide, by decide, _, _, rfl⟩, by decide,
   by decide⟩

/-- Every operation, on the fewest elements: descriptors with a field that offends, a vetoed step, a step that has not ended
its gate, a deadline that has passed, the first chunks of a ring of two, and sends accepted with and without a residual. -/
theorem witness_Collectives :
    let b : W512 := cb 0x03 0 0x010000100000
    let src := 0x010000101000
    let dst := 0x010000102000
    let dsc (op count dst : Nat) : Nat := op + count * 2 ^ 96 + src * 2 ^ 128 + dst * 2 ^ 192 + 2 ^ 384
    let s (d : Nat) (l : List (Nat × W32)) : State := { esc b {} l with
      mem := cells 0 (toBytes 64 b.toNat) ++ cells 0x100000 (toBytes 80 d)
      xlat := [(0, 0x0F), (0x80000, 0x01000000000F)] }
    let runs (d op : Nat) (l : List (Nat × W32)) (p : List Byte → CollDesc → State → Bool) (t : State → State := fun z => z) : Prop :=
      Adm (t (s d l)) b (fun _ a => decide (Cb.opcode b = 0x03 ∧ Cb.addr b % 128 = 0) &&
        decide (descOp (t (s d l)) {} b = some op) &&
        pairB (escReadAt false {} (Cb.addr b) 128 a) fun l u => decide ((CollDesc.parse l).op = op) && p l (CollDesc.parse l) u)
    let starts (d op : Nat) (l : List (Nat × W32)) (p : CollDesc → State → Bool) (t : State → State := fun z => z) : Prop :=
      runs d op l (fun l d u => decide (CollDesc.offence l (axisSize u d.axis) = none) && p d u) t
    let alone (d op : Nat) (p : CollDesc → State → Bool) (t : State → State := fun z => z) : Prop :=
      starts d op [] (fun d u => decide (groupSize u d = 1 ∧ groupPos u d = 0) && !vetoActs u && p d u) t
    let moves (d : CollDesc) (u : State) : Bool := pairB (readSrc {} d 0 d.count u) fun x w =>
      decide (groupSize w d = 1 ∧ x.1.data.length = d.bytes d.count ∧ x.2.data.length = d.scales d.count) &&
      pairB (writeDst {} d 0 x.1 x.2 w) fun _ z => decide (groupSize z d = 1 ∧ z.early = [])
    let late (d : CollDesc) (w : State) : Bool := decide (d.deadline ≠ 0 ∧ d.det = false) && deadlinePassed w d.deadline
    let sends (x : Bool) (d : CollDesc) (u : State) : Bool := decide (d.comp = 0 ∧ 0 < d.count ∧ d.count ≤ 1024) &&
      pairB (readSrc {} d 0 d.count u) fun _ w => late d w == x
    let begins (d : CollDesc) (u : State) : Bool :=
      let half := shardElems u d / 2
      !vetoActs u && decide (groupSize u d = 2 ∧ d.fmt.isBlock = false ∧ half = 1) &&
      pairB (readSrc {} d (chunkFirst u d ((groupPos u d + 1) % 2) false) half u) fun x w =>
        decide (x.2 = {}) && !x.1.any &&
        pairB (readSrc {} d (chunkFirst w d ((groupPos w d + 1) % 2) true) half w) fun y _ => decide (y.2 = {}) && !y.1.any
    let veto : List (Nat × W32) := [(Reg.trnCtl, 1), (Reg.trnStatus, 1)]
    let two : List (Nat × W32) := [(Reg.glbAxes, 1)]
    let x : Cmd := { uid := 5, seq := 0, sub := 0, iter := 0, body := b, start := 0, limit := 0 }
    let k (r : List Byte) : Coll := { desc := { CollDesc.parse (toBytes 72 (dsc 6 1 dst)) with resid := 0x010000103000 }, resid := r }
    let sent (r : List Byte) : State := { s (dsc 6 1 dst) [] with
      rings := [(63, { state := .active, running := [x] })]
      colls := [(5, k r)] }
    runs (dsc 6 1 dst + 2 ^ 576) 6 [] (fun l d u => decide (CollDesc.offence l (axisSize u d.axis) = some 72)) ∧
    starts (dsc 1 1 0x1FFFFC) 1 [] (fun d u => decide ((u.recOf d.red).state = .absent ∧ d.det = false ∧ d.deadline = 0 ∧
      hbmAt u d.dst = some 0x1FFFFC ∧ recCount u (fun k => (k.state == .opened || k.state == .closing) && k.die == 0) = 0) &&
      !u.flag Reg.trnCtl 0 && !vetoActs u && !shardInAperture u d.dst d.count) ∧
    alone (dsc 2 1 dst) 2 (sends false) ∧
    alone (dsc 2 1 dst + 2 ^ 64) 2 (sends true) (fun z => { z with beat := 2048 }) ∧
    starts (dsc 2 1 dst) 2 veto (fun _ u => vetoActs u) ∧
    alone (dsc 3 2 dst) 3 moves ∧ starts (dsc 3 4 dst) 3 two begins ∧ starts (dsc 3 2 dst) 3 veto (fun _ u => vetoActs u) ∧
    alone (dsc 4 2 dst) 4 moves ∧ starts (dsc 4 4 dst) 4 two begins ∧ alone (dsc 5 1 dst) 5 moves ∧
    alone (dsc 6 1 dst) 6 (fun d u => pairB (readSrc {} d 0 d.count u) fun _ w => decide (groupSize w d = 1)) ∧
    starts (dsc 7 1 dst) 7 [(Reg.trnCtl, 1)] (fun _ u => u.flag Reg.trnCtl 0 && !u.flag Reg.trnStatus 1) ∧
    alone (dsc 7 1 dst) 7 (fun d u => !u.flag Reg.trnCtl 0 && pairB (readVals {} d 0 d.count u) fun q w =>
      pairB (readVals {} { d with src := d.dst, ssrc := d.sdst } 0 d.count w) fun _ w' =>
        pairB (writeDst {} d 0 { data := q.1 } { data := q.2 } w') fun _ z =>
          decide (groupSize (normWrite {} d.normAddr (fun _ => [(4, 0), (8, 0)]) z) d = 1)) ∧
    starts (dsc 8 1 dst) 8 [] (fun d u => decide (d.count ≤ 4096) &&
      pairB (collFetch {} d.src d.count u) fun p _ => decide (p.data.length = d.count)) ∧
    (runningAt (sent []) 63 0 = some x ∧ Cb.opcode x.body = 0x03 ∧ (sent []).coll x.uid = some (k []) ∧
      cruHolds (sent []) = false ∧ (k []).desc.op = 6 ∧ stillSends (sent []) x.uid = false ∧
      findCmd (sent []) x.uid = some (63, x) ∧ (k []).desc.det = false ∧ (sent []).sealed = false ∧ (k []).unsent = 0 ∧
      (k []).raised = [] ∧ (k []).nonfinite = 0) ∧
    ((sent [1]).coll x.uid = some (k [1]) ∧ (k [1]).resid ≠ [] ∧ stillSends (sent [1]) x.uid = false ∧
      ∃ u w, collWrite {} (k [1]).desc.resid (k [1]).resid (sent [1]) = (.ok u, w) ∧ decide (w.beat = 0) = true) :=
  ⟨admits_of (by decide +kernel), admits_of (by decide +kernel), admits_of (by decide +kernel), admits_of (by decide +kernel), admits_of (by decide +kernel),
   admits_of (by decide +kernel), admits_of (by decide +kernel), admits_of (by decide +kernel), admits_of (by decide +kernel), admits_of (by decide +kernel),
   admits_of (by decide +kernel), admits_of (by decide +kernel), admits_of (by decide +kernel), admits_of (by decide +kernel), admits_of (by decide +kernel),
   by decide, ⟨by decide, by decide, by decide, pair_of (by decide +kernel)⟩⟩

/-- The messages of every opcode on the local path: one byte into the last byte of a page and one past every page, the
last queue with and without its end, the last barrier of its kind, vetoes seen and new, and each kind of MAINT. -/
theorem witness_RunnerMessages :
    let s (m : RunMsg) (l : List (Nat × W32)) : State := { scr {} with
      cores := []
      regs := (Reg.cruPartition, 16) :: l
      localPath := [m] }
    let w (t : State) : State := { t with localPath := [] }
    let here (m : RunMsg) (opc : Nat) (t : State) : Bool := decide (t.localPath = [m] ∧ m.opc = opc) && !mustWait t m
    let last := 0x0100001FFFFF
    let put (opc a : Nat) : RunMsg := { opc := opc, addr := a, data := [1] }
    let inScratch (m : RunMsg) : Bool := decide (translate (s m []) .write m.addr = some (last, true) ∧ m.poison = 0 ∧
      m.ackReq = false ∧ m.hi = 0 ∧ (s m []).win.misses = [] ∧ (s m []).colls = []) && (writeRefusal (w (s m [])) {} m.addr 1).isNone && scratchB (s m []) last 1
    let nowhere (m : RunMsg) : Bool := decide (writeRefusal (w (s m [])) {} m.addr 1 = some (0x16, none))
    let flagMsg (a : Nat) : RunMsg := { put 0x02 last with ext := some (BitVec.ofNat 256 a) }
    let sq (opc : Nat) : RunMsg := { opc := opc, hi := 255 * 4, seq := 1, data := toBytes 16 1 }
    let x (op : Nat) : Cmd := { uid := 5, seq := 7, sub := 0, iter := 0, body := cb op 0 0, start := 0, limit := 0, acks := 1 }
    let cmd (opc : Nat) (c : Cmd) : RunMsg × State :=
      let m : RunMsg := { opc := opc, ring := 63, seq := 7, addr := 1, hi := 0x30 }
      (m, { s m [] with rings := [(63, { running := [c] })] })
    let bar (opc src : Nat) (b : Barrier) : RunMsg × State :=
      let m : RunMsg := { opc := opc, seq := 9, src := src, addr := 0x10 }
      (m, { s m [] with bars := [(9, b)] })
    let veto (seen : List (Nat × Nat)) : RunMsg × State :=
      let m : RunMsg := { opc := 0x23, data := toBytes 4 3 ++ toBytes 2 7 }
      (m, { s m [(Reg.runJob, 7), (Reg.trnCtl, 1), (Reg.trnStep, 3)] with vetoesSeen := seen })
    let maint (kind : Byte) : RunMsg := { opc := 0x38, data := [kind, 0] ++ toBytes 30 (1 + 5 * 2 ^ 48) }
    (∀ opc, opc = 0x01 ∨ opc = 0x03 ∨ opc = 0x30 ∨ opc = 0x18 → here (put opc last) opc (s (put opc last) []) = true ∧
      inScratch (put opc last) = true ∧ here (put opc 0) opc (s (put opc 0) []) = true ∧ nowhere (put opc 0) = true) ∧
    (here (flagMsg 0x0100001FFFF8) 0x02 (s (flagMsg 0x0100001FFFF8) []) = true ∧
      writeRefusal (w (s (flagMsg 0x0100001FFFF8) [])) {} (bits (flagMsg 0x0100001FFFF8).x 47 0) 8 = none ∧
      writeRefusal (w (s (flagMsg 0) [])) {} (bits (flagMsg 0).x 47 0) 8 = some (0x16, none)) ∧
    (((s (sq 0x04) []).sq 255).early = [] ∧ ((s (sq 0x04) []).sq 255).expect = 0 ∧
      here (sq 0x04) 0x04 (s (sq 0x04) []) = true ∧ sqHas (s (sq 0x04) [(Reg.sqCtl 255, 5)]) 255 2 = true ∧
      sqHas (s (sq 0x04) []) 255 2 = false ∧ here (sq 0x05) 0x05 (s (sq 0x05) []) = true ∧
      sqHas (s (sq 0x05) [(Reg.sqCtl 255, 3)]) 255 1 = true) ∧
    (let p := cmd 0x06 (x 0x10)
     here p.1 0x06 p.2 = true ∧ cmdsAt p.2 63 7 = [x 0x10] ∧ Cb.opcode (x 0x10).body = 0x10) ∧
    (let p := cmd 0x3E (x 0x10)
     let m : RunMsg := { p.1 with hi := 0x30 }
     here m 0x3E { p.2 with localPath := [m] } = true ∧ ofCommand m.hi = true ∧ cmdsAt p.2 63 7 = [x 0x10]) ∧
    (let p := bar 0x20 1 {}
     here p.1 0x20 p.2 = true ∧ (p.2.bar 9).own = []) ∧
    (let p := bar 0x21 1 { sent := true }
     here p.1 0x21 p.2 = true ∧ (p.2.bar 9).sent = true ∧ ((bar 0x21 1 {}).2.bar 9).sent = false) ∧
    (let p := bar 0x22 1 { own := [5], arrived := [1] }
     here p.1 0x22 p.2 = true ∧ p.1.src ∈ (p.2.bar 9).arrived ∧ (p.2.bar 9).sent = false ∧ (p.2.bar 9).own ≠ []) ∧
    (let p := veto [(7, 3)]
     here p.1 0x23 p.2 = true ∧ p.2.vetoesSeen.contains (bytesAt p.1.data 4 2, bytesAt p.1.data 0 4) = true) ∧
    (let p (step job : Nat) : RunMsg × State :=
       let m : RunMsg := { opc := 0x23, data := toBytes 4 step ++ toBytes 2 job }
       (m, s m [(Reg.runJob, 7), (Reg.trnCtl, 1), (Reg.trnStep, 0xFFFFFFFF)])
     (p 0 7).2.flag Reg.trnCtl 0 = true ∧ (p 0 7).2.fld Reg.runJob 15 0 = 7 ∧ ((p 0 7).2.reg Reg.trnStep).toNat = 0xFFFFFFFF ∧
     here (p 0xFFFFFFFF 7).1 0x23 (p 0xFFFFFFFF 7).2 = true ∧ bytesAt (p 0xFFFFFFFF 7).1.data 0 4 = 0xFFFFFFFF ∧
     here (p 0 7).1 0x23 (p 0 7).2 = true ∧ bytesAt (p 0 7).1.data 0 4 = (0xFFFFFFFF + 1) % 2 ^ 32 ∧
     here (p 1 7).1 0x23 (p 1 7).2 = true ∧ bytesAt (p 1 7).1.data 0 4 = 1 ∧
     here (p 0 8).1 0x23 (p 0 8).2 = true ∧ bytesAt (p 0 8).1.data 4 2 ≠ 7) ∧
    (let m : RunMsg := { opc := 0x24, data := toBytes 8 9 }
     here m 0x24 (s m []) = true ∧ barChildren (s m []) 0xF = [] ∧ (s m [(Reg.beatSsCtl, 0x1000)]).flag Reg.beatSsCtl 12 = true ∧
     (s m [(Reg.beatSsCtl, 0)]).flag Reg.beatSsCtl 12 = false ∧ recording (s m []) = false) ∧
    (∀ kind, kind = 1 ∨ kind = 2 ∨ kind = 3 → here (maint kind) 0x38 (s (maint kind) []) = true ∧
      bytesAt (maint kind).data 0 1 = kind.toNat) ∧
    (let t : State := { s (maint 2) [] with bt := { waiting := some (1, 5) } }
     t.bt.waiting = some (1, 5) ∧ bytesAt (maint 2).data 2 2 = 1 ∧ bytesAt (maint 2).data 8 8 = 5 ∧
     BitVec.ofNat 64 (bytesAt (maint 2).data 8 8) = (5 : W64)) := by
  refine ⟨?_, by decide, by decide, by decide, by decide, by decide, by decide, by decide, by decide, by decide, by decide,
    ?_, by decide⟩
  · rintro opc (rfl | rfl | rfl | rfl) <;> decide
  · rintro kind (rfl | rfl | rfl) <;> decide

/-- The last record, with the unit before its last and its last, a unit that has come before, and a deadline just passed
and just to come. -/
theorem witness_ReductionMessages :
    let ext (key : Nat) : Option W256 := some (BitVec.ofNat 256 (0xFFFF * 2 ^ 16 + key * 2 ^ 144))
    let m (opc : Nat) : RunMsg := { opc := opc, addr := 0x1FFFFC, ext := ext 0, data := if opc = 0x10 ∨ opc = 0x14 then [0, 0, 0, 0] else [] }
    let s (opc : Nat) (x : Rec) : State := { withRegs [(Reg.runStageSize 0, 1)] with
      xlat := [(0, 0x0F), (1, 0x20000F)]
      localPath := [m opc]
      recs := [(0xFFFF, x)] }
    let w (t : State) : State := { t with localPath := [] }
    let here (opc : Nat) (t : State) : Bool := decide (t.localPath = [m opc] ∧ (m opc).opc = opc) && !mustWait t (m opc)
    let x : Rec := { state := .opened, base := 0x1FFFFC, elems := 1, units := 2 }
    (here 0x10 (s 0x10 { x with staged := true }) = true ∧ raccRefusal (w (s 0x10 x)) (m 0x10) = none ∧
      RedX.red (m 0x10).x = 0xFFFF ∧ RedX.tileValid (m 0x10).x = false ∧
      raccRefusal { w (s 0x10 x) with xlat := [] } (m 0x10) = some (0x16, none)) ∧
    (here 0x11 (s 0x11 x) = true ∧ x.received + 1 < x.units ∧ x.keys.contains (m 0x11).unit = false ∧
      ({ x with received := 1 } : Rec).units ≤ ({ x with received := 1 } : Rec).received + 1 ∧ x.held = [] ∧
      ({ x with keys := [(m 0x11).unit] } : Rec).keys.contains (m 0x11).unit = true) ∧
    (here 0x12 (s 0x12 x) = true ∧ here 0x13 (s 0x13 x) = true ∧ here 0x13 (s 0x13 { x with staged := true }) = true) ∧
    (let d : CollDesc := { CollDesc.parse [] with op := 3, red := 0xFFFF, count := 8, src := 0, dst := 0x1FFFFC }
     let c : Cmd := { uid := 5, seq := 7, sub := 0, iter := 0, body := cb 3 0 0, start := 0, limit := 0 }
     let t : State := { s 0x14 {} with
       recs := []
       regs := [(Reg.glbAxes, 2)]
       rings := [(63, { running := [c] })]
       colls := [(5, { desc := d })] }
     here 0x14 t = true ∧ ringOpOf (w t) 0xFFFF = some (5, { desc := d }) ∧ findCmd t 5 = some (63, c) ∧ d.wfmt = 0 ∧
       (m 0x14).poison = 0 ∧ d.op = 3 ∧ RedX.key (m 0x14).x + 2 < groupSize t d ∧
       (let u : State := { t with regs := [(Reg.glbAxes, 1)] }
        ringOpOf (w u) 0xFFFF = some (5, { desc := d }) ∧ groupSize u d ≤ RedX.key (m 0x14).x + 2) ∧
       ∃ la v, readSrc {} d 0 1 (w t) = (.ok la, v) ∧ (decide (la.2 = {}) && !la.1.any) = true) ∧
    (here 0x14 { s 0x14 {} with regs := [(Reg.trnCtl, 1), (Reg.trnStatus, 1)] } = true ∧ ringOpOf (w (s 0x14 {})) 0xFFFF = none) ∧
    (let y : State := { s 0x10 { x with deadline := 1 } with beat := 2 * 1024 }
     (y.recOf 0xFFFF).state = .opened ∧ (y.recOf 0xFFFF).det = false ∧ (y.recOf 0xFFFF).deadline ≠ 0 ∧
       deadlinePassed y (y.recOf 0xFFFF).deadline = true) ∧
    (deadlinePassed { s 0x10 x with beat := 2 * 1024 } 1 = true ∧ deadlinePassed { s 0x10 x with beat := 2 * 1024 - 1 } 1 = false) ∧
    (let y : Rec := { x with state := .closing }
     y.state = .closing ∧ y.mean = false ∧ y.norms = false ∧ x.state ≠ .closing) ∧
    (let v := { s 0x10 { x with state := .closing, norms := true, nonfinite := 1, elems := 0 } with regs := [(Reg.trnCtl, 1)] }
     let z := readShard 0xFFFF v
     (v.recOf 0xFFFF).state = .closing ∧ z.recOf 0xFFFF = { v.recOf 0xFFFF with poisoned := (z.recOf 0xFFFF).poisoned } ∧
       (v.recOf 0xFFFF).mean = false ∧ (v.recOf 0xFFFF).norms = true ∧ (v.recOf 0xFFFF).nonfinite ≠ 0 ∧
       z.flag Reg.trnCtl 0 = true) ∧
    (recordsOpen (s 0x10 x) = true ∧ recordsOpen (s 0x10 {}) = false ∧
      ({ s 0x10 {} with bars := [(0xFFFFFFFF, { held := true })] } : State).bars = [(0xFFFFFFFF, { held := true })]) :=
  ⟨by decide, by decide, by decide, ⟨by decide, by decide, by decide, by decide, by decide, by decide, by decide, by decide, pair_of (by decide)⟩, by decide,
   by decide, by decide, by decide⟩

/-- The last link: the seventh and the eighth failure of a frame, frames in and out of turn, every limit at its Beat and
one before it, trainings that end well, badly and at the wrong peer, and floods of this job, of another and seen before. -/
theorem witness_LinkEvents :
    let up (k : Link) (l : List (Nat × W32)) (b : W64) : State :=
      { withRegs (l ++ [(Reg.runLinkStatus 15, 0x80100000), (Reg.runLinkCtl 15, 1)]) with
        links := [(15, k)]
        beat := b }
    let f (ok : Bool) (seq : Nat) : RunnerFrame := { crcOk := ok, seq := seq, ftype := 0, ack := 0, nak := false, credits := [], sealOk := true, fec := 0 }
    let m : RunMsg := { opc := 0x38, data := [3] }
    let down (b : W64) : State := { withRegs [(Reg.runLinkStatus 15, 0x40100000), (Reg.runLinkCtl 15, 1)] with
      links := [(15, { training := true })]
      beat := b }
    let st (s : State) := s.fld (Reg.runLinkStatus 15) 31 30
    let idle := up {} [] 0
    (linkUp (up { failures := 6 } [] 0) 15 = true ∧ (f false 0).crcOk = false ∧ ((up { failures := 6 } [] 0).link 15).sealFails = [] ∧
      ((up { failures := 7 } [] 0).link 15).failures = 7) ∧
    ((f true 1).crcOk = true ∧ idle.flag (Reg.runLinkStatus 15) 28 = false ∧ (f true 1).seq ≠ (idle.link 15).rxSeq) ∧
    ((f true 4095).ftype < 2 ∧ (f true 4095).seq = ((up { rxSeq := 4095 } [] 0).link 15).rxSeq ∧
      ((up { rxSeq := 4095 } [] 0).link 15).waiting = [] ∧
      ∀ e ∈ ((up { rxSeq := 4095, unacked := [(5, m)] } [] 0).link 15).unacked, e.1 ≠ (f true 4095).ack) ∧
    (idle.flag Reg.beatStatus 2 = false ∧ idle.sealed = false ∧ idle.flag Reg.rsrStatus 6 = false ∧ recording idle = false ∧
      m.dest = ownId idle ∧ m.e2eOk = true ∧ idInSystem idle m.dest = true ∧ (idle.link 15).rx = [] ∧ 3 ≤ bytesAt m.data 0 1 ∧
      mustWait (idle.count (0x100 + 8 * 15 + 1) ((32 * msgUnits m + 63) / 64)) m = false ∧
      (let p : RunMsg := { opc := 0x01, data := [1] }
       mustWait (idle.count (0x100 + 8 * 15 + 1) ((32 * msgUnits p + 63) / 64)) p = false)) ∧
    (let k : Link := { unacked := [(0, m)] }
     ((up k [] 100000).link 15).unacked ≠ [] ∧ 100000 ≤ ((up k [] 100000).beat - ((up k [] 100000).link 15).lastAck).toNat ∧
     ((up k [] 99999).beat - ((up k [] 99999).link 15).lastAck).toNat < 100000) ∧
    (((down 0).link 15).training = true ∧ st (down 0) = 1 ∧ ((down 0).link 15).waiting = [] ∧
      16 ≤ (down 0).fld (Reg.runLinkStatus 15) 20 16) ∧
    ((0xFFFF, 0xFF) ∉ idle.floodsSeen ∧ 0xFFFF % 2 ^ 16 ≠ idle.fld Reg.runJob 15 0 ∧
      (0xFFFF, 0xFF) ∈ ({ idle with floodsSeen := [(0xFFFF, 0xFF)] } : State).floodsSeen) ∧
    (let s := up {} [(Reg.runJob, 0xFFFF)] 0
     0xFFFF % 2 ^ 16 = s.fld Reg.runJob 15 0 ∧ linkUp s 15 = true ∧ recording s = false ∧ ∀ r, r < 64 → (s.ring r).state = .disabled) ∧
    (∀ b : W64, ({ idle with floodOut := some (7, 1, b) } : State).floodOut = some (7, 1, b)) ∧
    (let s : State := { withRegs [(Reg.rsrStatus, 0x40), (Reg.rsrCtl, 0x10000)] with beat := 1000 }
     s.flag Reg.rsrStatus 6 = true ∧ 1000 * s.fld Reg.rsrCtl 31 16 = (s.beat - s.quietSince).toNat) ∧
    (let s := State.reset
     Admitted s .secure (Reg.runLinkCtl 15) (s.reg (Reg.runLinkCtl 15) ||| 1) ∧ s.flag (Reg.runLinkCtl 15) 0 = false ∧ st s ≠ 3 ∧
     Admitted s .secure (Reg.runLinkCtl 15) (s.reg (Reg.runLinkCtl 15) &&& ~~~1#32)) ∧
    (Admitted idle .secure (Reg.runLinkCtl 15) (idle.reg (Reg.runLinkCtl 15) ||| 2) ∧
      Admitted idle .secure (Reg.runLinkCtl 15) (idle.reg (Reg.runLinkCtl 15) ||| 4) ∧
      Admitted idle .secure (Reg.runLinkCtl 15) (idle.reg (Reg.runLinkCtl 15) &&& ~~~4#32) ∧
      (∀ v : W32, ({ idle with posted := [(Reg.runLinkCtl 15, v)] } : State).posted = [(Reg.runLinkCtl 15, v)]) ∧
      State.reset.flag (Reg.runLinkCtl 15) 0 = false ∧ st State.reset ≠ 3 ∧
      idle.flag (Reg.runLinkCtl 15) 0 = true ∧ (idle.link 15).waiting = [] ∧ (idle.link 15).unacked = [] ∧
      inJobSet (withRegs [(Reg.runPortmap 15, 8191)]) ((withRegs [(Reg.runPortmap 15, 8191)]).fld (Reg.runPortmap 15) 12 0) = false ∧
      st idle = 2) ∧
    (let s := withRegs [(Reg.runLinkStatus 15, 0x40000000), (Reg.runLinkCtl 15, 1), (Reg.runPortmap 15, 8191)]
     st s = 1 ∧ (s.link 15).training = false ∧ s.flag (Reg.runLinkCtl 15) 0 = true ∧ 8191 = s.fld (Reg.runPortmap 15) 12 0 ∧
       2 = Nat.xor (s.fld (Reg.runPortmap 15) 19 16) 2 ∧ 3 ≠ Nat.xor (s.fld (Reg.runPortmap 15) 19 16) 2 ∧
       (s.link 15).waiting = [] ∧ 8190 ≠ s.fld (Reg.runPortmap 15) 12 0) ∧
    (Admitted State.reset .secure Reg.runJobSet 0 ∧ Admitted State.reset .secure Reg.runJobSet 1 ∧
      (∀ x, x < 4 → (jobRange (storeReg Reg.runJobSet 0 State.reset) x).1 ≤ (jobRange (storeReg Reg.runJobSet 0 State.reset) x).2 ∧
        (jobRange (storeReg Reg.runJobSet 0 State.reset) x).2 < axisSize (storeReg Reg.runJobSet 0 State.reset) x ∧
        (jobRange (storeReg Reg.runJobSet 0 State.reset) x).1 ≤ coordOf (ownId State.reset) x ∧
        coordOf (ownId State.reset) x ≤ (jobRange (storeReg Reg.runJobSet 0 State.reset) x).2) ∧
      (jobRange (storeReg Reg.runJobSet 1 State.reset) 0).2 < (jobRange (storeReg Reg.runJobSet 1 State.reset) 0).1) := by
  refine ⟨by decide, by decide, by decide, by decide, by decide, by decide, by decide, by decide, fun _ => rfl, by decide,
    ⟨admitted_of (by decide), by decide, by decide, admitted_of (by decide)⟩,
    ⟨admitted_of (by decide), admitted_of (by decide), admitted_of (by decide), fun _ => rfl, by decide⟩, by decide,
    ⟨admitted_of (by decide), admitted_of (by decide), by decide, by decide⟩⟩

/-- A veto and an end of a step with training disabled, before and after the gate, of a step that is vetoed and of one that
is not, with the clean count one below and at its growth. -/
theorem witness_TrainingSteps :
    let s (ctl status clean : W32) : State :=
      withRegs [(Reg.trnCtl, ctl), (Reg.trnStatus, status), (Reg.trnGrowth, 2), (Reg.trnClean, clean)]
    let noWord (s : State) : Prop :=
      ∀ key, place s (s.fld Reg.trnMirrorHi 15 0 * 2 ^ 32 + s.fld Reg.trnMirrorLo 31 6 * 64) ≠ .scratch key
    (Admitted (s 0 0 0) .secure Reg.trnCtl 2 ∧ (s 0 0 0).flag Reg.trnCtl 0 = false) ∧
    (Admitted (s 1 0 0) .secure Reg.trnCtl 3 ∧ (s 1 0 0).flag Reg.trnCtl 0 = true ∧ (s 1 0 0).gateSent = false ∧
      (s 1 0 0).flag Reg.trnStatus 0 = false ∧ (s 1 1 0).flag Reg.trnStatus 0 = true ∧ (s 1 0 0).recs = [] ∧
      (s 1 0 0).colls = [] ∧ (∀ p, p < 16 → vetoLink (s 1 0 0) p = none) ∧
      ({ s 1 0 0 with gateSent := true } : State).gateSent = true) ∧ noWord (s 1 0 0) ∧
    (Admitted (s 1 2 1) .secure Reg.trnCtl 5 ∧ (s 1 0 0).flag Reg.trnStatus 1 = false ∧ (s 1 2 1).flag Reg.trnStatus 1 = true ∧
      (s 1 2 1).flag Reg.trnStatus 2 = false ∧ (s 1 3 1).flag Reg.trnStatus 0 = true ∧ (s 1 2 1).flag Reg.trnStatus 0 = false ∧
      (s 1 2 1).reg Reg.trnClean + 1 = (s 1 2 1).reg Reg.trnGrowth ∧ (s 1 2 0).reg Reg.trnClean + 1 ≠ (s 1 2 0).reg Reg.trnGrowth) ∧
    noWord (s 1 2 1) := by
  refine ⟨⟨admitted_of (by decide), by decide⟩, ⟨admitted_of (by decide), by decide⟩, fun key h => ?_,
    ⟨admitted_of (by decide), by decide⟩, fun key h => ?_⟩
  · exact absurd h (by rw [show place _ _ = .hbm 0 from by decide]; exact Place.noConfusion)
  · exact absurd h (by rw [show place _ _ = .hbm 0 from by decide]; exact Place.noConfusion)

/-- An empty queue before and in bring-up, broadcasts at a Beat that ends in ten zeros and at one that does not, a compute
die 31 and a store die 32, every limit of time at its Beat and one before it, latches that are due and not due, samples, a
full die buffer less one, and groups of a count of 0 and 1. -/
theorem witness_BeatAndTrace :
    let r0 := State.reset
    let up (l : List (Nat × W32)) (b : W64) : State := { withRegs l with beat := b }
    let rel (l : List (Nat × W64)) (b : W64) : State := { r0 with reloading := l, beat := b }
    let sync (b : W64) : State := up [(Reg.beatSyncInterval, 1), (Reg.beatCtl, 8)] b
    let latch (b : W64) : State := { r0 with bt := { r0.bt with latch := some 1000 }, beat := b }
    let tr (k : Stream) (b : W64) : State :=
      { up [(Reg.nqCtl 3, 1), (Reg.trcCtl 7, 0x30001), (Reg.trcSrc 7, 0x10000000), (Reg.trcSample 7, 0x10001)] b with
        streams := [(7, k)]
        nqs := [(3, { depth := 4 })] }
    let takes (s : State) : Prop := streamTakes s 7 0x84 none = true ∧ s.fld (Reg.trcSample 7) 31 16 ≠ 0
    let x : TraceRec := { die := 63, type := 0x84, source := 0, beat := some 7, body := 0 }
    let grp (n : Nat) (b : W64) : State :=
      { r0 with rrGroups := [(8 * 15 + 7, { count := n, first := 0 })], beat := b }
    (r0.pending = [] ∧ bootState r0 = 0 ∧ bootState (withRegs [(Reg.glbState, 1)]) ≠ 0 ∧ r0.links = [] ∧ r0.cores = [] ∧
      r0.rrQueue = []) ∧
    (r0.beat.toNat % 1024 = 0 ∧ (up [] 1023).beat.toNat % 1024 ≠ 0 ∧ r0.drift = [] ∧ 63 ≠ ctrlDie r0 ∧ dieReloads r0 63 = false ∧
      ({ r0 with drift := [(63, 1)] } : State).drift = [(63, 1)]) ∧
    (dieReloads (rel [(32, 0)] 0) 32 = true ∧ dieReloads (rel [(32, 0)] 0) 31 = false) ∧
    (4000 ≤ ((rel [(63, 0)] 4000).beat - 0).toNat ∧ (rel [(63, 0)] 4000).fld Reg.runJob 15 0 = 0 ∧
      ((rel [(63, 0)] 3999).beat - 0).toNat < 4000) ∧
    ((sync 1000).flag Reg.beatCtl 3 = true ∧ (sync 1000).flag Reg.beatCtl 4 = false ∧ (sync 1000).flag Reg.beatStatus 2 = false ∧
      1000 * (sync 1000).fld Reg.beatSyncInterval 15 0 ≤ ((sync 1000).beat - (sync 1000).bt.lastSent).toNat ∧
      ¬ 1000 * (sync 999).fld Reg.beatSyncInterval 15 0 ≤ ((sync 999).beat - (sync 999).bt.lastSent).toNat) ∧
    Admitted r0 .secure Reg.beatSsSendHi 5 ∧ Admitted r0 .secure Reg.cntLatchHi 0 ∧
    (let target (s : State) : W64 := BitVec.ofNat 64 ((s.reg Reg.cntLatchLo).toNat + (0#32).toNat * 2 ^ 32)
     r0.beat.toNat ≤ (target r0).toNat ∧ (target (up [] 1)).toNat < (up [] 1).beat.toNat ∧
       Admitted (up [] 1) .secure Reg.cntLatchHi 0) ∧
    ((latch 1000).bt.latch = some 1000 ∧ (1000#64).toNat ≤ (latch 1000).beat.toNat ∧ (latch 999).bt.latch = some 1000 ∧
      (latch 999).beat.toNat < (1000#64).toNat) ∧
    (takes (tr {} 1000) ∧
      1000 * (tr {} 1000).fld (Reg.trcSample 7) 31 16 ≤ ((tr {} 1000).beat - ((tr {} 1000).stream 7).lastSample).toNat ∧
      (let s := tr { buf := List.replicate 15 { x with die := counterDie (tr {} 1000) 1 } } 1000
       takes s ∧ ((s.stream 7).buf.filter fun r => r.die == counterDie s (s.fld (Reg.trcSample 7) 10 0)).length = 15) ∧
      ¬ 1000 * (tr {} 999).fld (Reg.trcSample 7) 31 16 ≤ ((tr {} 999).beat - ((tr {} 999).stream 7).lastSample).toNat) ∧
    (let s := tr { buf := [x] } 0
     (s.stream 7).buf = x :: [] ∧ x.die = 63 ∧ (s.stream 7).lastAcc = none ∧ s.flag (Reg.trcCtl 7) 0 = true ∧
       s.flag (Reg.trcCtl 7) 1 = false ∧ dieReloads s 63 = false ∧ nqEnabled s (s.fld (Reg.trcCtl 7) 21 16) = true ∧
       x.beat ≠ none ∧ cruHolds s = false ∧ nqInWindow s (s.fld (Reg.trcCtl 7) 21 16) = false ∧
       (s.nq (s.fld (Reg.trcCtl 7) 21 16)).entries.length < nqRoom s (s.fld (Reg.trcCtl 7) 21 16)) ∧
    (let g (s : State) := Tab.get {} s.rrGroups (8 * 15 + 7 % 8)
     (g (grp 1 4096)).count ≠ 0 ∧ 4096 ≤ ((grp 1 4096).beat - (g (grp 1 4096)).first).toNat ∧ recording (grp 1 4096) = false ∧
       (g r0).count = 0) := by
  refine ⟨by decide, by decide, by decide, by decide, by decide, admitted_of (by decide), admitted_of (by decide),
    ⟨by decide, by decide, admitted_of (by decide)⟩, by decide, by decide, by decide, by decide⟩

/-- `n` zero bytes. -/
def zs (n : Nat) : List Byte := List.replicate n 0
/-- A signed document of a header of 8 bytes with KEY_ID bytes as given (Table 12.12, Table 13.5), the rest zero. -/
def doc (hd k : List Byte) : List Byte := hd ++ (zs 16 ++ (zs 32 ++ (k ++ (zs 8 ++ zs 7856))))
/-- A debug token. -/
def token (kind : Byte) (k : List Byte) : List Byte := doc [1, 0, kind, 0, 15, 0, 0, 0] k
/-- Two tokens with a debug key of zeros. -/
def tokens (k : List Byte) : List Byte := token 1 k ++ (token 2 k ++ zs 32)

theorem cut_mid {a b c : List Byte} {n m : Nat} (ha : a.length = n) (hb : b.length = m) : cut (a ++ (b ++ c)) n m = b := by
  subst ha hb
  simp only [cut, List.drop_left, List.take_left]

theorem doc_length {hd k : List Byte} (h8 : hd.length = 8) (h : k.length = 32) : (doc hd k).length = certLen := by
  simp only [doc, zs, List.length_append, List.length_replicate, h, h8, certLen]

theorem token_length {b : Byte} {k : List Byte} (h : k.length = 32) : (token b k).length = certLen := doc_length rfl h

theorem tokens_length {k : List Byte} (h : k.length = 32) : (tokens k).length = 15936 := by
  simp only [tokens, List.length_append, token_length h, zs, List.length_replicate, certLen]

/-- The fields of a signed document after its header. -/
theorem doc_parts {hd k : List Byte} (h8 : hd.length = 8) (h : k.length = 32) :
    cut (doc hd k) 8 16 = zs 16 ∧ cut (doc hd k) 24 32 = zs 32 ∧ cut (doc hd k) 56 32 = k ∧ cut (doc hd k) 88 8 = zs 8 := by
  refine ⟨cut_mid h8 rfl, ?_, ?_, ?_⟩
  · rw [doc, ← List.append_assoc]
    exact cut_mid (by rw [List.length_append, h8]; rfl) rfl
  · rw [doc, ← List.append_assoc, ← List.append_assoc]
    exact cut_mid (by rw [List.length_append, List.length_append, h8]; rfl) h
  · rw [doc, ← List.append_assoc, ← List.append_assoc, ← List.append_assoc]
    exact cut_mid (by rw [List.length_append, List.length_append, List.length_append, h8, h]; rfl) rfl

/-- What the unlock reads of a token. -/
theorem token_parts {b : Byte} {k : List Byte} (h : k.length = 32) :
    tokenOk (token b k) b.toNat = true ∧ numAt (token b k) 8 16 = 0 ∧ cut (token b k) 24 32 = zs 32 ∧
      cut (token b k) 56 32 = k := by
  obtain ⟨h0, h1, h2, h3⟩ := doc_parts (hd := [1, 0, b, 0, 15, 0, 0, 0]) rfl h
  refine ⟨?_, (congrArg ofBytes h0).trans (by decide), h1, h2⟩
  simp only [tokenOk, zeroAt, token, h3]
  simp only [doc, numAt, cut, List.cons_append, List.nil_append, List.drop_succ_cons, List.drop_zero, List.take_succ_cons,
    List.take_zero]
  clear h0 h1 h2 h3
  revert b
  decide

/-- A Provisioned device under a challenge of zeros refuses the tokens with BAD_KEY where the certificate has another role. -/
theorem unlock_bad_key : unlockCheck { withRegs [(Reg.glbState, 0x200)] with
      boot := { State.reset.boot with resetN := true }
      dbg := { State.reset.dbg with challenge := some (zs 32) } } (tokens (zs 32) ++ ([1] ++ zs 7951)) = 4 := by
  decide +kernel

/-- Recording from OFF and into the region's last unit, a replay that may begin and one that may not, records before, at
and after their Beats and one Beat around the divergence, the port's instructions with the boundary open and closed, core 255
running in an open part, and an unlock that ends with BAD_KEY. -/
theorem witness_RecordReplayAndPort :
    let r0 := State.reset
    let s (l : List (Nat × W32)) : State := { withRegs ((Reg.rrSize, 1) :: l) with mem := [(0, 7)] }
    let ok := s [(Reg.rrEnd, 1)]
    let rep (l : List (Nat × W32)) (b : W64) : State :=
      { s ([(Reg.rrCtl, 2), (Reg.rrStatus, 2), (Reg.beatStatus, 4), (Reg.rrEnd, 1)] ++ l) with beat := b }
    let next (s : State) := s.replay.next
    let runs (s : State) : Prop := replaying s = true ∧ s.fld Reg.rrStatus 3 0 = 2
    let log : State := s [(Reg.rrCtl, 1), (Reg.rrStatus, 1), (Reg.rrPos, 65535)]
    let owned : State := { withRegs [(Reg.glbState, 0x300)] with boot := { r0.boot with resetN := true } }
    let tried : State := { withRegs [(Reg.glbState, 0x200)] with
      boot := { r0.boot with resetN := true }
      dbg := { r0.dbg with challenge := some (zs 32) } }
    (Admitted ok .secure Reg.rrCtl 0x11 ∧ Admitted ok .secure Reg.rrCtl 0x01 ∧ Admitted ok .secure Reg.rrCtl 2 ∧
      Admitted r0 .secure Reg.rrCtl 2 ∧ ok.fld Reg.rrCtl 1 0 = 0 ∧ ok.rrLost = [] ∧ ok.rrGroups = [] ∧
      replayOk ok = true ∧ r0.fld Reg.rrCtl 1 0 = 0 ∧ replayOk r0 = false) ∧
    (Admitted (rep [] 0) .secure Reg.rrCtl 0 ∧ (rep [] 0).fld Reg.rrCtl 1 0 = 2 ∧
      Admitted ok .secure Reg.rrCtl (ok.reg Reg.rrCtl ||| 0x20) ∧ Admitted log .secure Reg.rrCtl (log.reg Reg.rrCtl ||| 0x20) ∧
      recording log = true ∧ log.rrGroups = [] ∧ log.rrLost = []) ∧
    (let e : State := { rep [] 0 with replay := { r0.replay with next := 1 } }
     runs e ∧ replayEnded e = true) ∧
    (let e := rep [] 0
     runs e ∧ replayEnded e = false ∧ (recBeat e (next e)).toNat = e.beat.toNat ∧ recField e (next e) 0 1 = 7 ∧
       replaying r0 = false) ∧
    (let e : State := { rep [] 8 with mem := [(0, 7), (8, 9)] }
     runs e ∧ replayEnded e = false ∧ e.beat.toNat + 1 = (recBeat e (next e)).toNat) ∧
    (runs (rep [] 1000001) ∧ replayEnded (rep [] 1000001) = false ∧ (recBeat (rep [] 1000001) (next (rep [] 1000001))).toNat + 1000000 + 1 = (rep [] 1000001).beat.toNat ∧
      (rep [] 1000000).beat.toNat = (recBeat (rep [] 1000000) (next (rep [] 1000000))).toNat + 1000000) ∧
    (boundaryOpen r0 = true ∧ boundaryOpen owned = false ∧ debugScope owned (dbgScope (.halt 255)) = false) ∧
    (let e : State := { withRegs [(Reg.glbCoreMap 7, 0x80000000)] with cores := [(255, run0)] }
     debugScope e 0 = true ∧ e.dbg.halted = [] ∧ coreReach e 255 = true) ∧
    (asyIn owned [2, 3] = true ∧ owned.dbg.fails < 3 ∧ owned.assay.entropyOk = true) ∧
    (asyIn tried [2, 3] = true ∧
      (tokens (zs 32) ++ ([1] ++ zs 7951)).length = 2 * 7952 + 32 + (if lifecycle tried = 2 then 7952 else 0) ∧
      unlockCheck tried (tokens (zs 32) ++ ([1] ++ zs 7951)) = 4) := by
  refine ⟨⟨admitted_of (by decide), admitted_of (by decide), admitted_of (by decide), admitted_of (by decide), by decide,
    by decide, by decide, by decide, by decide, by decide⟩, ⟨admitted_of (by decide), by decide, admitted_of (by decide),
    admitted_of (by decide), by decide, by decide, by decide⟩, by decide, by decide, by decide, by decide, by decide, by decide,
    by decide, by decide, ?_, ?_⟩
  · have h : (tokens (zs 32)).length = 15936 := tokens_length rfl
    rw [List.length_append, h, List.length_append, zs, List.length_replicate]
    decide
  · exact unlock_bad_key

/-- The debug key of zeros with its digest, where the two signatures verify: an unlock that succeeds. -/
theorem witness_unlock :
    let key : W256 := keyOf (zs 32)
    let k := sha256 (zs 32)
    let l := tokens k
    let s : State := { withRegs [(Reg.glbState, 0x300)] with
      dbg := { State.reset.dbg with challenge := some (zs 32) }
      assay := { State.reset.assay with storageA := { debugDigest := some (keyOf k) } } }
    verifies key (cut (token 1 k) 0 96) (cut (token 1 k) 96 7856) = true →
    verifies key (cut (token 2 k) 0 96) (cut (token 2 k) 96 7856) = true →
    asyIn s [2, 3] = true ∧ l.length = 2 * 7952 + 32 + (if lifecycle s = 2 then 7952 else 0) ∧ unlockCheck s l = 0 := by
  intro key k l s h1 h2
  have hk : (sha256 (zs 32)).length = 32 := by decide +kernel
  have a2 : lifecycle s = 3 := by decide
  refine ⟨by decide, (tokens_length hk).trans (by rw [a2]; rfl), ?_⟩
  have a1 : (storage s).owner.getD 0 = key := by decide
  have a4 : (serialOf s).toNat = 0 := by decide
  have a5 : (storage s).debugDigest = some (keyOf k) := rfl
  have a6 : s.dbg.challenge = some (zs 32) := rfl
  have a7 : keyBytes key = zs 32 := by decide
  have a8 : k = sha256 (zs 32) := rfl
  have t1 := token_parts (b := 1) hk
  have t2 := token_parts (b := 2) hk
  have e1 : cut l 0 certLen = token 1 k := cut_mid (a := []) rfl (token_length hk)
  have e2 : cut l certLen certLen = token 2 k := cut_mid (token_length hk) (token_length hk)
  have e3 : cut l (2 * certLen) 32 = zs 32 := by
    have : l = (token 1 k ++ token 2 k) ++ (zs 32 ++ []) := by simp only [l, tokens, List.append_assoc, List.append_nil]
    rw [this]
    exact cut_mid (by rw [List.length_append, token_length hk, token_length hk]; rfl) rfl
  rw [← a8] at t1 t2
  obtain ⟨b1, b2, b3, b4⟩ := t1
  obtain ⟨c1, c2, c3, c4⟩ := t2
  have b1 : tokenOk (token 1 k) 1 = true := b1
  have c1 : tokenOk (token 2 k) 2 = true := c1
  clear_value s k
  unfold unlockCheck
  simp only [a1, a2, a4, a5, a6, a7, ← a8, e1, e2, e3, b1, b2, b3, b4, c1, c2, c3, c4, if_true, h1, h2]
  simp [rOk]
  exact fun h => Bool.noConfusion (h2.symm.trans h)

/-! ### An input of Assay -/

/-- The 32-bit words of a byte list. -/
def words : List Byte → List W32
  | a :: b :: c :: d :: t => BitVec.ofNat 32 (ofBytes [a, b, c, d]) :: words t
  | _ => []

/-- The words of ASY_IN from the `i`th on. -/
def inWords : Nat → List W32 → List (Nat × W32)
  | _, [] => []
  | i, w :: t => (Reg.asyIn i, w) :: inWords (i + 1) t

/-- The part with a value of GLB_STATE, an input of Assay, a state of Assay and a manifest. -/
def asy (g : Nat) (l : List Byte) (a : Assay) (m : Option Manifest := none) : State :=
  { withRegs ((Reg.glbState, BitVec.ofNat 32 g) :: (Reg.asyInLen, BitVec.ofNat 32 l.length) :: inWords 0 (words l)) with
    assay := a
    manifest := m }

/-- The last offset of a register's instances. -/
def spanOf : List (Nat × Nat) → Nat
  | [] => 0
  | (st, n) :: t => st * (n - 1) + spanOf t

theorem go_le : ∀ (l : List (Nat × Nat)) (o : Nat), RegDesc.covers.go l o = true → o ≤ spanOf l := by
  intro l
  induction l with
  | nil =>
    intro o h
    simp only [RegDesc.covers.go, beq_iff_eq] at h
    simp only [h, spanOf, Nat.le_refl]
  | cons a t ih =>
    intro o h
    simp only [RegDesc.covers.go, Bool.and_eq_true, decide_eq_true_eq] at h
    have h2 := ih _ h.2
    have h3 := Nat.div_add_mod o a.1
    have h4 : a.1 * (o / a.1) ≤ a.1 * (a.2 - 1) := Nat.mul_le_mul_left _ (by omega)
    simp only [spanOf]
    omega

theorem reset_apart : (regTable.all fun d =>
    d.reset == 0 || decide (d.base + spanOf d.dims < Reg.asyIn 0) || decide (Reg.asyIn 16384 ≤ d.base)) = true := by decide

/-- ASY_IN is 0 after reset. -/
theorem regReset_asyIn (i : Nat) (hi : i < 16384) : regReset (Reg.asyIn i) = 0 := by
  unfold regReset
  rw [if_neg (by simp only [Reg.rglPolicy, Reg.asyIn]; omega)]
  cases h : regAt (Reg.asyIn i) with
  | none => rfl
  | some d =>
    have hm := List.mem_of_find?_eq_some h
    have hc := List.find?_some h
    simp only [RegDesc.covers, Bool.and_eq_true, decide_eq_true_eq] at hc
    have hg := go_le _ _ hc.2
    have ha := List.all_eq_true.mp reset_apart d hm
    rw [Bool.or_eq_true, Bool.or_eq_true, beq_iff_eq, decide_eq_true_eq, decide_eq_true_eq] at ha
    simp only [Reg.asyIn] at hc hg ha
    have : d.reset = 0 := by omega
    simp only [this]
    rfl

theorem inWords_get : ∀ (l : List W32) (i j : Nat), i ≤ j → Tab.get 0 (inWords i l) (Reg.asyIn j) = l.getD (j - i) 0 := by
  intro l
  induction l with
  | nil => intros; rfl
  | cons w t ih =>
    intro i j h
    by_cases e : i = j
    · subst e
      simp [inWords, Tab.get, Tab.find?]
    · have := ih (i + 1) j (by omega)
      have h4 : ¬ Reg.asyIn i = Reg.asyIn j := by simp only [Reg.asyIn]; omega
      simp only [inWords, Tab.get, Tab.find?, if_neg h4] at this ⊢
      rw [this, show j - i = (j - (i + 1)) + 1 from by omega]
      rfl

theorem asy_reg {g : Nat} {a : Assay} {m : Option Manifest} {l : List Byte} {i : Nat} (h : i < 16384) :
    (asy g l a m).reg (Reg.asyIn i) = (words l).getD i 0 := by
  simp only [asy, withRegs, State.reg, regReset_asyIn i h]
  have h1 : ¬ Reg.glbState = Reg.asyIn i := by simp only [Reg.asyIn, Reg.glbState]; omega
  have h2 : ¬ Reg.asyInLen = Reg.asyIn i := by simp only [Reg.asyIn, Reg.asyInLen]; omega
  have := inWords_get (words l) 0 i (by omega)
  simp only [Tab.get, Tab.find?, if_neg h1, if_neg h2] at this ⊢
  exact this

theorem toBytes_word (a b c d : Byte) : toBytes 4 (BitVec.ofNat 32 (ofBytes [a, b, c, d])).toNat = [a, b, c, d] := by
  have h : (BitVec.ofNat 32 (ofBytes [a, b, c, d])).toNat = ofBytes [a, b, c, d] := by
    simp only [ofBytes, BitVec.toNat_ofNat]
    omega
  rw [h]
  simp only [toBytes, ofBytes, List.cons.injEq, and_true]
  refine ⟨?_, ?_, ?_, ?_⟩ <;> apply BitVec.eq_of_toNat_eq <;> simp only [BitVec.toNat_ofNat] <;> omega

theorem words_bytes : ∀ (n : Nat) (l : List Byte), l.length = 4 * n →
    (upFrom 0 n).flatMap (fun i => toBytes 4 ((words l).getD i 0).toNat) = l := by
  have shift (f : Nat → List Byte) : ∀ m k, (upFrom (k + 1) m).flatMap f = (upFrom k m).flatMap fun i => f (i + 1) := by
    intro m
    induction m with
    | zero => intros; rfl
    | succ m ih => intro k; simp only [upFrom, List.flatMap_cons, ih]
  intro n
  induction n with
  | zero => intro l h; cases l <;> first | rfl | (simp at h)
  | succ n ih =>
    intro l h
    match l, h with
    | a :: b :: c :: d :: t, h =>
      have ht : t.length = 4 * n := by simp only [List.length_cons] at h; omega
      have := ih t ht
      simp only [upFrom, List.flatMap_cons, shift, words, List.getD_cons_zero, List.getD_cons_succ, toBytes_word, this]
      rfl
    | [a, b, c], h => simp only [List.length_cons, List.length_nil] at h; omega
    | [a, b], h => simp only [List.length_cons, List.length_nil] at h; omega
    | [a], h => simp only [List.length_cons, List.length_nil] at h; omega
    | [], h => simp only [List.length_nil] at h; omega

/-- The state after a write of ASY_CMD has been taken. -/
def busy (s : State) : State := { (s.setFlag Reg.asyStatus 0).setReg Reg.asyOutLen 0 with assay := { s.assay with out := [] } }

/-- What changes nothing of the input registers. -/
theorem asyInput_busy (s : State) : asyInput (busy s) = asyInput s := by
  have h (i : Nat) : (busy s).reg (Reg.asyIn i) = s.reg (Reg.asyIn i) := by
    have := reg_setReg_ne (s.setFlag Reg.asyStatus 0) (o := Reg.asyOutLen) (p := Reg.asyIn i) 0 (by simp only [Reg.asyIn, Reg.asyOutLen]; omega)
    exact this.trans (reg_setFlag_ne s 0 (by simp only [Reg.asyIn, Reg.asyStatus]; omega))
  have h2 : (busy s).fld Reg.asyInLen 16 0 = s.fld Reg.asyInLen 16 0 :=
    (fld_setReg_ne (s.setFlag Reg.asyStatus 0) (o := Reg.asyOutLen) 0 16 0 (by decide)).trans (fld_setFlag_ne s 0 16 0 (by decide))
  simp only [asyInput, h, h2]

theorem upFrom_flatMap {f g : Nat → List Byte} : ∀ {m k : Nat}, (∀ i, k ≤ i → i < k + m → f i = g i) →
    (upFrom k m).flatMap f = (upFrom k m).flatMap g := by
  intro m
  induction m with
  | zero => intros; rfl
  | succ m ih =>
    intro k h
    simp only [upFrom, List.flatMap_cons]
    rw [h k (by omega) (by omega), ih fun i h1 h2 => h i (by omega) (by omega)]

theorem asyInput_asy {g n : Nat} {a : Assay} {m : Option Manifest} {l : List Byte} (h : l.length = 4 * n) (hn : n < 16384) :
    asyInput (busy (asy g l a m)) = l := by
  rw [asyInput_busy]
  have hf : (asy g l a m).fld Reg.asyInLen 16 0 = 4 * n := by
    rw [asy, h]
    simp only [withRegs, State.fld, State.reg, Tab.get, Tab.find?]
    simp [Reg.glbState, Reg.asyInLen, bits]
    omega
  unfold asyInput
  simp only [hf, show (4 * n + 3) / 4 = n from by omega]
  have e : (upFrom 0 n).flatMap (fun i => toBytes 4 ((asy g l a m).reg (Reg.asyIn i)).toNat)
      = (upFrom 0 n).flatMap (fun i => toBytes 4 ((words l).getD i 0).toNat) := by
    refine upFrom_flatMap (fun i _ hi => ?_)
    rw [asy_reg (by omega)]
  rw [e, words_bytes n l h, ← h, List.take_length]

theorem inWords_find : ∀ (l : List W32) (i : Nat) {o : Nat}, o < Reg.asyIn 0 → Tab.find? (inWords i l) o = none := by
  intro l
  induction l with
  | nil => intros; rfl
  | cons w t ih =>
    intro i o h
    simp only [inWords, Tab.find?]
    rw [if_neg (by simp only [Reg.asyIn] at h ⊢; omega), ih _ h]

theorem asy_status {g : Nat} {a : Assay} {m : Option Manifest} {l : List Byte} : (asy g l a m).reg Reg.asyStatus = 0 := by
  simp only [asy, withRegs, State.reg, Tab.get, Tab.find?, Reg.asyStatus, Reg.glbState, Reg.asyInLen]
  simp [inWords_find (words l) 0 (show 0x0E00000 < Reg.asyIn 0 by decide)]
  decide

theorem asy_glb {g : Nat} {a : Assay} {m : Option Manifest} {l : List Byte} : (asy g l a m).reg Reg.glbState = BitVec.ofNat 32 g := rfl

theorem asy_starts {g : Nat} {a : Assay} {m : Option Manifest} {l : List Byte} (v : W32) : Admitted (asy g l a m) .secure Reg.asyCmd v := by
  have h : (asy g l a m).flag Reg.asyStatus 0 = false := by simp only [State.flag, asy_status]; decide
  have hb : blockBusy (asy g l a m) Reg.asyCmd = false := by
    simp only [blockBusy, show blockOf Reg.asyCmd = 0xE00000 from by decide, h]
    rfl
  obtain ⟨d, hd⟩ := Option.isSome_iff_exists.mp (show (regAt Reg.asyCmd).isSome = true by decide)
  have hr : d.cls.rank ≤ 1 := by
    have : (regAt Reg.asyCmd).any (fun d => decide (d.cls.rank ≤ 1)) = true := by decide
    rw [hd] at this
    exact of_decide_eq_true this
  refine ⟨nofun, by decide, ⟨d, ?_, ?_, fun _ => hb⟩, rfl, ?_⟩
  · unfold regPresent
    rw [hd]
    exact if_neg (by simp [Reg.asyCmd])
  · simp only [admits, classOf, Bool.and_eq_true, decide_eq_true_eq]
    have : d.cls.rank ≤ 2 := by omega
    exact ⟨decide_eq_true this, rfl⟩
  · simp only [sealDenies, isHostSide, Bool.false_or]
    simp [Reg.asyCmd, Reg.rrCtl]

/-- Life-cycle, pending transition and seal of the part as an operation finds it. -/
theorem asy_place {g : Nat} {a : Assay} {m : Option Manifest} {l : List Byte} (h : g < 2 ^ 32) :
    lifecycle (busy (asy g l a m)) = bits g 10 8 ∧ lcPending (busy (asy g l a m)) = false ∧ (busy (asy g l a m)).sealed = bit g 12 := by
  have e (hi lo : Nat) : (busy (asy g l a m)).fld Reg.glbState hi lo = (asy g l a m).fld Reg.glbState hi lo :=
    (fld_setReg_ne _ (o := Reg.asyOutLen) 0 hi lo (by decide)).trans (fld_setFlag_ne _ 0 hi lo (by decide))
  have e2 : (busy (asy g l a m)).flag Reg.glbState 12 = (asy g l a m).flag Reg.glbState 12 :=
    (flag_setReg_ne _ (o := Reg.asyOutLen) 0 12 (by decide)).trans (flag_setFlag_ne _ 0 12 (by decide))
  have e3 : (busy (asy g l a m)).flag Reg.asyStatus 2 = (asy g l a m).flag Reg.asyStatus 2 :=
    (flag_setReg_ne _ (o := Reg.asyOutLen) 0 2 (by decide)).trans (flag_setFlag_bit _ _ 0 2 (by decide) (by decide))
  have hv : (BitVec.ofNat 32 g).toNat = g := by rw [BitVec.toNat_ofNat, Nat.mod_eq_of_lt h]
  refine ⟨?_, ?_, ?_⟩
  · rw [lifecycle, e, State.fld, asy_glb, hv]
  · rw [lcPending, e3, State.flag, asy_status]
    decide
  · rw [State.sealed, e2, State.flag, asy_glb, hv]

theorem asy_in {g : Nat} {a : Assay} {m : Option Manifest} {l : List Byte} {c : List Nat} (h : g < 2 ^ 32) (hc : c.contains (bits g 10 8) = true) :
    asyIn (busy (asy g l a m)) c = true := by
  obtain ⟨h1, h2, _⟩ := asy_place (a := a) (m := m) (l := l) h
  rw [asyIn, h1, h2, hc]
  rfl

theorem asy_out {g : Nat} {a : Assay} {m : Option Manifest} {l : List Byte} {c : List Nat} (h : g < 2 ^ 32) (hc : c.contains (bits g 10 8) = false) :
    asyIn (busy (asy g l a m)) c = false := by
  rw [asyIn, (asy_place (a := a) (m := m) (l := l) h).1, hc]
  rfl

/-! ### Statements and seals -/

theorem round_length {h : List W32} (k : W32) (e : h.length = 8) : (Sha256.round h k).length = 8 := by
  match h, e with
  | [_, _, _, _, _, _, _, _], _ => rfl

theorem rounds_length : ∀ (k h : List W32), h.length = 8 → (k.foldl Sha256.round h).length = 8 := by
  intro k
  induction k with
  | nil => intro h e; exact e
  | cons a t ih => intro h e; exact ih _ (round_length a e)

theorem block_length {h : List W32} {l : List Byte} (e : h.length = 8) : (Sha256.block h l).length = 8 := by
  simp only [Sha256.block, List.length_map, List.length_zip, e, rounds_length _ h e]
  decide

theorem blocks_length : ∀ (n : Nat) (h : List W32) (l : List Byte), h.length = 8 → (Sha256.blocks n h l).length = 8 := by
  intro n
  induction n with
  | zero => intro h l e; exact e
  | succ n ih => intro h l e; exact ih _ _ (block_length e)

/-- A digest has 32 bytes. -/
theorem sha256_length (l : List Byte) : (sha256 l).length = 32 := by
  have : ∀ w : List W32, (w.flatMap fun x => (toBytes 4 x.toNat).reverse).length = 4 * w.length := by
    intro w
    induction w with
    | nil => rfl
    | cons a t ih => simp only [List.flatMap_cons, List.length_append, List.length_reverse, toBytes_length, ih, List.length_cons]; omega
  rw [sha256, this, blocks_length _ _ _ rfl]

/-- A statement of a signer for an action, everything else zero. -/
def stmt (signer act arg : Byte) : List Byte := [1, 0, signer, act, arg, 0, 0, 0] ++ zs 7976
/-- A VENDOR_LC certificate that the root key of zeros has issued for the key of zeros. -/
def cert : List Byte := doc [1, 0, 2, 1, 0, 0, 0, 0] (sha256 (zs 32))

theorem stmt_length (a b c : Byte) : (stmt a b c).length = statementLen := by
  simp only [stmt, zs, List.length_append, List.length_replicate, List.length_cons, List.length_nil, statementLen]

/-- An owner's statement that bears its signature is carried out in the life-cycle state Owned. -/
theorem owner_stated {a : Assay} {act arg : Byte} {key : W256} {x : Storage}
    (ha : actionIn act.toNat 3 = true) (h1 : statementOk (stmt 1 act arg) = true) (h2 : numAt (stmt 1 act arg) 3 1 = act.toNat)
    (hc : a.challenge = some (zs 32)) (hx : storage (busy (asy 0x300 (stmt 1 act arg) a)) = x) (hs : x.serial = none)
    (hk : x.owner.getD 0 = key)
    (hsig : verifies key (cut (stmt 1 act arg) 0 128) (cut (stmt 1 act arg) 128 7856) = true)
    (hact : actionCheck (busy (asy 0x300 (stmt 1 act arg) a)) (stmt 1 act arg) = 0) :
    let b := busy (asy 0x300 (stmt 1 act arg) a)
    Admitted (asy 0x300 (stmt 1 act arg) a) .secure Reg.asyCmd 3 ∧ asyIn b [1, 2, 3] = true ∧ asyInput b = stmt 1 act arg ∧
      numAt (stmt 1 act arg) 3 1 = act.toNat ∧ statementBars b (stmt 1 act arg) 0 = 0 ∧ statementVerify b (stmt 1 act arg) = 0 := by
  intro b
  have hl : lifecycle b = 3 := (asy_place (by decide)).1
  have hq : ∀ u v, numAt (stmt 1 u v) 2 1 = 1 ∧ numAt (stmt 1 u v) 8 16 = 0 ∧ cut (stmt 1 u v) 24 32 = zs 32 := by
    intro u v
    refine ⟨rfl, rfl, ?_⟩
    rw [stmt, show zs 7976 = zs 16 ++ (zs 32 ++ zs 7928) from by simp only [zs, List.replicate_append_replicate], ← List.append_assoc]
    exact cut_mid rfl rfl
  obtain ⟨h3, h4, h5⟩ := hq act arg
  refine ⟨asy_starts 3, asy_in (by decide) (by decide), asyInput_asy (n := 1996) (stmt_length _ _ _) (by decide), h2, ?_, ?_⟩
  · unfold statementBars
    simp only [h3, stmt_length, h1, h2, hl, ha]
    decide
  · have hch : b.assay.challenge = some (zs 32) := hc
    have hser : (serialOf b).toNat = 0 := by rw [serialOf, hx, hs]; rfl
    have hx : storage b = x := hx
    have hact : actionCheck b (stmt 1 act arg) = 0 := hact
    unfold statementVerify
    simp only [hch, h3, h4, h5, hser, hx, hk, hact]
    simp
    exact fun h => Bool.noConfusion (hsig.symm.trans h)

/-- A vendor's statement that its certificate and its signature bear is carried out before the device has an owner. -/
theorem vendor_stated {a : Assay} {act arg : Byte} {g : Nat} {x : Storage}
    (hg : g < 2 ^ 32) (hl : bits g 10 8 = 1 ∨ bits g 10 8 = 2)
    (ha : actionIn act.toNat (bits g 10 8) = true) (h1 : statementOk (stmt 2 act arg ++ (cert ++ [])) = true)
    (h2 : numAt (stmt 2 act arg ++ (cert ++ [])) 3 1 = act.toNat) (hc : a.challenge = some (zs 32))
    (hx : storage (busy (asy g (stmt 2 act arg ++ (cert ++ [])) a)) = x) (hs : x.serial = none) (hr : x.rootKey.getD 0 = 0)
    (hcert : verifies 0 (cut cert 0 96) (cut cert 96 7856) = true)
    (hsig : verifies 0 (cut (stmt 2 act arg ++ (cert ++ [])) 0 128) (cut (stmt 2 act arg ++ (cert ++ [])) 128 7856) = true)
    (hact : actionCheck (busy (asy g (stmt 2 act arg ++ (cert ++ [])) a)) (stmt 2 act arg ++ (cert ++ [])) = 0) :
    let l := stmt 2 act arg ++ (cert ++ [])
    let b := busy (asy g l a)
    Admitted (asy g l a) .secure Reg.asyCmd 3 ∧ asyIn b [1, 2, 3] = true ∧ asyInput b = l ∧
      numAt l 3 1 = act.toNat ∧ statementBars b l 0 = 0 ∧ statementVerify b l = 0 := by
  intro l b
  have hlc : lifecycle b = bits g 10 8 := (asy_place hg).1
  have hk : (sha256 (zs 32)).length = 32 := sha256_length _
  have hlen : l.length = 15936 := by
    simp only [l, List.length_append, stmt_length, cert, doc_length (k := sha256 (zs 32)) (hd := [1, 0, 2, 1, 0, 0, 0, 0]) rfl hk, List.length_nil,
      statementLen, certLen]
  have h3 : numAt l 2 1 = 2 := rfl
  have h4 : numAt l 8 16 = 0 := rfl
  have h5 : cut l 24 32 = zs 32 := by
    have : l = ([1, 0, 2, act, arg, 0, 0, 0] ++ zs 16) ++ (zs 32 ++ (zs 7928 ++ (cert ++ []))) := by
      simp only [l, stmt]
      rw [show zs 7976 = zs 16 ++ (zs 32 ++ zs 7928) from by simp only [zs, List.replicate_append_replicate]]
      simp only [List.append_assoc]
    rw [this]
    exact cut_mid rfl rfl
  have h6 : cut l statementLen certLen = cert := cut_mid (stmt_length _ _ _) (doc_length rfl hk)
  obtain ⟨c1, c2, c3, c4⟩ := doc_parts (hd := [1, 0, 2, 1, 0, 0, 0, 0]) rfl hk
  have c5 : certKey cert = 0 := by
    rw [certKey, cert, c2]
    decide
  have c6 : certCheck x 2 cert = 0 := by
    have z : zeroAt cert 4 4 = true := rfl
    have z2 : zeroAt cert 88 8 = true := by rw [zeroAt, cert, c4]; decide
    have n1 : numAt cert 0 2 = 1 ∧ numAt cert 2 1 = 2 ∧ numAt cert 3 1 = 1 := ⟨rfl, rfl, rfl⟩
    have k0 : keyBytes 0 = zs 32 := by decide
    have c3 : cut cert 56 32 = sha256 (zs 32) := c3
    unfold certCheck
    simp only [n1, z, z2, c3, hr, k0, hcert]
    simp [rOk]
  refine ⟨asy_starts 3, asy_in hg ?_, asyInput_asy (n := 3984) hlen (by decide), h2, ?_, ?_⟩
  · rcases hl with h | h <;> rw [h] <;> rfl
  · unfold statementBars
    have hn : ¬ bits g 10 8 = 3 := by omega
    simp only [l, h1, h2, hlc, ha, show numAt (stmt 2 act arg ++ (cert ++ [])) 2 1 = 2 from h3, if_neg hn, show (stmt 2 act arg ++ (cert ++ [])).length = 15936 from hlen]
    decide
  · have hch : b.assay.challenge = some (zs 32) := hc
    have hser : (serialOf b).toNat = 0 := by rw [serialOf, hx, hs]; rfl
    have hx : storage b = x := hx
    have hact : actionCheck b l = 0 := hact
    unfold statementVerify
    simp only [hch, h3, h4, h5, h6, hser, hx, c5, c6, hact]
    simp [rOk]
    exact fun h => Bool.noConfusion (hsig.symm.trans h)

/-- Storage whose owner slots are all but the last in use, the sixth in force. -/
def nearlyFull : Storage :=
  { owners := List.replicate 6 { key := some 2, revoked := true } ++ [{ key := some 1 }, {}] }

/-- Transfer into the last owner slot, release, retirement and an SVN of 64, each under a signature that verifies. -/
theorem witness_OwnerStatements :
    let a : Assay := { storageA := nearlyFull, storageB := nearlyFull, challenge := some (zs 32), fwHead := [0, 0, 64, 0] }
    let stated (act arg : Byte) : Prop :=
      let l := stmt 1 act arg
      let b := busy (asy 0x300 l a)
      Admitted (asy 0x300 l a) .secure Reg.asyCmd 3 ∧ asyIn b [1, 2, 3] = true ∧ asyInput b = l ∧
        numAt l 3 1 = act.toNat ∧ statementBars b l 0 = 0 ∧ statementVerify b l = 0 ∧ 2 * (programSteps (storage b) l 0).length ≤ 1024
    (∀ act arg, verifies 1 (cut (stmt 1 act arg) 0 128) (cut (stmt 1 act arg) 128 7856) = true) →
      stated 3 0 ∧ stated 4 0 ∧ stated 5 0 ∧ stated 7 64 ∧ a.storageA = a.storageB ∧ a.storageA.owners.length = 8 ∧
       
        freeSlot a.storageA = 7 := by
  intro a stated h
  have go (act arg : Byte) (h1 : actionIn act.toNat 3 = true) (h2 : statementOk (stmt 1 act arg) = true)
      (h3 : numAt (stmt 1 act arg) 3 1 = act.toNat) (h4 : actionCheck (busy (asy 0x300 (stmt 1 act arg) a)) (stmt 1 act arg) = 0)
      (h5 : 2 * (programSteps nearlyFull (stmt 1 act arg) 0).length ≤ 1024) : stated act arg := by
    obtain ⟨b1, b2, b3, b4, b5, b6⟩ := owner_stated (a := a) (act := act) (arg := arg) (x := nearlyFull) (key := 1) h1 h2 h3 rfl rfl rfl
      (by decide) (h act arg) h4
    exact ⟨b1, b2, b3, b4, b5, b6, h5⟩
  exact ⟨go 3 0 (by decide) (by decide +kernel) (by decide +kernel) (by decide +kernel) (by decide +kernel),
    go 4 0 (by decide) (by decide +kernel) (by decide +kernel) (by decide +kernel) (by decide +kernel),
    go 5 0 (by decide) (by decide +kernel) (by decide +kernel) (by decide +kernel) (by decide +kernel),
    go 7 64 (by decide) (by decide +kernel) (by decide +kernel) (by decide +kernel) (by decide +kernel), rfl, by decide, by decide⟩

/-- Provisioning a Test device and enrolling an owner into the first slot, under the vendor's signatures. -/
theorem witness_VendorStatements :
    let a : Assay := { challenge := some (zs 32) }
    let stated (g : Nat) (act : Byte) : Prop :=
      let l := stmt 2 act 0 ++ (cert ++ [])
      let b := busy (asy g l a)
      Admitted (asy g l a) .secure Reg.asyCmd 3 ∧ asyIn b [1, 2, 3] = true ∧ asyInput b = l ∧
        numAt l 3 1 = act.toNat ∧ statementBars b l 0 = 0 ∧ statementVerify b l = 0 ∧ 2 * (programSteps (storage b) l 0).length ≤ 18
    verifies 0 (cut cert 0 96) (cut cert 96 7856) = true →
    (∀ act, verifies 0 (cut (stmt 2 act 0 ++ (cert ++ [])) 0 128) (cut (stmt 2 act 0 ++ (cert ++ [])) 128 7856) = true) →
      stated 0x100 1 ∧ stated 0x200 2 ∧ a.storageA.owners.length = 8 ∧ a.storageB.owners.length = 8 ∧ freeSlot a.storageA = 0 := by
  intro a stated hc h
  have go (g : Nat) (act : Byte) (hg : g < 2 ^ 32) (hl : bits g 10 8 = 1 ∨ bits g 10 8 = 2)
      (h1 : actionIn act.toNat (bits g 10 8) = true) (h2 : statementOk (stmt 2 act 0 ++ (cert ++ [])) = true)
      (h3 : numAt (stmt 2 act 0 ++ (cert ++ [])) 3 1 = act.toNat)
      (h4 : actionCheck (busy (asy g (stmt 2 act 0 ++ (cert ++ [])) a)) (stmt 2 act 0 ++ (cert ++ [])) = 0)
      (h5 : 2 * (programSteps {} (stmt 2 act 0 ++ (cert ++ [])) 0).length ≤ 18) : stated g act := by
    have hx : storage (busy (asy g (stmt 2 act 0 ++ (cert ++ [])) a)) = {} := rfl
    have hr : (({} : Storage).rootKey).getD 0 = 0 := rfl
    obtain ⟨b1, b2, b3, b4, b5, b6⟩ := vendor_stated (a := a) (act := act) (arg := 0) hg hl h1 h2 h3 rfl hx rfl hr hc (h act) h4
    exact ⟨b1, b2, b3, b4, b5, b6, h5⟩
  exact ⟨go 0x100 1 (by decide) (by decide) (by decide) (by decide +kernel) (by decide +kernel) (by decide +kernel) (by decide +kernel),
    go 0x200 2 (by decide) (by decide) (by decide) (by decide +kernel) (by decide +kernel) (by decide +kernel) (by decide +kernel),
    by decide, by decide, by decide⟩

/-- A policy of zeros under the owner's signature. -/
theorem witness_Policy :
    let blob : List Byte := [1, 0] ++ zs 62
    let l : List Byte := ([1, 0, 1, 6, 0, 0, 0, 0] ++ zs 16) ++ (zs 32 ++ (zs 32 ++ (sha256 blob ++ (zs 8 ++ (zs 7856 ++ blob)))))
    let s := asy 0x300 l { challenge := some (zs 32) }
    let b := busy s
    verifies 0 (cut l 0 128) (cut l 128 7856) = true →
    Admitted s .secure Reg.asyCmd 4 ∧ asyIn b [3] = true ∧ asyInput b = l ∧ statementBars b l 64 = 0 ∧ numAt l 3 1 = 6 ∧
      statementVerify b l = 0 ∧ sha256 (cut l 7984 64) = cut l 88 32 ∧ policyOk (cut l 7984 64) = true := by
  intro blob l s b hsig
  have hk : (sha256 blob).length = 32 := sha256_length _
  have hlen : l.length = 8048 := by
    simp only [l, blob, zs, List.length_append, List.length_replicate, List.length_cons, List.length_nil, sha256_length]
  have hlc : lifecycle b = 3 := (asy_place (by decide)).1
  have c0 : numAt l 8 16 = 0 := by
    have : cut l 8 16 = zs 16 := by
      simp only [l, List.append_assoc]
      exact cut_mid rfl rfl
    exact (congrArg ofBytes this).trans (by decide)
  have n0 : numAt l 0 2 = 1 ∧ numAt l 2 1 = 1 ∧ numAt l 3 1 = 6 ∧ numAt l 4 4 = 0 ∧ numAt l 8 16 = 0 := ⟨rfl, rfl, rfl, rfl, c0⟩
  have c1 : cut l 24 32 = zs 32 := cut_mid rfl rfl
  have c2 : cut l 56 32 = zs 32 := by
    simp only [l]
    rw [← List.append_assoc]
    exact cut_mid rfl rfl
  have c3 : cut l 88 32 = sha256 blob := by
    simp only [l]
    rw [← List.append_assoc, ← List.append_assoc]
    exact cut_mid rfl hk
  have c4 : cut l 120 8 = zs 8 := by
    simp only [l]
    rw [← List.append_assoc, ← List.append_assoc, ← List.append_assoc]
    exact cut_mid (by rw [List.length_append, hk]; rfl) rfl
  have c5 : cut l 7984 64 = blob := by
    have : l = ((((([1, 0, 1, 6, 0, 0, 0, 0] ++ zs 16) ++ zs 32) ++ zs 32) ++ sha256 blob ++ zs 8) ++ zs 7856) ++ (blob ++ []) := by
      simp only [l, List.append_assoc, List.append_nil]
    rw [this]
    exact cut_mid (by simp only [zs, List.length_append, List.length_replicate, List.length_cons, List.length_nil, hk]) rfl
  have hok : statementOk l = true := by
    unfold statementOk
    simp only [n0, zeroAt, c2, c4]
    decide
  refine ⟨asy_starts 4, asy_in (by decide) (by decide), asyInput_asy (n := 2012) hlen (by decide), ?_, n0.2.2.1, ?_, ?_, ?_⟩
  · unfold statementBars
    simp only [n0, hlen, hok, hlc]
    decide
  · have hch : b.assay.challenge = some (zs 32) := rfl
    have hser : (serialOf b).toNat = 0 := rfl
    have hown : (storage b).owner.getD 0 = 0 := by decide
    have hact : actionCheck b l = 0 := by unfold actionCheck; simp only [n0]; rfl
    unfold statementVerify
    simp only [hch, n0, c1, hser, hown, hact]
    simp
    exact fun h => Bool.noConfusion (hsig.symm.trans h)
  · rw [c5, c3]
  · rw [c5]
    decide

/-- A bundle whose encryption opens, with a manifest of one image for a whole set of one device. -/
theorem witness_SealEnter :
    let man : List Byte := ([1, 0, 255, 255, 1, 0, 0, 0] ++ zs 8) ++ ([1] ++ zs 143) ++ ([0, 0, 0, 0, 0, 0, 0, 0, 128] ++ zs 39)
    let l : List Byte := zs 1088 ++ (zs 64 ++ man)
    let s := asy 0x300 l { offer := some 0 }
    let b := busy s
    ∀ jms, Config.gcmOpen (bundleKey b 0 (cut l 0 1088)) (cut l 1088 12)
        (sha256 man ++ sha256 (cut l 0 1088) ++ toBytes 16 (serialOf b).toNat) (cut l 1100 32) (cut l 1132 16) = some jms →
      Admitted s .secure Reg.asyCmd 6 ∧ b.assay.offer = some 0 ∧ asyIn b [3] = true ∧ asyInput b = l ∧ l.drop 1152 = man ∧
        160 ≤ man.length ∧ man.length = 160 + 48 * numAt man 4 2 ∧ zeroAt (cut l 1088 64) 60 4 = true ∧
        manifestOk (setOffer none b) man = true := by
  intro man l s b jms _
  refine ⟨asy_starts 6, rfl, asy_in (by decide) (by decide), asyInput_asy (n := 340) ?_ (by decide), ?_, by decide, by decide, ?_, ?_⟩
  · decide +kernel
  · decide +kernel
  · decide +kernel
  · decide +kernel

/-- A seal exit of the job in force under the challenge, with its authentication code, and one without a challenge. -/
theorem witness_SealExit :
    let hd : List Byte := ([1, 0, 255, 255, 0, 0, 0, 0] ++ zs 16) ++ (zs 32 ++ zs 8)
    let l : List Byte := [] ++ (hd ++ (hmac [] hd ++ []))
    let m : Manifest := { job := 65535, set := [], rings := 1, ranges := [], images := [], digest := 0 }
    let part (c : Option (List Byte)) : State := asy 0x1300 l { challenge := c } (some m)
    let s := part (some (zs 32))
    let b := busy s
    let exits (s : State) : Prop := Admitted s .secure Reg.asyCmd 7 ∧ (busy s).manifest = some m ∧ (busy s).sealed = true ∧
      lcPending (busy s) = false ∧ asyInput (busy s) = l ∧ l.length = 96 ∧ numAt l 0 2 = 1 ∧ zeroAt l 4 4 = true ∧ zeroAt l 56 8 = true
    exits s ∧ numAt l 8 16 = (serialOf b).toNat ∧ b.assay.challenge = some (cut l 24 32) ∧ numAt l 2 2 = m.job ∧
      hmac b.assay.keys.exit (cut l 0 64) = cut l 64 32 ∧ exits (part none) ∧ (busy (part none)).assay.challenge ≠ some (cut l 24 32) := by
  intro hd l m part s b exits
  have hk : (hmac [] hd).length = 32 := sha256_length _
  have hl : l.length = 96 := by
    simp only [l, List.length_append, hk]
    rfl
  have z : zeroAt l 56 8 = true := by
    have : cut l 56 8 = zs 8 := by
      have e : l = (([1, 0, 255, 255, 0, 0, 0, 0] ++ zs 16) ++ zs 32) ++ (zs 8 ++ hmac [] hd) := by
        simp only [l, hd, List.append_assoc, List.append_nil, List.nil_append]
      rw [e]
      exact cut_mid rfl rfl
    rw [zeroAt, this]
    decide
  have c3 : cut l 24 32 = zs 32 := by
    have e : l = ([1, 0, 255, 255, 0, 0, 0, 0] ++ zs 16) ++ (zs 32 ++ (zs 8 ++ hmac [] hd)) := by
      simp only [l, hd, List.append_assoc, List.append_nil, List.nil_append]
    rw [e]
    exact cut_mid rfl rfl
  have c0 : numAt l 8 16 = 0 := by
    have : cut l 8 16 = zs 16 := by
      simp only [l, hd, List.append_assoc, List.nil_append]
      exact cut_mid rfl rfl
    exact (congrArg ofBytes this).trans (by decide)
  have c1 : cut l 0 64 = hd := cut_mid rfl rfl
  have c2 : cut l 64 32 = hmac [] hd := cut_mid (a := [] ++ hd) rfl hk
  have go (c : Option (List Byte)) : exits (part c) :=
    ⟨asy_starts 7, rfl, (asy_place (by decide)).2.2, (asy_place (by decide)).2.1, asyInput_asy (n := 24) hl (by decide), hl, rfl, rfl,
      z⟩
  refine ⟨go _, c0.trans rfl, by rw [c3]; rfl, rfl, ?_, go _, nofun⟩
  rw [c1, c2]
  exact congrArg (fun k => hmac k hd) (rfl : b.assay.keys.exit = [])

/-- Challenges, Hallmarks and offers with an input of their length in the states that admit them and out of them, with the
entropy source good and failed, a refused entry without an offer, COMPLETE with and without a transition pending, an
operation's end, seal wipes of both kinds, and a manufacturing write in bring-up. -/
theorem witness_AssayOperations :
    let n : List Byte := zs 32
    let bad : Assay := { entropyOk := false }
    let pend : State := withRegs [(Reg.asyStatus, 4)]
    let o : AsyOp := { code := 255, result := 12, out := [1], lc := true }
    let m : Manifest := { job := 65535, set := [(0, 0), (0, 0), (0, 0), (0, 0)], rings := 1, ranges := [], images := [], digest := 0 }
    let e : List Byte × List Byte × List Byte := ([], [], [])
    (Admitted (asy 0x100 [] {}) .secure Reg.asyCmd 1 ∧ asyIn (busy (asy 0x100 [] {})) [1, 2, 3] = true ∧
      asyInput (busy (asy 0x100 [] {})) = [] ∧ (busy (asy 0x100 [] {})).assay.entropyOk = true ∧
      asyIn (busy (asy 0x400 [] {})) [1, 2, 3] = false ∧ asyIn (busy (asy 0x100 [] bad)) [1, 2, 3] = true ∧
      asyInput (busy (asy 0x100 [] bad)) = [] ∧ (busy (asy 0x100 [] bad)).assay.entropyOk = false) ∧
    (Admitted (asy 0x200 n {}) .secure Reg.asyCmd 2 ∧ asyIn (busy (asy 0x200 n {})) [2, 3] = true ∧
      (asyInput (busy (asy 0x200 n {}))).length = 32) ∧
    (Admitted (asy 0x300 n {}) .secure Reg.asyCmd 5 ∧ asyIn (busy (asy 0x300 n {})) [3] = true ∧
      (busy (asy 0x300 n {})).sealed = false ∧ (asyInput (busy (asy 0x300 n {}))).length = 32 ∧
      (busy (asy 0x300 n {})).assay.entropyOk = true) ∧
    (Admitted (asy 0x300 n {}) .secure Reg.asyCmd 6 ∧ (busy (asy 0x300 n {})).assay.offer = none) ∧
    numAt (asyInput (asy 0x300 [0, 0, 0, 2] {})) 3 1 = 2 ∧
    (Admitted pend .secure Reg.asyCmd 15 ∧ lcPending (busy pend) = true ∧ asyInput (busy pend) = [] ∧
      Admitted State.reset .secure Reg.asyCmd 15 ∧ lcPending (busy State.reset) = false) ∧
    (Admitted (asy 0x100 [] {}) .secure Reg.asyCmd 8 ∧ Admitted (asy 0x100 [] {}) .secure Reg.asyCmd 9 ∧
      asyIn (busy (asy 0x100 [] {})) [2, 3] = false) ∧
    (let s : State := { State.reset with assay := { State.reset.assay with op := some o } }
     State.reset.assay.op = none ∧ s.assay.op = some o ∧ s.wiping = none ∧ o.entering = none ∧ o.result < 2 ^ 32 ∧
       o.out.length < 2 ^ 32) ∧
    (let s : State := { State.reset with
      wiping := some (.sealEntry m)
      assay := { State.reset.assay with op := some { o with entering := some e } } }
     NothingHeld s ∧ s.wiping = some (.sealEntry m) ∧ s.assay.op = some { o with entering := some e } ∧ m.set.length = 4) ∧
    (let s : State := { State.reset with wiping := some .sealExit }
     NothingHeld s ∧ s.wiping = some .sealExit ∧ State.reset.wiping = none) ∧
    bootState (withRegs [(Reg.glbState, 13)]) = 13 ∧
    (let s := withRegs [(Reg.glbState, 1)]
     lifecycle s = 0 ∧ (storage s).state = 0 ∧ bootState s ≠ 0) := by
  refine ⟨⟨asy_starts 1, asy_in (by decide) (by decide), asyInput_asy (n := 0) rfl (by decide), rfl, asy_out (by decide) (by decide),
    asy_in (by decide) (by decide), asyInput_asy (n := 0) rfl (by decide), rfl⟩,
    ⟨asy_starts 2, asy_in (by decide) (by decide), congrArg List.length (asyInput_asy (n := 8) rfl (by decide))⟩,
    ⟨asy_starts 5, asy_in (by decide) (by decide), (asy_place (by decide)).2.2, congrArg List.length (asyInput_asy (n := 8) rfl (by decide)), rfl⟩,
    ⟨asy_starts 6, rfl⟩, by decide, ⟨admitted_of (by decide), by decide, by decide, admitted_of (by decide), by decide⟩,
    ⟨asy_starts 8, asy_starts 9, asy_out (by decide) (by decide)⟩,
    by decide, ⟨nothingHeld_of rfl rfl rfl, rfl, rfl, rfl⟩, ⟨nothingHeld_of rfl rfl rfl, rfl, rfl⟩, by decide, by decide⟩

/-- Die 63, a supply at the policy's floor and steps of 10 mV, decisions 1 ms apart and one Beat less, a junction at and
below its limit, an idle die 31 at and before its time, power for a waiting dispatch, a bank and a page at and before
their ends, the first, the last and one gate wire too many, and windows of every kind of end. -/
theorem witness_RegulatorEvents :
    let r0 := State.reset
    let rgl (k : Regulator) (l : List (Nat × W32)) (b : W64) : State := { withRegs l with rgl := k, beat := b }
    let q : RepairReq := { id := 65535, kind := 5, die := 63, index := 0, est := 1 }
    let q2 : RepairReq := { id := 1, kind := 5, die := 63, index := 0, est := 1 }
    let g : RepairWindow := { req := q, ms := 1, ends := some 1000000 }
    let wire : RecEntry := { kind := 12, fused := false, die := 63, index := 255, detail := 0 }
    let wires (n : Nat) : State := rgl { entries := List.replicate n wire } [] 0
    let used (s : State) := wiresUsed s 63 (255 / 68)
    let part (k : Regulator) : State := rgl k [] 0
    let ob : RepairReq := { id := 65535, kind := 3, die := 31, index := 0x7FF, est := 1 }
    (8191 < 2 ^ 13 ∧ 63 < 64) ∧
    (let s := rgl { tele := [(63, { supply := 640 })] } [] 1000000
     let u : Nat × Nat × Nat := (63, 630, 1)
     1000000 ≤ (s.beat - s.rgl.decided).toNat ∧ supplyOk s [u] u = true ∧ s.flag Reg.rsrStatus 7 = false) ∧
    (let s := rgl {} [] 999999
     (s.beat - s.rgl.decided).toNat < 1000000) ∧
    (junctionMax 63 ≤ 1760 ∧ 63 ∉ r0.rgl.dark ∧ r0.fld Reg.runJob 15 0 = 0 ∧ 1759 < junctionMax 63) ∧
    (let s := rgl { idleSince := [(31, some 0)] } [(Reg.rglPolicy 0, 0xFFFF0001)] 1000000
     Tab.get none s.rgl.idleSince 31 = some 0 ∧ policyFlag s 2 = true ∧ dieIdle s 31 = true ∧ 31 ∉ s.rgl.dark ∧
       1000 * policyWord s 7 = (s.beat - 0).toNat ∧ Tab.get none r0.rgl.idleSince 31 = none) ∧
    (let s : State := { rgl { dark := [31] } [] 0 with disps := [(0, { live := true, set := [255] })] }
     31 ∈ s.rgl.dark ∧ s.flag Reg.rglStatus 4 = false ∧ dieWanted s 31 = true ∧ 31 ∉ r0.rgl.dark) ∧
    (rgl { copying := [(15, 63)] } [] 0).rgl.copying = [(15, 63)] ∧
    (let s (b : W64) := rgl { pagesDue := [(262143, 0)] } [] b
     (s 10000000000).rgl.pagesDue = [(262143, 0)] ∧ 10000000000 ≤ ((s 10000000000).beat - 0).toNat ∧ 262143 ∉ (s 0).retired ∧
       ((s 0).retired.filter fun p => p / 2 ^ 15 == 262143 / 2 ^ 15).length < 512 ∧ ((s 9999999999).beat - 0).toNat < 10000000000) ∧
    (0 < used (wires 1) ∧ used (wires 3) = 3 ∧ policyFlag (withRegs [(Reg.rglPolicy 0, 1)]) 0 = false ∧
      wiresUsed r0 63 (255 / 68) = 0 ∧ r0.rgl.reqs = [] ∧ policyFlag (wires 3) 0 = true ∧ used (wires 4) = 4 ∧
      (wires 4).fld Reg.runJob 15 0 = 0) ∧
    (let s := rgl { reqs := [q] } [] 0
     q ∈ s.rgl.reqs ∧ q.id = 65535 ∧ (∀ y ∈ s.rgl.reqs, y.id = 65535 → y = q) ∧ (∀ y ∈ s.rgl.grants, y.req.id ≠ 65535) ∧
       Admitted s .secure Reg.rglWindow (BitVec.ofNat 32 (65535 * 2 ^ 16 + policyWord s 8)) ∧ 0 < policyWord s 8 ∧
       policyWord s 8 < 2 ^ 16 ∧ Admitted r0 .secure Reg.rglWindow (BitVec.ofNat 32 (65535 * 2 ^ 16 + 65535)) ∧
       ∀ q ∈ r0.rgl.reqs, q.id ≠ 65535) ∧
    (let s := rgl { grants := [{ g with ends := none }] } [] 0
     s.rgl.grants = { g with ends := none } :: [] ∧ (∀ y ∈ s.rgl.grants, y.ends = none) ∧ unitQuiet s q = true) ∧
    (let s (b : W64) := rgl { grants := [g], reqs := [q, q2] } [] b
     (s 0).rgl.grants = g :: [] ∧ g.ends = some 1000000 ∧ (∀ y ∈ ([] : List RepairWindow), y.req.id ≠ g.req.id) ∧ g.req.kind = 5 ∧
       (∃ y ∈ (s 0).rgl.reqs, y.id ≠ g.req.id) ∧ (1000000#64).toNat = (s 1000000).beat.toNat ∧
       (s 999999).beat.toNat + 1 = (1000000#64).toNat ∧ g.req.id = 65535 ∧
       Admitted (s 0) .secure Reg.rglWindow (BitVec.ofNat 32 (65535 * 2 ^ 16 + 0)) ∧ (s 0).held = []) ∧
    (let g := { g with req := ob }
     let s := part { grants := [g] }
     s.rgl.grants = g :: [] ∧ g.req.kind = 3 ∧ g.req.riser = 0 ∧ obUsed s (dieOf 255) (255 % 8) < 8) ∧
    (let s := rgl { recordDue := 1000 } [(Reg.rsrStatus, 0x80)] 1000
     s.flag Reg.rsrStatus 7 = true ∧ s.rgl.recordDue.toNat = s.beat.toNat ∧ recordSeed s = none ∧ (recordData s none).length = 64 ∧
       (∀ u ∈ unitsOf 64 (recordHome s) 64, ∃ d, extAnswer { bytes := [(0x100000000000, 1)] } u = .ok d) ∧
       r0.flag Reg.rsrStatus 7 = false) := by
  refine ⟨by decide, by decide, by decide, by decide, by decide, by decide, by decide, by decide, by decide,
    ⟨by decide, by decide, by decide, by decide, admitted_of (by decide), by decide, by decide, admitted_of (by decide), by decide⟩,
    by decide, ⟨by decide, by decide, by decide, by decide, by decide, by decide, by decide, by decide, admitted_of (by decide), rfl⟩, by decide, ⟨by decide, by decide, by decide, by decide, fun u hu => ?_, by decide⟩⟩
  have : unitsOf 64 0x100000000000 64 = [0x100000000000] := by decide
  rw [show u = 0x100000000000 from List.mem_singleton.mp (this ▸ hu)]
  exact ⟨_, rfl⟩

/-! ### Bring-up and resets -/

/-- A state of bring-up. -/
def boot (n : Nat) : State := withRegs [(Reg.glbState, BitVec.ofNat 32 n)]
/-- Listed scratch bytes of the boot area. -/
def cellsFrom : Nat → List Byte → List (Nat × Byte)
  | _, [] => []
  | o, b :: t => (hashedKey o, b) :: cellsFrom (o + 1) t
/-- A state of bring-up with bytes in the boot area from an offset on. -/
def holds (n off : Nat) (l : List Byte) (b : Boot) : State :=
  { withRegs [(Reg.glbState, BitVec.ofNat 32 n), (Reg.cruPartition, 16)] with
    mem := cellsFrom off l
    boot := b }

theorem hashed_far {x y : Nat} (hx : x < 2 ^ 33) (hy : y < 2 ^ 33) (h : hashedKey x = hashedKey y) : x = y := by
  have e1 : sliceHash x < 16 := xorNibbles_lt _ _
  have e2 : sliceHash y < 16 := xorNibbles_lt _ _
  have e : x / 2048 = y / 2048 := by
    simp only [hashedKey, slicedAddr, Nat.shiftLeft_eq] at h
    omega
  exact hashedKey_inj (by omega) (by omega) (by omega) h

theorem cellsFrom_get : ∀ (l : List Byte) (o i : Nat), o + l.length ≤ 2 ^ 33 → i < l.length →
    Tab.get 0 (cellsFrom o l) (hashedKey (o + i)) = l.getD i 0 := by
  intro l
  induction l with
  | nil => intro o i _ h; cases h
  | cons b t ih =>
    intro o i h hi
    simp only [List.length_cons] at h hi
    cases i with
    | zero => simp [cellsFrom, Tab.get, Tab.find?]
    | succ i =>
      have hne : hashedKey o ≠ hashedKey (o + (i + 1)) := fun e => by
        have := hashed_far (by omega) (by omega) e
        omega
      have := ih (o + 1) i (by omega) (by omega)
      simp only [Tab.get, cellsFrom, Tab.find?, if_neg hne] at this ⊢
      rw [show o + (i + 1) = o + 1 + i from by omega, this]
      rfl

theorem map_upFrom {f : Nat → Byte} : ∀ (l : List Byte) (k : Nat), (∀ i, i < l.length → f (k + i) = l.getD i 0) →
    (upFrom k l.length).map f = l := by
  intro l
  induction l with
  | nil => intros; rfl
  | cons b t ih =>
    intro k h
    simp only [List.length_cons, upFrom, List.map_cons]
    have h0 := h 0 (by simp)
    rw [ih (k + 1) fun i hi => by
      have := h (i + 1) (by simp only [List.length_cons]; omega)
      rw [show k + (i + 1) = k + 1 + i from by omega] at this
      exact this]
    rw [show k + 0 = k from rfl] at h0
    rw [h0]
    rfl

theorem mem_upFrom_le {x : Nat} : ∀ {n k : Nat}, x ∈ upFrom k n → k ≤ x ∧ x < k + n
  | 0, _, h => by cases h
  | n + 1, k, h => by
    rcases List.mem_cons.mp h with rfl | h
    · omega
    · have := mem_upFrom_le h
      omega

/-- A unit that a range meets begins in the unit of its first byte or later, and not after its last byte. -/
theorem of_unitsOf {g a n u : Nat} (h : u ∈ unitsOf g a n) : ∃ k, u = k * g ∧ a / g ≤ k ∧ k ≤ (a + n - 1) / g := by
  unfold unitsOf at h
  split at h
  · cases h
  · obtain ⟨k, hk, rfl⟩ := List.mem_map.mp h
    have := mem_upFrom_le hk
    have := Nat.div_le_div_right (c := g) (show a ≤ a + n - 1 by omega)
    exact ⟨k, rfl, by omega, by omega⟩

/-- The boot area reads as what it holds. -/
theorem bootRead_holds {n off : Nat} {l : List Byte} {b : Boot} (h0 : 0 < l.length) (h : off + l.length ≤ 2 ^ 26) :
    bootRead off l.length (holds n off l b) = l := by
  have hb : boundary (holds n off l b) = 2 ^ 32 := by
    have : (holds n off l b).reg Reg.cruPartition = 16 := rfl
    rw [boundary, State.fld, this]
    decide
  have hp (i : Nat) (hi : i < 2 ^ 26) : place (holds n off l b) (bootArea + i) = .scratch (hashedKey i) := by
    unfold place
    rw [if_neg (by simp only [bootArea]; omega), if_pos (by simp only [bootArea]; omega)]
    simp only [hb]
    rw [if_pos (by simp only [bootArea]; omega)]
    simp only [bootArea, Nat.add_sub_cancel_left]
  have hs : ScratchSound (countLines (bootArea + off) l.length (holds n off l b)) (bootArea + off) l.length := by
    rw [countLines_eq]
    intro u hu
    obtain ⟨k, rfl, h1, h2⟩ := of_unitsOf hu
    refine ⟨hashedKey (k * 16 - bootArea), ?_, rfl, rfl⟩
    have := hp (k * 16 - bootArea) (by simp only [bootArea] at h1 h2 ⊢; omega)
    rw [show bootArea + (k * 16 - bootArea) = k * 16 from by simp only [bootArea] at h1 ⊢; omega] at this
    exact this
  have e2 (i : Nat) : peek (countLines (bootArea + off) l.length (holds n off l b)) {} i = peek (holds n off l b) {} i := by
    rw [countLines_eq]; rfl
  unfold bootRead readPhys fetchPhys
  rw [hp off (by omega)]
  simp only [fetchHere_sound hs, consume, e2]
  refine map_upFrom l _ fun i hi => ?_
  have := hp (off + i) (by omega)
  rw [peek, Nat.add_assoc, this]
  exact cellsFrom_get l off i (by omega) hi

/-- A boot descriptor of an image of one byte. -/
def descriptor (version : Byte) : List Byte :=
  [version, 0, 0, 0, 65, 62, 0, 0] ++ zs 48 ++ [1, 0, 0, 0, 0, 0, 0, 0]

/-- A firmware image of one byte, with its certificate from the root key of zeros. -/
def fwImage : List Byte :=
  ([0, 0, 0, 0] ++ toBytes 4 (regReset Reg.glbId).toNat ++ (toBytes 2 ((State.reset).fld Reg.glbStep 15 0) ++ zs 6)) ++ (toBytes 8 1 ++
    (sha256 [0] ++ (zs 7928 ++ (doc [1, 0, 1, 1, 0, 0, 0, 0] (sha256 (zs 32)) ++ ([0] ++ [])))))

/-- A firmware image in the boot area whose two signatures verify is admitted. -/
theorem witness_FwVerify :
    let s := holds 6 0x400000 fwImage { desc := BitVec.ofNat 512 (ofBytes (descriptor 1)) }
    let img := bootRead 0x400000 (numAt (descBytes s) 4 4) s
    let c := doc [1, 0, 1, 1, 0, 0, 0, 0] (sha256 (zs 32))
    verifies 0 (cut c 0 96) (cut c 96 7856) = true → verifies 0 (cut fwImage 0 128) (cut fwImage 128 7856) = true →
      s.fld Reg.glbState 3 0 = 6 ∧ imageOffence s img = none := by
  intro s img c hc hsig
  refine ⟨rfl, ?_⟩
  have hk : (sha256 (zs 32)).length = 32 := sha256_length _
  have hl : fwImage.length = 15937 := by
    simp only [fwImage, List.length_append, toBytes_length, sha256_length, zs, List.length_replicate, doc_length (hd := [1, 0, 1, 1, 0, 0, 0, 0]) rfl
      (sha256_length (List.replicate 32 0)), certLen, List.length_cons, List.length_nil]
  have hn : numAt (descBytes s) 4 4 = 15937 := by decide
  have hi : img = fwImage := by
    have := bootRead_holds (n := 6) (off := 0x400000) (l := fwImage) (b := { desc := BitVec.ofNat 512 (ofBytes (descriptor 1)) }) (by omega) (by omega)
    rw [hl] at this
    simp only [img, hn]
    exact this
  have c1 : cut fwImage 7984 certLen = c := by
    have : fwImage = ((([0, 0, 0, 0] ++ toBytes 4 (regReset Reg.glbId).toNat ++ (toBytes 2 ((State.reset).fld Reg.glbStep 15 0) ++ zs 6)) ++
        toBytes 8 1) ++ sha256 [0] ++ zs 7928) ++ (c ++ [0]) := by
      simp only [fwImage, List.append_assoc, List.append_nil, c]
    rw [this]
    exact cut_mid (by simp only [List.length_append, toBytes_length, sha256_length, zs, List.length_replicate, List.length_cons, List.length_nil])
      (doc_length rfl hk)
  have c2 : cut fwImage 24 32 = sha256 [0] := by
    rw [fwImage, ← List.append_assoc]
    exact cut_mid rfl (sha256_length _)
  have c3 : cut fwImage 15936 1 = [0] := by
    have : fwImage = (((([0, 0, 0, 0] ++ toBytes 4 (regReset Reg.glbId).toNat ++ (toBytes 2 ((State.reset).fld Reg.glbStep 15 0) ++ zs 6)) ++
        toBytes 8 1) ++ sha256 [0] ++ zs 7928) ++ c) ++ ([0] ++ []) := by
      simp only [fwImage, List.append_assoc, List.append_nil, c]
    rw [this]
    exact cut_mid (by simp only [List.length_append, toBytes_length, sha256_length, zs, List.length_replicate, List.length_cons, List.length_nil,
      c, doc_length (hd := [1, 0, 1, 1, 0, 0, 0, 0]) rfl (sha256_length (List.replicate 32 0)), certLen]) rfl
  have n1 : numAt fwImage 16 8 = 1 ∧ numAt fwImage 4 4 = (s.reg Reg.glbId).toNat ∧ numAt fwImage 8 2 = s.fld Reg.glbStep 15 0 := by
    refine ⟨?_, ?_, ?_⟩
    · have : cut fwImage 16 8 = toBytes 8 1 := cut_mid rfl rfl
      rw [numAt, ← cut, this]
      decide
    · decide
    · decide
  obtain ⟨d1, d2, d3, d4⟩ := doc_parts (hd := [1, 0, 1, 1, 0, 0, 0, 0]) rfl hk
  have c5 : certKey c = 0 := by
    rw [certKey, d2]
    decide
  have c6 : certCheck (storage s) 1 c = 0 := by
    have z : zeroAt c 4 4 = true := rfl
    have z2 : zeroAt c 88 8 = true := by rw [zeroAt, d4]; decide
    have n1 : numAt c 0 2 = 1 ∧ numAt c 2 1 = 1 ∧ numAt c 3 1 = 1 := ⟨rfl, rfl, rfl⟩
    have k0 : keyBytes 0 = zs 32 := by decide
    have hr : (storage s).rootKey.getD 0 = 0 := rfl
    have c3 : cut c 56 32 = sha256 (zs 32) := d3
    unfold certCheck
    simp only [n1, z, z2, c3, hr, k0, hc]
    simp [rOk]
  have hm : (storage s).minSvn = 0 := by decide
  rw [hi]
  unfold imageOffence
  simp only [c1, c2, c3, n1, c5, c6, hm, hl, rOk]
  simp
  exact hsig

/-- Each state of bring-up, with the pins, the training, the descriptor and the images at and past every limit. -/
theorem witness_BringUp :
    let at_ (n : Nat) : Prop := (boot n).fld Reg.glbState 3 0 = n
    let r0 := State.reset
    let pins (b : Boot) (l : List (Nat × W32)) (t : W64) : State := { withRegs l with boot := b, beat := t }
    let out : Boot := { resetN := true }
    (r0.boot.resetN = false ∧ (pins out [] 0).boot.resetN = true ∧ (pins { out with rails := false } [] 0).boot.rails = false ∧
      r0.boot.refLost = false ∧ r0.boot.railFault = false ∧ r0.boot.rails = true ∧ r0.boot.refclk = true ∧ (withRegs [(Reg.rsrCtl, 0)]).flag Reg.rsrCtl 0 = false ∧
      7 < 8) ∧
    (at_ 1 ∧ at_ 2 ∧ at_ 3 ∧ at_ 4 ∧ at_ 5 ∧ at_ 6 ∧ at_ 7 ∧ at_ 8 ∧ at_ 9 ∧ at_ 10 ∧ at_ 11 ∧ at_ 12) ∧
    ((boot 2).assay.entropyOk = true ∧ ({ boot 4 with wiping := some .full } : State).wiping = some .full ∧ (boot 4).dbg.granted = none ∧
      ({ boot 4 with dbg := { granted := some 15 } } : State).dbg.granted = some 15 ∧
      ∀ k, k < 8 → (retiredOf (boot 9) k).length ≤ 512) ∧
    ((pins { sprPhase := 1 } [] 0).boot.sprPhase = 1 ∧ r0.boot.sprPhase ≠ 1 ∧ (pins { sprPhase := 3 } [] 0).boot.sprPhase = 3 ∧
      ((halfFails [0, 15, 31] 0).length ≤ 1 ∨ (halfFails [0, 15, 31] 1).length ≤ 1) ∧ 1 < (halfFails [0, 32, 16, 31] 0).length ∧
      1 < (halfFails [0, 32, 16, 31] 1).length ∧ (let s := pins { sprPhase := 4 } [] 0
       s.boot.sprPhase = 4 ∧ sprTrained s = false ∧ s.boot.sprLanes = [])) ∧
    (let s := pins { sprPhase := 1, sprTries := 1 } [] 1000000000
     s.boot.sprPhase ≠ 0 ∧ sprTrained s = false ∧ ¬ s.fld Reg.glbState 3 0 = 15 ∧ 1000000000 = (s.beat - s.boot.sprSince).toNat ∧
       s.boot.sprTries < 2 ∧ 2 ≤ (pins { sprPhase := 1, sprTries := 2 } [] 1000000000).boot.sprTries) ∧
    (let s (t : W64) := pins {} [(Reg.glbState, 5)] t
     60000000000 < ((s 60000000001).beat - (s 0).boot.waitSince).toNat ∧ ((s 60000000000).beat - (s 0).boot.waitSince).toNat ≤ 60000000000) ∧
    (let s (l : List Byte) := holds 5 0 l {}
     (s (descriptor 1)).fld Reg.glbState 3 0 = 5 ∧ ofBytes (bootRead 56 8 (s (descriptor 1))) = 1 ∧
       descOffence (bootRead 0 64 (s (descriptor 1))) = none ∧ ofBytes (bootRead 56 8 (boot 5)) ≠ 1 ∧
       ofBytes (bootRead 56 8 (s (descriptor 2))) = 1 ∧ descOffence (bootRead 0 64 (s (descriptor 2))) = some 0 ∧
       (s (descriptor 2)).boot.tries < 2) ∧
    (let s := pins { tries := 2 } [(Reg.glbState, 6)] 0
     imageOffence s (bootRead 0x400000 (numAt (descBytes s) 4 4) s) = some 1 ∧ s.boot.tries = 2) ∧
    (numAt (descBytes (boot 8)) 16 4 = 0 ∧ (boot 10).boot.excluded = 0 ∧ (boot 10).rgl.entries = [] ∧
      (∀ k, k < 16 → (boot 12).fld (Reg.runLinkStatus k) 31 30 ≠ 1)) ∧
    (let s := pins {} [(Reg.glbState, 12), (Reg.runLinkStatus 3, 0x40000000)] 499999999
     s.fld Reg.glbState 3 0 = 12 ∧ s.fld (Reg.runLinkStatus 3) 31 30 = 1 ∧ (s.beat - s.boot.waitSince).toNat + 1 = 500000000) := by
  refine ⟨by decide, by decide, by decide, by decide, by decide, by decide, ⟨by decide, by decide +kernel, by decide +kernel, by decide +kernel,
    by decide +kernel, by decide +kernel, by decide⟩, by decide, by decide, by decide⟩

/-- A compute and a device reset that may begin, their ends, and floods with and without a job. -/
theorem witness_Resets :
    let r0 := State.reset
    let q := withRegs [(Reg.rsrCtl, 0)]
    let on : State := { q with boot := { r0.boot with resetN := true } }
    let job := withRegs [(Reg.runJob, 0xFFFF)]
    (Admitted q .secure Reg.rsrReset 1 ∧ q.flag Reg.rsrCtl 0 = false ∧ (withRegs [(Reg.rsrStatus, 0x100)]).flag Reg.rsrStatus 8 = true ∧
      r0.flag Reg.rsrStatus 8 = false) ∧
    (Admitted on .secure Reg.rsrReset 2 ∧ on.flag Reg.rsrCtl 0 = false ∧ on.boot.resetN = true ∧ on.boot.rails = true ∧
      on.boot.refclk = true ∧ on.boot.refLost = false ∧ on.boot.railFault = false) ∧
    (Admitted job .secure Reg.rsrFlood 1 ∧ job.fld Reg.runJob 15 0 ≠ 0 ∧ (∀ r, r < 64 → (job.ring r).state = .disabled) ∧
      recording job = false ∧ Admitted r0 .secure Reg.rsrFlood 1 ∧ r0.fld Reg.runJob 15 0 = 0) := by
  refine ⟨⟨admitted_of (by decide), by decide⟩, ⟨admitted_of (by decide), by decide⟩, ⟨admitted_of (by decide), by decide, by decide, by decide,
    admitted_of (by decide), by decide⟩⟩

/-- The reset state has the memory's canonical form, and a step leads from it to a next state. -/
theorem witness_StepsKeepMemoryForm : Memory.wf State.reset ∧ ∃ t, step State.reset = .next t := ⟨by decide, _, rfl⟩

/-- The last register that a core writes. -/
theorem witness_ResetStateAndRegisterZero : 0 < 31 ∧ 31 < 32 := by decide

/-! ### Single steps -/

/-- The next state of a command. -/
def after (i : Instr) (s : State) : State :=
  match exec i s with
  | .next t => t
  | _ => s
/-- Core 0 with some registers. -/
def regsX (l : List (Nat × W64)) : State := one { run0 with x := l }
/-- Register `n` of core 0. -/
def xOf (s : State) (n : Nat) : W64 := (s.core 0).xr n

/-- `add` wraps (Table 6.5), and the next instruction follows. -/
theorem test_add_wraps :
    let t := after (.intAlu 0 (iw 0x01 3 1 (2 * 2 ^ 37))) (regsX [(1, 0xFFFFFFFFFFFFFFFF), (2, 2)])
    xOf t 3 = 1 ∧ (t.core 0).pc = 8 := by decide

/-- `mulhu` gives the upper half of the product, with its source as destination. -/
theorem test_mulhu :
    xOf (after (.intAlu 0 (iw 0x01 1 1 (1 * 2 ^ 37 + 3 * 2 ^ 24))) (regsX [(1, 0xFFFFFFFFFFFFFFFF)])) 1 = 0xFFFFFFFFFFFFFFFE := by decide

/-- `li` extends the sign; `lui` keeps the lower half of xa. -/
theorem test_li_lui :
    xOf (after (.li 0 (iw 0x03 31 0 0x80000000)) (regsX [])) 31 = 0xFFFFFFFF80000000 ∧
      xOf (after (.lui 0 (iw 0x04 3 1 0xABCD)) (regsX [(1, 0xFFFFFFFF12345678)])) 3 = 0x0000ABCD12345678 := by decide

/-- x0 discards a write. -/
theorem test_x0 : xOf (after (.li 0 (iw 0x03 0 0 5)) (regsX [])) 0 = 0 := by decide

/-- A branch backwards past the code's start traps, one forwards is taken. -/
theorem test_jmp : ((after (.jmp 0 (iw 0x1A 0 0 0xFF8)) (regsX [])).core 0).pc = 0xFF8 ∧
    ((after (.jmp 0 (iw 0x1A 0 0 0xFFFFFFF8)) (regsX [])).core 0).trapValid = true := by decide

/-- An opcode that no row has traps, and so does a word with a reserved bit set. -/
theorem test_illegal : ((after (.nop 0 (iw 0x7F 0 0 0)) (regsX [])).core 0).trapValid = true ∧
    ((after (.nop 0 (iw 0x00 0 0 1)) (regsX [])).core 0).trapValid = true := by decide

/-- `fadd` of 1 and 2, and of an infinity and its opposite. -/
theorem test_fadd :
    let s (a b : W32) : State := one { run0 with f := [(1, a), (2, b)] }
    ((after (.scalarFloatOp 0 (iw 0x10 3 1 (2 * 2 ^ 37))) (s 0x3F800000 0x40000000)).core 0).fr 3 = 0x40400000 ∧
      ((after (.scalarFloatOp 0 (iw 0x10 3 1 (2 * 2 ^ 37))) (s 0x7F800000 0xFF800000)).core 0).fr 3 = 0x7FC00000 := by decide

/-- A store's bytes in scratch, lowest address first. -/
theorem test_store_order :
    let t := after (.st 0 (iw 0x21 2 1 (2 * 2 ^ 40))) (scr { run0 with x := [(1, 0x010000000000), (2, 0x11223344)] })
    (upFrom 0 5).map (fun i => t.byte (hashedKey i)) = [0x44, 0x33, 0x22, 0x11, 0] := by decide

/-- `amo.add` answers the old value and stores the sum. -/
theorem test_amo_add :
    let s : State := { scr { run0 with x := [(1, 0x010000000000), (2, 3)] } with mem := cells 0 [5] }
    let t := after (.amoAdd 0 (iw 0x6D 3 1 (2 * 2 ^ 37))) s
    xOf t 3 = 5 ∧ t.byte (hashedKey 0) = 8 := by decide

/-- The 16th post of section 2's example is dropped, and makes the GAP notice. -/
theorem test_gap :
    let e : W256 := BitVec.ofNat 256 (0x10 + 256)
    let s : State := { withRegs [(Reg.nqCtl 9, 0x40001)] with
      nqs := [(9, { depth := 4, entries := List.replicate 15 e })]
      beat := 0x4A10 }
    let k := (after (.noticePost 9 0x100 true e) s).nq 9
    k.entries.length = 15 ∧ (k.gap.map fun g => (noticeType g, bits g.toNat 111 64, bits g.toNat 159 128, bits g.toNat 161 160,
      bits g.toNat 239 192)) = some (1, 0x4A10, 1, 1, 0x4A10) := by decide

/-- An event value is set whole by its upper word (R268). -/
theorem test_event_set :
    (after (.eventSet .secure 1) (withRegs [(Reg.escEvtSel, 40), (Reg.escEvtLo, 7)])).event 40 = 0x100000007 := by decide

/-- A write of a register changes its writable bits alone, and a read of read-clearing bits answers and clears them. -/
theorem test_registers :
    (after (.registerWrite .secure Reg.rrSize 0xFFFFFFFF 0 {}) State.reset).reg Reg.rrSize = 0xFFFF ∧
      (let t := after (.rcRegisterRead .secure Reg.cruErrStatus {}) (withRegs [(Reg.cruErrStatus, 1)])
       t.rdata = 1 ∧ t.reg Reg.cruErrStatus = 0) := by decide

/-- RESET_N's release begins bring-up, and the first state's end selects a control die (Table 15.1). -/
theorem test_bring_up : bootState (after (.resetNRelease true) State.reset) = 1 ∧
    bootState (after (.ctrlSelect true true) (boot 1)) = 2 ∧ (after (.ctrlSelect false false) (boot 1)).boot.code = 1 := by decide

/-- An empty queue lets the Beat advance once bring-up has begun (log entry 1). -/
theorem test_tick : (match step (boot 1) with | .next t => t.beat | _ => 0) = 1 ∧
    (match step State.reset with | .next t => t.beat | _ => 1) = 0 := by decide

/-- AES-256 on the example of FIPS 197, appendix C.3, and back. -/
theorem test_aes256 :
    let key := upFrom 0 32
    let plain := (upFrom 0 16).map (17 * ·)
    let sealed := [0x8E, 0xA2, 0xB7, 0xCA, 0x51, 0x67, 0x45, 0xBF, 0xEA, 0xFC, 0x49, 0x90, 0x4B, 0x49, 0x60, 0x89]
    aesEncrypt key plain = sealed ∧ aesDecrypt key sealed = plain := by decide +kernel

/-- SHA-256 of "abc" (FIPS 180-4). -/
theorem test_sha256 : (sha256 [0x61, 0x62, 0x63]).map (·.toNat) =
    [0xBA, 0x78, 0x16, 0xBF, 0x8F, 0x01, 0xCF, 0xEA, 0x41, 0x41, 0x40, 0xDE, 0x5D, 0xAE, 0x22, 0x23,
     0xB0, 0x03, 0x61, 0xA3, 0x96, 0x17, 0x7A, 0x9C, 0xB4, 0x10, 0xFF, 0x61, 0xF2, 0x00, 0x15, 0xAD] := by decide +kernel

end Sys2Proof.Tests
end

section
/-! PROOFS. Register x0 and the part right after reset (R9, R247, R343, Table 0.4). -/

namespace Sys2Proof.Machine

/-! ## The x registers of a core -/

@[simp] theorem xr_zero (k : Core) : k.xr 0 = 0 := rfl

@[simp] theorem setX_zero (k : Core) (v : W64) : k.setX 0 v = k := rfl

theorem xr_setX_self (k : Core) {i : Nat} (v : W64) (h : i ≠ 0) : (k.setX i v).xr i = v := by
  simp [Core.setX, Core.xr, h]

theorem xr_setX_ne (k : Core) {i j : Nat} (v : W64) (h : j ≠ i) : (k.setX i v).xr j = k.xr j := by
  by_cases hi : i = 0
  · rw [hi, setX_zero]
  · simp [Core.setX, Core.xr, hi, h]

/-! ## Reads of the part right after reset -/

/-- No register is listed at reset, so each shows the value of the register map. -/
@[simp] theorem reset_reg (off : Nat) : State.reset.reg off = regReset off := rfl

@[simp] theorem reset_core (c : Nat) : State.reset.core c = {} := rfl

@[simp] theorem reset_ring (r : Nat) : State.reset.ring r = {} := rfl

@[simp] theorem reset_event (j : Nat) : State.reset.event j = 0 := rfl

theorem reset_bootState : State.reset.fld Reg.glbState 3 0 = 0 := by decide

theorem reset_sealed : State.reset.sealed = false := by decide

theorem fresh_xr (j : Nat) : ({} : Core).xr j = 0 := by
  simp [Core.xr]

/-- Settles O59: each table of the reset state lists nothing, so a read of it answers the default (the model's
choice where the spec gives no value, logs 3 to 5), and a write of an x register is read back unless it is of x0. -/
theorem resetStateAndRegisterZero : Obligations.ResetStateAndRegisterZero := by
  unfold Obligations.ResetStateAndRegisterZero
  refine ⟨⟨reset_reg, reset_bootState, rfl, rfl, rfl, rfl, fun c => ⟨rfl, fun j => ?_⟩, fun _ => rfl, reset_event, rfl, rfl, rfl, rfl,
    reset_sealed, rfl, rfl⟩, fun k v i => ⟨xr_zero k, setX_zero k v, fun hi _ => ?_, fun j hj => xr_setX_ne k v hj⟩⟩
  · rw [reset_core, fresh_xr]
  · exact xr_setX_self k v (by omega)

end Sys2Proof.Machine
end

section
/-! PROOFS. What a write of a register does: the plain registers, the posted writes and the denials (R10 to R12, R251,
R252, R254). -/

namespace Sys2Proof.Machine

/-! ## A register without a meaning of its own -/

/-- The registers that have a meaning of their own and stand in none of the blocks that `plainReg` leaves out. -/
def ownRegs : List Nat :=
  [Reg.glbXlatCmd, Reg.mbxSel, Reg.beatSsSendHi, Reg.escEvtHi, Reg.escChainLo, Reg.escChainHi, Reg.cruPartition,
   Reg.cruWipe, Reg.cruCacheCtl, Reg.runJobSet, Reg.trnCtl, Reg.sprApCtl, Reg.sprApBase, Reg.sprIntEoi,
   Reg.rglWindow, Reg.rglCap, Reg.rsrReset, Reg.rsrFlood, Reg.asyCmd, Reg.cntLatchHi, Reg.rrCtl, Reg.rrBaseLo,
   Reg.rrBaseHi, Reg.rrSize, Reg.rrVcMask, Reg.rrStart, Reg.rrEnd, Reg.rrSideLo, Reg.rrSideHi]

/-- A plain register lies in no block whose registers have a meaning of their own, and is none of the single ones. -/
theorem plainReg_apart {off : Nat} (h : plainReg off = true) :
    ((off < 0x210000 ∨ 0x214000 ≤ off) ∧ (off < 0x280000 ∨ 0x2C0000 ≤ off) ∧ (off < 0x300000 ∨ 0x301000 ≤ off) ∧
      (off < 0x410000 ∨ 0x414000 ≤ off) ∧ (off < 0x420000 ∨ 0x422000 ≤ off) ∧ (off < 0x800000 ∨ 0x900000 ≤ off) ∧
      (off < 0x900100 ∨ 0x900200 ≤ off) ∧ (off < 0x900800 ∨ 0x900840 ≤ off) ∧ (off < 0xA00020 ∨ 0xA00040 ≤ off) ∧
      (off < 0xE10000 ∨ 0xE20000 ≤ off)) ∧ off ∉ ownRegs := by
  simpa [plainReg, ownRegs, and_assoc] using h

theorem regPut_eq_oneWrite {off : Nat} (h : plainReg off = true) (rq : Requester) (ext : Ext) (good : Nat) (v : W32) (s : State) :
    regPut rq ext good off v s = oneWrite ext good off v s := by
  obtain ⟨⟨h1, h2, h3, h4, h5, h6, h7, -, h9, h10⟩, hown⟩ := plainReg_apart h
  have hx : off ≠ Reg.glbXlatCmd := by rintro rfl; exact hown (by decide)
  have hin : asyInBusy s off = false := by
    simp [asyInBusy]
    omega
  unfold regPut
  rw [if_neg hx, hin, if_neg Bool.false_ne_true, if_neg (by omega), if_neg (by omega), if_neg (by omega), if_neg (by omega),
    if_neg (by omega), if_neg (by omega), if_neg (by omega), if_neg (by omega)]

/-- The registers of the record log that are written only in MODE OFF are no plain ones (Table 11.11). -/
theorem rrFixed_own : rrFixed ⊆ ownRegs := by decide

theorem oneWrite_eq_plainWrite {off : Nat} (h : plainReg off = true) (ext : Ext) (good : Nat) (v : W32) (s : State) :
    oneWrite ext good off v s = plainWrite off v s := by
  obtain ⟨⟨-, -, -, -, -, -, -, htrn, -, -⟩, hown⟩ := plainReg_apart h
  have htrn' : ¬(0x0900800 ≤ off ∧ off < 0x0900840) := by omega
  have hfix : off ∉ rrFixed := fun hm => hown (rrFixed_own hm)
  simp only [ownRegs, List.mem_cons, not_or] at hown
  simp [oneWrite, hown, htrn', hfix]

theorem regPut_plain {off : Nat} (h : plainReg off = true) (rq : Requester) (ext : Ext) (good : Nat) (v : W32) :
    regPut rq ext good off v = plainWrite off v :=
  funext fun s => (regPut_eq_oneWrite h rq ext good v s).trans (oneWrite_eq_plainWrite h ext good v s)

/-- A value lies in the range stated for a register, if one is stated (R251). -/
def InStatedRange (off : Nat) (v : W32) : Prop :=
  ∀ hi lo least most, regRange off = some (hi, lo, least, most) → least ≤ bits v.toNat hi lo ∧ bits v.toNat hi lo ≤ most

theorem plainWrite_inRange {off : Nat} {v : W32} (h : InStatedRange off v) : plainWrite off v = storeReg off v := by
  funext s
  unfold plainWrite
  split
  next hi lo least most hr =>
    obtain ⟨hl, hm⟩ := h hi lo least most hr
    exact if_neg (by omega)
  next => rfl

theorem plainWrite_outOfRange {off : Nat} {v : W32} (h : ¬ InStatedRange off v) : plainWrite off v = rangeDrop := by
  funext s
  unfold plainWrite
  split
  next hi lo least most hr =>
    refine if_pos (Classical.byContradiction fun hin => h fun hi' lo' least' most' hr' => ?_)
    rw [hr] at hr'
    cases hr'
    omega
  next hr => exact absurd (fun _ _ _ _ h' => by simp [hr] at h') h

/-- REGISTER_WRITE is a write at the requester's port (R251). -/
theorem exec_registerWrite (rq : Requester) (off : Nat) (v : W32) (good : Nat) (ext : Ext) (s : State) :
    exec (.registerWrite rq off v good ext) s = .next (writeGate rq off v (regPut rq ext good off v) s) := rfl

/-- An admitted write of a plain register performs what `plainWrite` has become for its value. -/
theorem registerWrite_plain {s : State} {rq : Requester} {off : Nat} {v : W32} {go : State → State} (good : Nat) (ext : Ext)
    (hp : plainReg off = true) (ha : Admitted s rq off v) (hgo : plainWrite off v = go) :
    Performs s rq (.registerWrite rq off v good ext) go :=
  performs_of ha (by rw [exec_registerWrite, regPut_plain hp, hgo])

/-- REG_WR is the register write of the companion (Table 7.2). -/
theorem regWr_eq_registerWrite (s : State) (kernel : Bool) (off : Nat) (v : W32) (good : Nat) (ext : Ext) :
    exec (.regWr kernel off v good ext) s = exec (.registerWrite (.sprue kernel) off v good ext) s := rfl

theorem regWr_plain {s : State} {kernel : Bool} {off : Nat} {v : W32} {go : State → State} (good : Nat) (ext : Ext)
    (hp : plainReg off = true) (ha : Admitted s (.sprue kernel) off v) (hgo : plainWrite off v = go) :
    Performs s (.sprue kernel) (.regWr kernel off v good ext) go :=
  registerWrite_plain good ext hp ha hgo

/-! ## Denials -/

/-- A denial counted and flagged (R254). -/
def denyCounted (sprue write : Bool) (s : State) : State :=
  let s := s.addSat Reg.glbDenyCount 1
  let s := if sprue then s.count 0x187 1 else s
  s.setFlag Reg.glbAccessStatus (if write then 1 else 0)

/-- A denial recorded in GLB_DENY_ADDR; no other is until a read arms the recording again (R254). -/
def denyRecorded (record : W32) (s : State) : State := { s.setReg Reg.glbDenyAddr record with denyArmed := false }

/-- A denial before its error log (R254): it is counted and flagged, and recorded while that is armed. -/
def denyNote (cls : Nat) (sprue write isReg : Bool) (off : Nat) (s : State) : State :=
  if isReg = true ∧ (denyCounted sprue write s).denyArmed = true then
    denyRecorded (BitVec.ofNat 32 (off % 2 ^ 28 + (b2n write) <<< 29 + cls <<< 30)) (denyCounted sprue write s)
  else denyCounted sprue write s

theorem deny_eq_errLog (cls : Nat) (sprue write isReg : Bool) (off : Nat) (s : State) :
    deny cls sprue write isReg off s =
      errLog 0x44 0x900 (off % 2 ^ 32 + cls <<< 32 + (b2n write) <<< 40) (denyNote cls sprue write isReg off s) := rfl

theorem denyCounted_touches (sprue write : Bool) (s : State) :
    ∃ r c, denyCounted sprue write s = { s with regs := r, ctr := c } := by
  cases sprue
  · exact ⟨_, _, rfl⟩
  · exact ⟨_, _, rfl⟩

theorem denyCounted_reg (sprue write : Bool) (s : State) (o : Nat) : (denyCounted sprue write s).reg o =
    ((s.addSat Reg.glbDenyCount 1).setFlag Reg.glbAccessStatus (if write then 1 else 0)).reg o := by
  cases sprue
  · rfl
  · rfl

theorem denyRecorded_touches (record : W32) (s : State) :
    ∃ r, denyRecorded record s = { s with regs := r, denyArmed := false } := ⟨_, rfl⟩

theorem denyRecorded_reg (record : W32) (s : State) {o : Nat} (ho : o ≠ Reg.glbDenyAddr) :
    (denyRecorded record s).reg o = s.reg o := reg_setReg_ne s record ho

theorem denyNote_touches (cls : Nat) (sprue write isReg : Bool) (off : Nat) (s : State) :
    ∃ r c a, denyNote cls sprue write isReg off s = { s with regs := r, ctr := c, denyArmed := a } := by
  obtain ⟨r, c, e⟩ := denyCounted_touches sprue write s
  unfold denyNote
  rw [e]
  split
  · obtain ⟨r', e'⟩ := denyRecorded_touches (BitVec.ofNat 32 (off % 2 ^ 28 + (b2n write) <<< 29 + cls <<< 30))
      { s with regs := r, ctr := c }
    exact ⟨r', c, false, e'⟩
  · exact ⟨r, c, s.denyArmed, rfl⟩

theorem denyNote_reg (cls : Nat) (sprue write isReg : Bool) (off : Nat) (s : State) {o : Nat} (ho : o ≠ Reg.glbDenyAddr) :
    (denyNote cls sprue write isReg off s).reg o =
      ((s.addSat Reg.glbDenyCount 1).setFlag Reg.glbAccessStatus (if write then 1 else 0)).reg o := by
  rw [← denyCounted_reg sprue write s o]
  unfold denyNote
  split
  · exact denyRecorded_reg _ _ ho
  · rfl

theorem denyNote_reg_ne (cls : Nat) (sprue write isReg : Bool) (off : Nat) (s : State) {o : Nat} (hc : o ≠ Reg.glbDenyCount)
    (hs : o ≠ Reg.glbAccessStatus) (ha : o ≠ Reg.glbDenyAddr) : (denyNote cls sprue write isReg off s).reg o = s.reg o := by
  rw [denyNote_reg _ _ _ _ _ _ ha, reg_setFlag_ne _ _ hs]
  exact reg_setReg_ne _ _ hc

theorem denyNote_count (cls : Nat) (sprue write isReg : Bool) (off : Nat) (s : State) :
    (denyNote cls sprue write isReg off s).reg Reg.glbDenyCount =
      BitVec.ofNat 32 (satAdd 32 (s.reg Reg.glbDenyCount).toNat 1) := by
  rw [denyNote_reg _ _ _ _ _ _ (by decide), reg_setFlag_ne _ _ (by decide)]
  exact reg_setReg_self _ _ _

theorem denyNote_flag (cls : Nat) (sprue isReg : Bool) (off : Nat) (s : State) :
    (denyNote cls sprue true isReg off s).flag Reg.glbAccessStatus 1 = true := by
  rw [flag_reg (denyNote_reg _ _ _ _ _ _ (by decide))]
  exact flag_setFlag_self _ _ _ (by decide)

/-- An error log to a disabled queue is at most held: nothing else of the part changes (R67, R88). -/
theorem errLog_disabled {s : State} (h : nqEnabled s (s.fld Reg.rsrCtl 11 6) = false) (type source payload : Nat) :
    ∃ l, errLog type source payload s = { s with held := l } := by
  unfold errLog postNotice
  split
  · exact ⟨_, rfl⟩
  · exact ⟨s.held, by simp [nqPost, h]⟩

/-- The queue that takes the error logs is enabled after a denial if it was before. -/
theorem denyNote_logQueue (cls : Nat) (sprue write isReg : Bool) (off : Nat) (s : State) :
    let t := denyNote cls sprue write isReg off s
    nqEnabled t (t.fld Reg.rsrCtl 11 6) = nqEnabled s (s.fld Reg.rsrCtl 11 6) := by
  have hctl : (denyNote cls sprue write isReg off s).reg Reg.rsrCtl = s.reg Reg.rsrCtl :=
    denyNote_reg_ne _ _ _ _ _ _ (by decide) (by decide) (by decide)
  have hnq (q : Nat) : (denyNote cls sprue write isReg off s).reg (Reg.nqCtl q) = s.reg (Reg.nqCtl q) :=
    denyNote_reg_ne _ _ _ _ _ _ (by simp [Reg.nqCtl, Reg.glbDenyCount]; omega) (by simp [Reg.nqCtl, Reg.glbAccessStatus]; omega)
      (by simp [Reg.nqCtl, Reg.glbDenyAddr]; omega)
  simp only [nqEnabled, State.fld, State.flag, hctl, hnq]

/-- A denial whose error log finds no queue leaves its note, and the log is at most held. -/
theorem deny_unlogged {s : State} (h : nqEnabled s (s.fld Reg.rsrCtl 11 6) = false) (cls : Nat) (sprue write isReg : Bool)
    (off : Nat) : ∃ l, deny cls sprue write isReg off s = { denyNote cls sprue write isReg off s with held := l } := by
  rw [deny_eq_errLog]
  exact errLog_disabled ((denyNote_logQueue cls sprue write isReg off s).trans h) _ _ _

/-- A write of a requester that does not reach a register's class is a denial (R10, R11). -/
theorem registerWrite_denied {s : State} {rq : Requester} {off : Nat} {d : RegDesc} (hrq : isSprue rq = false)
    (hsize : badSize off = false) (hd : regPresent s off = some d) (hcls : admits s rq d.cls = false) (v : W32) (good : Nat)
    (ext : Ext) : exec (.registerWrite rq off v good ext) s = .next (deny (classOf s rq) false true true off s) := by
  have hseen : regSeen rq 0x15 0 off v.toNat s = s := by
    cases rq with
    | sprue k => cases hrq
    | _ => rfl
  simp [exec_registerWrite, writeGate, hrq, hseen, replayDenies, writeAccess, hsize, hd, hcls]

/-! ## Posted writes -/

/-- RWP_WRITE_DONE ends a posted write (R252). -/
theorem exec_rwpWriteDone (off : Nat) (ext : Ext) (s : State) : exec (.rwpWriteDone off ext) s = .next (postedDone ext off s) := rfl

/-- Taking effect, a posted write of a register without a meaning at that moment stores its writable bits (R252). -/
theorem postedApply_store (ext : Ext) {off : Nat} (v : W32) {s : State} (hlink : off < 0x800000 ∨ 0x900000 ≤ off)
    (hap : off = Reg.sprApCtl → s.win.lines = []) : postedApply ext off v s = storeReg off v s := by
  unfold postedApply
  split
  next hoff =>
    subst hoff
    obtain ⟨r, p, e⟩ := storeReg_touches Reg.sprApCtl v s
    have hwin : windowLines (storeReg Reg.sprApCtl v s) = [] := by simp [windowLines, e, hap rfl]
    simp [apCtlApply, hwin, forEach]
  next => exact if_neg (by omega)

theorem rwpWriteDone_posted {s : State} {off : Nat} {v : W32} (ext : Ext) (hp : s.posted = [(off, v)])
    (hown : ownDone s off = false) (hlink : off < 0x800000 ∨ 0x900000 ≤ off) (hap : off = Reg.sprApCtl → s.win.lines = []) :
    exec (.rwpWriteDone off ext) s = .next (storeReg off v { s with posted := [] }) := by
  rw [← postedApply_store ext v hlink (s := { s with posted := [] }) hap]
  simp [exec_rwpWriteDone, postedDone, hown, hp, eraseFirst]

theorem rwpWriteDone_nothing {s : State} (off : Nat) (ext : Ext) (hp : s.posted = []) : exec (.rwpWriteDone off ext) s = .next s := by
  simp [exec_rwpWriteDone, postedDone, hp]

/-- Settles O35: a plain register's write comes down to `plainWrite`, which stores or drops by the stated range; a
denial leaves its note alone, since its log finds no queue; and a posted write is stored when it takes effect. -/
theorem registerWrites : Obligations.RegisterWrites := by
  unfold Obligations.RegisterWrites
  intro s rq off good v kernel ext d inRange _
  refine ⟨fun hp ha hr => registerWrite_plain good ext hp ha (plainWrite_inRange hr),
    fun hp ha hr => registerWrite_plain good ext hp ha (plainWrite_outOfRange hr),
    fun hp ha hr => regWr_plain good ext hp ha (plainWrite_inRange hr),
    fun hp ha hr => regWr_plain good ext hp ha (plainWrite_outOfRange hr),
    regWr_eq_registerWrite s kernel off v good ext, ?_,
    rwpWriteDone_posted ext, rwpWriteDone_nothing off ext⟩
  intro hrq hsize hd hcls hlog hcount hstatus haddr
  obtain ⟨l, hdeny⟩ := deny_unlogged hlog (classOf s rq) false true true off
  obtain ⟨r, c, a, hnote⟩ := denyNote_touches (classOf s rq) false true true off s
  refine ⟨_, registerWrite_denied hrq hsize hd hcls v good ext, ?_⟩
  rw [hdeny]
  exact ⟨denyNote_reg_ne _ _ _ _ _ _ hcount hstatus haddr, by rw [hnote], by rw [hnote], by rw [hnote],
    denyNote_flag _ _ _ _ _, denyNote_count _ _ _ _ _ _⟩

end Sys2Proof.Machine
end

section
/-! PROOFS. What the Regulator's shared operations do: fields of a register, notices and logs, Risers that come in or are
advised, an uncontained fault without a job, and the end of a repair window (R22, R423, R431 to R433, R441 to R446). -/

namespace Sys2Proof.Machine

/-! ## Fields of a register -/

theorem bits_eq_div (v hi lo : Nat) : bits v hi lo = v / 2 ^ lo % 2 ^ (hi + 1 - lo) := by
  rw [bits, Nat.shiftRight_eq_div_pow]

/-- A field does not see the bits above it. -/
theorem bits_mod_two_pow (v : Nat) {hi lo n : Nat} (h : hi < n) : bits (v % 2 ^ n) hi lo = bits v hi lo := by
  refine Nat.eq_of_testBit_eq fun i => ?_
  simp only [bits, Nat.testBit_mod_two_pow, Nat.testBit_shiftRight]
  by_cases hi' : i < hi + 1 - lo
  · simp [hi', show lo + i < n by omega]
  · simp [hi']

/-- What replacing a field leaves: the bits above it, the value's low bits in it, and the bits below it. -/
theorem putBits_eq (v hi lo x : Nat) : putBits v hi lo x =
    2 ^ lo * (2 ^ (hi + 1 - lo) * (v / 2 ^ lo / 2 ^ (hi + 1 - lo)) + x % 2 ^ (hi + 1 - lo)) + v % 2 ^ lo := by
  have hlow := Nat.div_add_mod v (2 ^ lo)
  have hfld := Nat.div_add_mod (v / 2 ^ lo) (2 ^ (hi + 1 - lo))
  rw [putBits, bits_eq_div, Nat.shiftLeft_eq, Nat.shiftLeft_eq]
  generalize v / 2 ^ lo / 2 ^ (hi + 1 - lo) = above at *
  generalize v / 2 ^ lo % 2 ^ (hi + 1 - lo) = old at *
  have hv : v = 2 ^ lo * (2 ^ (hi + 1 - lo) * above) + old * 2 ^ lo + v % 2 ^ lo := by
    rw [← hfld, Nat.mul_add, Nat.mul_comm (2 ^ lo) old] at hlow
    exact hlow.symm
  rw [Nat.mul_add, Nat.mul_comm (2 ^ lo) (x % _)]
  omega

theorem bits_putBits_self {v hi lo x : Nat} (hx : x < 2 ^ (hi + 1 - lo)) : bits (putBits v hi lo x) hi lo = x := by
  rw [bits_eq_div, putBits_eq, Nat.mul_add_div (Nat.two_pow_pos lo), Nat.div_eq_of_lt (Nat.mod_lt _ (Nat.two_pow_pos lo)),
    Nat.add_zero, Nat.mul_add_mod, Nat.mod_mod, Nat.mod_eq_of_lt hx]

theorem bits_putBits_below (v x : Nat) {hi lo hi' lo' : Nat} (h : hi' < lo) : bits (putBits v hi lo x) hi' lo' = bits v hi' lo' := by
  rw [← bits_mod_two_pow (putBits v hi lo x) h, putBits_eq, Nat.mul_add_mod, Nat.mod_mod, bits_mod_two_pow v h]

theorem fld_setFld (s : State) (o x : Nat) {hi lo hi' lo' : Nat} (h : hi' < 32) :
    (s.setFld o hi lo x).fld o hi' lo' = bits (putBits (s.reg o).toNat hi lo x) hi' lo' := by
  rw [State.fld, State.setFld, reg_setReg_self, BitVec.toNat_ofNat, bits_mod_two_pow _ h]

theorem fld_setFld_self (s : State) (o : Nat) {hi lo x : Nat} (h : hi < 32) (hx : x < 2 ^ (hi + 1 - lo)) :
    (s.setFld o hi lo x).fld o hi lo = x := by
  rw [fld_setFld s o x h, bits_putBits_self hx]

theorem fld_setFld_below (s : State) (o x : Nat) {hi lo hi' lo' : Nat} (h : hi < 32) (hb : hi' < lo) (hl : lo ≤ hi) :
    (s.setFld o hi lo x).fld o hi' lo' = s.fld o hi' lo' := by
  rw [fld_setFld s o x (by omega), bits_putBits_below _ _ hb, State.fld]

theorem fld_reg {s t : State} {o : Nat} (h : s.reg o = t.reg o) (hi lo : Nat) : s.fld o hi lo = t.fld o hi lo := by
  simp only [State.fld, h]

theorem reg_setFld_ne (s : State) {o p : Nat} (hi lo x : Nat) (h : p ≠ o) : (s.setFld o hi lo x).reg p = s.reg p :=
  reg_setReg_ne s _ h

/-! ## Notices and logs -/

/-- The cores, the rings, the memory and the Beat stay as they are. -/
def KeepsWork (s t : State) : Prop := t.cores = s.cores ∧ t.rings = s.rings ∧ t.mem = s.mem ∧ t.beat = s.beat

theorem KeepsWork.refl (s : State) : KeepsWork s s := ⟨rfl, rfl, rfl, rfl⟩

theorem KeepsWork.trans {s t u : State} : KeepsWork s t → KeepsWork t u → KeepsWork s u :=
  fun ⟨hcores, hrings, hmem, hbeat⟩ ⟨hcores', hrings', hmem', hbeat'⟩ =>
    ⟨hcores'.trans hcores, hrings'.trans hrings, hmem'.trans hmem, hbeat'.trans hbeat⟩

theorem setReg_keeps (s : State) (o : Nat) (v : W32) : KeepsWork s (s.setReg o v) := ⟨rfl, rfl, rfl, rfl⟩

theorem setFlag_rgl (s : State) (o i : Nat) : (s.setFlag o i).rgl = s.rgl := rfl

theorem clearFlag_rgl (s : State) (o i : Nat) : (s.clearFlag o i).rgl = s.rgl := rfl

theorem setFld_rgl (s : State) (o hi lo x : Nat) : (s.setFld o hi lo x).rgl = s.rgl := rfl

/-- A register of no notice queue, no pending interrupt and no Crucible error: no notice changes it. -/
abbrev NoticeKeeps (o : Nat) : Prop := (o < 0x300000 ∨ 0x301000 ≤ o) ∧ (o < 0xA00040 ∨ 0xA00060 ≤ o) ∧ o ≠ Reg.cruErrStatus

/-- What a notice or an error log can change: the queue that takes it, its interrupt, and the accesses held. -/
structure Noted (s t : State) : Prop where
  touches : ∃ r c n p l, t = { s with regs := r, ctr := c, nqs := n, spr := p, held := l }
  reg : ∀ {o : Nat}, NoticeKeeps o → t.reg o = s.reg o

namespace Noted
variable {s t : State} (h : Noted s t)
include h

theorem keeps : KeepsWork s t := by
  obtain ⟨r, c, n, p, l, rfl⟩ := h.touches
  exact ⟨rfl, rfl, rfl, rfl⟩

theorem rgl : t.rgl = s.rgl := by
  obtain ⟨r, c, n, p, l, rfl⟩ := h.touches
  rfl

theorem boot : t.boot = s.boot := by
  obtain ⟨r, c, n, p, l, rfl⟩ := h.touches
  rfl

/-- The retired pages and the translation stay. -/
theorem pages : t.retired = s.retired ∧ t.xlat = s.xlat := by
  obtain ⟨r, c, n, p, l, rfl⟩ := h.touches
  exact ⟨rfl, rfl⟩

theorem flag {o : Nat} (ho : NoticeKeeps o) (i : Nat) : t.flag o i = s.flag o i := flag_reg (h.reg ho) i

theorem fld {o : Nat} (ho : NoticeKeeps o) (hi lo : Nat) : t.fld o hi lo = s.fld o hi lo := fld_reg (h.reg ho) hi lo

end Noted

theorem rglNotice_noted (type prio payload : Nat) (s : State) : Noted s (rglNotice type prio payload s) :=
  ⟨rglNotice_touches .., rglNotice_reg _ _ _ _⟩

theorem errLog_noted (type source payload : Nat) (s : State) : Noted s (errLog type source payload s) :=
  ⟨errLog_touches .., errLog_reg _ _ _ _⟩

theorem spareNotice_noted (advice : Bool) (kind die index : Nat) (s : State) : Noted s (spareNotice advice kind die index s) :=
  rglNotice_noted ..

theorem cruHolds_reg {s t : State} (h : t.reg Reg.cruStatus = s.reg Reg.cruStatus) : cruHolds t = cruHolds s := by
  simp only [cruHolds, fld_reg h]

/-- Nothing waits, or what waits waits for the Crucible. -/
def NoneReleased (s : State) : Prop := s.held = [] ∨ cruHolds s = true

theorem raiseInt_held (v : Nat) (s : State) : (raiseInt v s).held = s.held := by
  obtain ⟨r, c, p, e⟩ := raiseInt_touches v s
  rw [e]

/-- A notice waits only while the Crucible holds accesses. -/
theorem rglNotice_held (type prio payload : Nat) {s : State} (h : NoneReleased s) : NoneReleased (rglNotice type prio payload s) := by
  have hold : cruHolds (rglNotice type prio payload s) = cruHolds s := cruHolds_reg (rglNotice_reg _ _ _ _ (by decide))
  by_cases hc : cruHolds s = true
  · exact .inr (hold.trans hc)
  · obtain ⟨r, c, n, p, e⟩ := nqPost_touches (s.fld Reg.rglCtl 5 0) 0x200 false type prio payload s
    have hpost : (postNotice (s.fld Reg.rglCtl 5 0) 0x200 false type prio payload s).held = s.held := by
      rw [postNotice, if_neg hc, e]
    refine .inl (Eq.trans ?_ (h.resolve_right hc))
    unfold rglNotice
    dsimp only
    split
    · rw [raiseInt_held, hpost]
    · exact hpost

/-! ## Risers -/

theorem addEntry_rgl (e : RecEntry) (s : State) :
    (addEntry e s).rgl = { s.rgl with entries := s.rgl.entries ++ [e], recordDue := s.beat } := rfl

theorem addEntry_keeps (e : RecEntry) (s : State) : KeepsWork s (addEntry e s) := ⟨rfl, rfl, rfl, rfl⟩

theorem addEntry_unsaved (e : RecEntry) (s : State) : (addEntry e s).flag Reg.rsrStatus 7 = true :=
  flag_setFlag_self _ _ _ (by decide)

theorem addEntry_reg_ne (e : RecEntry) (s : State) {o : Nat} (h : o ≠ Reg.rsrStatus) : (addEntry e s).reg o = s.reg o :=
  reg_setFlag_ne _ _ h

theorem riserIn_rgl (kind die index : Nat) (s : State) : (riserIn kind die index s).rgl = { s.rgl with
    entries := s.rgl.entries ++ [{ kind := kind, fused := false, die := die, index := index, detail := 0 }]
    recordDue := s.beat } := by
  have hn := spareNotice_noted false kind die index s
  obtain ⟨-, -, -, hbeat⟩ := hn.keeps
  rw [riserIn, addEntry_rgl, hn.rgl, hbeat]

theorem riserIn_keeps (kind die index : Nat) (s : State) : KeepsWork s (riserIn kind die index s) :=
  (spareNotice_noted false kind die index s).keeps.trans (addEntry_keeps _ _)

theorem riserIn_unsaved (kind die index : Nat) (s : State) : (riserIn kind die index s).flag Reg.rsrStatus 7 = true :=
  addEntry_unsaved _ _

theorem riserIn_reg_ne (kind die index : Nat) (s : State) {o : Nat} (hn : NoticeKeeps o) (h : o ≠ Reg.rsrStatus) :
    (riserIn kind die index s).reg o = s.reg o := by
  rw [riserIn, addEntry_reg_ne _ _ h, (spareNotice_noted ..).reg hn]

theorem riserIn_held (kind die index : Nat) {s : State} (h : NoneReleased s) : NoneReleased (riserIn kind die index s) :=
  (rglNotice_held 0x71 3 (kind + die <<< 8 + index <<< 32) h).imp id
    ((cruHolds_reg (addEntry_reg_ne _ _ (by decide))).trans ·)

theorem advises_keeps {s t : State} (h : Advises s t) : KeepsWork s t := by
  obtain ⟨r, ct, n, p, g, f, l, rfl⟩ := h
  exact ⟨rfl, rfl, rfl, rfl⟩

/-- A request for a window joins the pending ones (R442). -/
theorem requestFor_asks (riser kind die index : Nat) (s : State) :
    (requestFor riser kind die index s).flag Reg.rglStatus 5 = true ∧
    (requestFor riser kind die index s).rgl.entries = s.rgl.entries ∧
    ∃ est, (requestFor riser kind die index s).rgl.reqs = s.rgl.reqs ++
      [{ id := s.rgl.nextId, kind := kind, die := die, index := index, est := est, riser := riser }] := by
  unfold requestFor
  dsimp only
  have hn := rglNotice_noted 0x73 3 (s.draw.2.rgl.nextId + kind <<< 16 + die <<< 24 + index <<< 32 + (s.draw.1.toNat % 2 ^ 16) <<< 64)
  refine ⟨((hn _).flag (by decide) 5).trans (flag_setFlag_self _ _ _ (by decide)), ?_, s.draw.1.toNat % 2 ^ 16, ?_⟩
  · rw [(hn _).rgl]
    rfl
  · rw [(hn _).rgl]
    rfl

/-- The window that advice asks for, while no other request is pending (R441). -/
theorem advise_asks (riser die index : Nat) {s : State} (h : s.rgl.reqs = []) :
    (advise riser die index s).rgl.entries = s.rgl.entries ∧ (advise riser die index s).flag Reg.rglStatus 5 = true ∧
    ∃ est, (advise riser die index s).rgl.reqs =
      [{ id := s.rgl.nextId, kind := 0, die := die, index := index, est := est, riser := riser }] := by
  have hrgl := (spareNotice_noted true riser die index s).rgl
  unfold advise
  dsimp only
  rw [hrgl, h, List.any_nil, if_neg Bool.false_ne_true]
  obtain ⟨hflag, hentries, est, hreqs⟩ := requestFor_asks riser 0 die index (spareNotice true riser die index s)
  refine ⟨by rw [hentries, hrgl], hflag, est, ?_⟩
  rw [hreqs, hrgl, h, List.nil_append]

/-! ## An uncontained fault without a job -/

theorem beginFlood_noJob {s : State} (h : s.fld Reg.runJob 15 0 = 0) (ext : Ext) (cause : Nat) : beginFlood ext cause s = s := if_pos h

/-- Without a job no flood begins: the part is FAULTED, and the fault is logged (R433). -/
theorem uncontained_noJob {s : State} (h : s.fld Reg.runJob 15 0 = 0) (ext : Ext) (item die : Nat) :
    uncontained ext item die s =
      errLog 0x49 0x900 (item + die <<< 8) { s.setFlag Reg.rsrStatus 1 with boot := { s.boot with faultN := true } } := by
  refine beginFlood_noJob ?_ ext 2
  rw [(errLog_noted ..).fld (by decide)]
  exact (fld_setFlag_ne s 1 15 0 (by decide)).trans h

/-- What an uncontained fault without a job changes. -/
theorem uncontained_faults {s : State} (h : s.fld Reg.runJob 15 0 = 0) (ext : Ext) (item die : Nat) :
    let t := uncontained ext item die s
    t.flag Reg.rsrStatus 1 = true ∧ t.boot.faultN = true ∧ t.rgl = s.rgl ∧ KeepsWork s t ∧
      ∀ o, NoticeKeeps o → o ≠ Reg.rsrStatus → t.reg o = s.reg o := by
  rw [uncontained_noJob h]
  have hn := errLog_noted 0x49 0x900 (item + die <<< 8) { s.setFlag Reg.rsrStatus 1 with boot := { s.boot with faultN := true } }
  refine ⟨?_, by rw [hn.boot], hn.rgl, hn.keeps, fun o ho hne => (hn.reg ho).trans (reg_setFlag_ne s 1 hne)⟩
  exact (hn.flag (by decide) 1).trans (flag_setFlag_self s _ 1 (by decide))

/-! ## Repair windows -/

theorem activeWindow_of_begun {s : State} {g : RepairWindow} {rest : List RepairWindow} {b : W64} (hg : s.rgl.grants = g :: rest)
    (hb : g.ends = some b) : activeWindow s = some g := by
  rw [activeWindow, hg, List.find?_cons_of_pos (by rw [hb]; rfl)]

theorem activeWindow_none {s : State} (h : ∀ y ∈ s.rgl.grants, y.ends = none) : activeWindow s = none := by
  rw [activeWindow, List.find?_eq_none]
  intro y hy
  simp [h y hy]

theorem releaseStack_none {s : State} (h : NoneReleased s) : releaseStack s = s := by
  unfold releaseStack
  split
  next => rfl
  next hc =>
    have hh : s.held = [] := h.resolve_right hc
    rw [hh]
    cases s
    subst hh
    rfl

/-- How a window shows its end (R444): QUIET is clear, and RGL_WINDOW_STATUS names the result and no request. -/
theorem windowResult_shows (id : Nat) {result : Nat} (s : State) (h : result < 2 ^ 8) :
    let t := windowResult id result s
    t.flag Reg.rglStatus 6 = false ∧ t.fld Reg.rglWindowStatus 15 8 = result ∧ t.fld Reg.rglWindowStatus 31 16 = 0 ∧
      t.rgl = s.rgl ∧ KeepsWork s t := by
  unfold windowResult
  dsimp only
  have hn := rglNotice_noted 0x74 3 (id + result <<< 16)
    (((s.setFld Reg.rglWindowStatus 15 8 result).setFld Reg.rglWindowStatus 31 16 0).clearFlag Reg.rglStatus 6)
  refine ⟨?_, ?_, ?_, ?_, (((setReg_keeps ..).trans (setReg_keeps ..)).trans (setReg_keeps ..)).trans hn.keeps⟩
  · rw [hn.flag (by decide), flag_clearFlag_self _ _ _ (by decide)]
  · rw [hn.fld (by decide), fld_clearFlag_ne _ _ _ _ (by decide), fld_setFld_below _ _ _ (by decide) (by decide) (by decide),
      fld_setFld_self _ _ (by decide) h]
  · rw [hn.fld (by decide), fld_clearFlag_ne _ _ _ _ (by decide), fld_setFld_self _ _ (by decide) (by decide)]
  · rw [hn.rgl, clearFlag_rgl, setFld_rgl, setFld_rgl]

/-- The first of the granted windows has begun, and no other is for its request. -/
structure Begun (s : State) (g : RepairWindow) (rest : List RepairWindow) (b : W64) : Prop where
  grants : s.rgl.grants = g :: rest
  ends : g.ends = some b
  others : ∀ y ∈ rest, y.req.id ≠ g.req.id

theorem Begun.active {s : State} {g : RepairWindow} {rest : List RepairWindow} {b : W64} (h : Begun s g rest b) :
    activeWindow s = some g := activeWindow_of_begun h.grants h.ends

/-- A window has ended: its grant is gone, QUIET is clear, and RGL_WINDOW_STATUS names the result and no request. -/
def WindowEnded (rest : List RepairWindow) (result : Nat) (t : State) : Prop :=
  t.rgl.grants = rest ∧ t.flag Reg.rglStatus 6 = false ∧ t.fld Reg.rglWindowStatus 15 8 = result ∧
    t.fld Reg.rglWindowStatus 31 16 = 0

/-- The end of a window shows its result and takes it from the grants; its request goes when the repair is done. -/
theorem endWindow_ends {s : State} {g : RepairWindow} {rest : List RepairWindow} {b : W64} {result : Nat} (h : Begun s g rest b)
    (hh : NoneReleased s) (hr : result < 2 ^ 8) :
    let t := endWindow g result s
    WindowEnded rest result t ∧
      t.rgl.reqs = (if result = 1 then s.rgl.reqs.filter (fun q => q.id != g.req.id) else s.rgl.reqs) ∧
      t.rgl.entries = s.rgl.entries ∧ KeepsWork s t := by
  have hrest : (s.rgl.grants.filter fun x => x.req.id != g.req.id) = rest := by
    rw [h.grants, List.filter_cons_of_neg (by simp), List.filter_eq_self]
    exact fun y hy => bne_iff_ne.mpr (h.others y hy)
  have hstack : releaseStack { s with rgl := { s.rgl with grants := rest } } = { s with rgl := { s.rgl with grants := rest } } :=
    releaseStack_none hh
  unfold endWindow
  dsimp only
  rw [hrest, hstack]
  split
  next =>
    split
    next =>
      obtain ⟨hflag, hres, hid, hrgl, hkeep⟩ := windowResult_shows g.req.id
        (State.clearFlag { s with rgl := { s.rgl with grants := rest, reqs := s.rgl.reqs.filter fun q => q.id != g.req.id } }
          Reg.rglStatus 5) hr
      exact ⟨⟨by rw [hrgl]; rfl, hflag, hres, hid⟩, by rw [hrgl]; rfl, by rw [hrgl]; rfl, hkeep⟩
    next =>
      obtain ⟨hflag, hres, hid, hrgl, hkeep⟩ := windowResult_shows g.req.id
        { s with rgl := { s.rgl with grants := rest, reqs := s.rgl.reqs.filter fun q => q.id != g.req.id } } hr
      exact ⟨⟨by rw [hrgl], hflag, hres, hid⟩, by rw [hrgl], by rw [hrgl], hkeep⟩
  next =>
    obtain ⟨hflag, hres, hid, hrgl, hkeep⟩ := windowResult_shows g.req.id { s with rgl := { s.rgl with grants := rest } } hr
    exact ⟨⟨by rw [hrgl], hflag, hres, hid⟩, by rw [hrgl], by rw [hrgl], hkeep⟩

end Sys2Proof.Machine
end

section
/-! PROOFS. The Regulator's rows (R22, R424, R429, R431 to R446): each lemma says what one command answers under the
conditions of one clause. -/

namespace Sys2Proof.Machine

/-- A command answers a state of which `p` holds, with the cores, the rings, the memory and the Beat as they were. -/
def AnswersKeeping (s : State) (i : Instr) (p : State → Prop) : Prop := ∃ t, exec i s = .next t ∧ p t ∧ KeepsWork s t

/-! ## Samples and decisions (R435 to R440) -/

theorem exec_regulatorSample (s : State) (watts : Nat) {die : Nat} (x : DieSample) (h : die < 64) :
    exec (.regulatorSample watts [(die, x)]) s = .next { s.setFld Reg.rglPower 12 0 watts with
      rgl := { s.rgl with tele := Tab.modify {} s.rgl.tele die fun t =>
        { t with junction := x.junction, current := x.current, corrected := x.corrected, margin := x.margin, wear := x.wear } } } :=
  congrArg Host.Outcome.next (if_neg (show ¬64 ≤ die by omega))

theorem regulatorSample_shows (s : State) {watts die : Nat} (x : DieSample) (hw : watts < 2 ^ 13) (hd : die < 64) :
    AnswersKeeping s (.regulatorSample watts [(die, x)]) fun t => t.fld Reg.rglPower 12 0 = watts ∧
      (Tab.get {} t.rgl.tele die).junction = x.junction ∧ (Tab.get {} t.rgl.tele die).current = x.current ∧
      (Tab.get {} t.rgl.tele die).corrected = x.corrected ∧ (Tab.get {} t.rgl.tele die).margin = x.margin ∧
      (Tab.get {} t.rgl.tele die).wear = x.wear ∧
      (Tab.get {} t.rgl.tele die).fuses = (Tab.get {} s.rgl.tele die).fuses ∧
      (Tab.get {} t.rgl.tele die).rate = (Tab.get {} s.rgl.tele die).rate ∧
      ∀ j, j ≠ die → Tab.get {} t.rgl.tele j = Tab.get {} s.rgl.tele j := by
  refine ⟨_, exec_regulatorSample s watts x hd, ⟨fld_setFld_self s _ (by decide) hw, ?_⟩, ⟨rfl, rfl, rfl, rfl⟩⟩
  simp only [Tab.get_modify_self, true_and]
  exact fun j hj => Tab.get_modify_ne hj

/-- What a report of a rate leaves (R437): the rates last reported, and a notice. -/
structure RatesNoted (s t : State) : Prop where
  keeps : KeepsWork s t
  rgl : ∃ l, t.rgl = { s.rgl with lastRate := l }
  reg : ∀ o, NoticeKeeps o → t.reg o = s.reg o

theorem noteRate_noted (die : Nat) (s : State) : RatesNoted s (noteRate die s) := by
  unfold noteRate
  dsimp only
  split
  · have hn := rglNotice_noted 0x70 0 (die + (Tab.get {} s.rgl.tele die).rate <<< 16 + (Tab.get {} s.rgl.tele die).supply <<< 32)
      { s with rgl := { s.rgl with lastRate := Tab.set 0 s.rgl.lastRate die (Tab.get {} s.rgl.tele die).rate } }
    exact ⟨hn.keeps, ⟨_, hn.rgl⟩, fun o ho => hn.reg ho⟩
  · exact ⟨KeepsWork.refl s, ⟨_, rfl⟩, fun _ _ => rfl⟩

theorem noteRates_noted (dies : List Nat) (s : State) : RatesNoted s (forEach noteRate dies s) := by
  refine forEach_keeps (RatesNoted s) (fun die u hu => ?_) dies s ⟨KeepsWork.refl s, ⟨_, rfl⟩, fun _ _ => rfl⟩
  obtain ⟨l, hl⟩ := hu.rgl
  obtain ⟨l', hl'⟩ := (noteRate_noted die u).rgl
  exact ⟨hu.keeps.trans (noteRate_noted die u).keeps, ⟨l', by rw [hl', hl]⟩,
    fun o ho => ((noteRate_noted die u).reg o ho).trans (hu.reg o ho)⟩

/-- A record that is saved is not written (R446). -/
theorem recordIfDue_saved {s : State} (h : s.flag Reg.rsrStatus 7 = false) (ext : Ext) : recordIfDue ext s = s := by
  refine if_neg ?_
  rw [h]
  exact fun hc => Bool.false_ne_true hc.1

/-- A decision in time that sets supplies which the policy admits. -/
theorem exec_regulatorDecide {s : State} {die mv rate : Nat} (ht : 1000000 ≤ (s.beat - s.rgl.decided).toNat)
    (hok : supplyOk s [(die, mv, rate)] (die, mv, rate) = true) (ext : Ext) :
    exec (.regulatorDecide [(die, mv, rate)] true false [] ext) s =
      .next (recordIfDue ext (forEach noteRate (upFrom 0 64)
        (((setSupply (die, mv, rate) { s with rgl := { s.rgl with decided := s.beat } }).setFlag Reg.rglStatus 2).clearFlag
          Reg.rglStatus 3))) := by
  refine congrArg Host.Outcome.next (if_neg ?_)
  simp only [List.all_cons, List.all_nil, hok, Bool.and_true, or_false, Bool.true_eq_false]
  omega

theorem regulatorDecide_sets {s : State} {die mv rate : Nat} (ht : 1000000 ≤ (s.beat - s.rgl.decided).toNat)
    (hok : supplyOk s [(die, mv, rate)] (die, mv, rate) = true) (hsaved : s.flag Reg.rsrStatus 7 = false) (ext : Ext) :
    AnswersKeeping s (.regulatorDecide [(die, mv, rate)] true false [] ext) fun t =>
      t.rgl.decided = s.beat ∧ (Tab.get {} t.rgl.tele die).supply = mv ∧ (Tab.get {} t.rgl.tele die).rate = rate ∧
        t.flag Reg.rglStatus 2 = true ∧ t.flag Reg.rglStatus 3 = false ∧
        ∀ j, j ≠ die → Tab.get {} t.rgl.tele j = Tab.get {} s.rgl.tele j := by
  refine ⟨_, exec_regulatorDecide ht hok ext, ?_⟩
  generalize hu : State.clearFlag _ Reg.rglStatus 3 = u
  obtain ⟨hkeep, ⟨l, hrgl⟩, hreg⟩ := noteRates_noted (upFrom 0 64) u
  have hsaved' : u.flag Reg.rsrStatus 7 = false := by
    rw [← hu, flag_clearFlag_ne _ _ _ (by decide), flag_setFlag_ne _ _ _ (by decide)]
    exact hsaved
  have hu2 : u.flag Reg.rglStatus 2 = true := by
    rw [← hu, flag_clearFlag_bit _ _ _ _ (by decide) (by decide), flag_setFlag_self _ _ _ (by decide)]
  have hu3 : u.flag Reg.rglStatus 3 = false := by
    rw [← hu, flag_clearFlag_self _ _ _ (by decide)]
  have hurgl : u.rgl = (setSupply (die, mv, rate) { s with rgl := { s.rgl with decided := s.beat } }).rgl := by rw [← hu]; rfl
  have huk : KeepsWork s u := by rw [← hu]; exact ⟨rfl, rfl, rfl, rfl⟩
  rw [recordIfDue_saved ((flag_reg (hreg _ (by decide)) 7).trans hsaved')]
  have h2 : (forEach noteRate (upFrom 0 64) u).flag Reg.rglStatus 2 = true := (flag_reg (hreg _ (by decide)) 2).trans hu2
  have h3 : (forEach noteRate (upFrom 0 64) u).flag Reg.rglStatus 3 = false := (flag_reg (hreg _ (by decide)) 3).trans hu3
  refine ⟨?_, huk.trans hkeep⟩
  simp only [h2, h3, hrgl, hurgl, setSupply, Tab.get_modify_self, true_and]
  exact fun j hj => Tab.get_modify_ne hj

theorem regulatorDecide_early {s : State} (h : (s.beat - s.rgl.decided).toNat < 1000000) (ext : Ext) :
    exec (.regulatorDecide [] true true [] ext) s = .next s :=
  congrArg Host.Outcome.next (if_pos (.inl h))

/-! ## Power (R438) -/

/-- A list of a die's cores lose what they hold, and no other core does. -/
theorem zeroCores_touches {die : Nat} (l : List Nat) (s : State) (hl : ∀ c ∈ l, c / 8 = die) :
    ∃ k, forEach (fun c s => s.modCore c fun k => { k.zeroed with planes := [] }) l s = { s with cores := k } ∧
      ∀ c, c / 8 ≠ die → Tab.get {} k c = s.core c := by
  induction l generalizing s with
  | nil => exact ⟨_, rfl, fun _ _ => rfl⟩
  | cons c l ih =>
    obtain ⟨k, hk, hkc⟩ := ih (s.modCore c fun k => { k.zeroed with planes := [] }) fun c' hc' => hl c' (List.mem_cons_of_mem _ hc')
    refine ⟨k, hk, fun j hj => (hkc j hj).trans (core_modCore_ne s _ ?_)⟩
    rintro rfl
    exact hj (hl j (List.mem_cons_self ..))

/-- A die without power: it is listed, and only its own cores lose what they hold. -/
theorem powerOff_touches (die : Nat) (s : State) :
    ∃ k, powerOff die s = { s with rgl := { s.rgl with dark := s.rgl.dark ++ [die] }, cores := k } ∧
      ∀ c, c / 8 ≠ die → Tab.get {} k c = s.core c := by
  unfold powerOff
  dsimp only
  split
  · have hdie : ∀ c ∈ upFrom (8 * die) 8, c / 8 = die := fun c hc => by
      simp only [upFrom, List.mem_cons, List.not_mem_nil, or_false] at hc
      omega
    obtain ⟨k, hk, hkc⟩ := zeroCores_touches _ { s with rgl := { s.rgl with dark := s.rgl.dark ++ [die] } } hdie
    exact ⟨k, hk, hkc⟩
  · exact ⟨s.cores, rfl, fun _ _ => rfl⟩

theorem exec_thermalTrip {s : State} {die junction : Nat} (hd : die < 64) (hj : junctionMax die ≤ junction) (hl : die ∉ s.rgl.dark)
    (ext : Ext) : exec (.thermalTrip die junction ext) s =
      .next (uncontained ext 5 die (rglNotice 0x79 3 (die + junction <<< 16) ((powerOff die s).setFlag Reg.rglStatus 4))) := by
  refine congrArg Host.Outcome.next (if_neg ?_)
  simp only [List.contains_iff_mem, hl, or_false]
  omega

theorem thermalTrip_gates {s : State} {die junction : Nat} (ext : Ext) (hd : die < 64) (hj : junctionMax die ≤ junction)
    (hl : die ∉ s.rgl.dark) (hjob : s.fld Reg.runJob 15 0 = 0) :
    ∃ t, exec (.thermalTrip die junction ext) s = .next t ∧ t.rgl.dark = s.rgl.dark ++ [die] ∧ t.flag Reg.rglStatus 4 = true ∧
      t.flag Reg.rsrStatus 1 = true ∧ t.boot.faultN = true ∧ t.mem = s.mem ∧ t.rings = s.rings := by
  refine ⟨_, exec_thermalTrip hd hj hl ext, ?_⟩
  obtain ⟨k, hoff, -⟩ := powerOff_touches die s
  have hn := rglNotice_noted 0x79 3 (die + junction <<< 16) ((powerOff die s).setFlag Reg.rglStatus 4)
  generalize rglNotice 0x79 3 (die + junction <<< 16) _ = u at hn
  have hjob' : u.fld Reg.runJob 15 0 = 0 := by
    rw [hn.fld (by decide), fld_setFlag_ne _ _ _ _ (by decide), hoff]
    exact hjob
  obtain ⟨-, hrings', hmem', -⟩ := hn.keeps
  obtain ⟨hfaulted, hfault, hrgl, ⟨-, hrings, hmem, -⟩, hreg⟩ := uncontained_faults hjob' ext 5 die
  refine ⟨?_, ?_, hfaulted, hfault, ?_, ?_⟩
  · rw [hrgl, hn.rgl, setFlag_rgl, hoff]
  · rw [flag_reg (hreg _ (by decide) (by decide)), hn.flag (by decide), flag_setFlag_self _ _ _ (by decide)]
  · rw [hmem, hmem', hoff]
    rfl
  · rw [hrings, hrings', hoff]
    rfl

theorem thermalTrip_below (s : State) {die junction : Nat} (h : junction < junctionMax die) (ext : Ext) :
    exec (.thermalTrip die junction ext) s = .next s :=
  congrArg Host.Outcome.next (if_pos (.inr (.inl h)))

theorem exec_idleGate {s : State} {die : Nat} {b : W64} (hb : Tab.get none s.rgl.idleSince die = some b) :
    exec (.idleGate die) s = .next (if policyFlag s 2 = true ∧ die < 32 ∧ dieIdle s die = true ∧ s.rgl.dark.contains die = false
      ∧ 1000 * policyWord s 7 ≤ (s.beat - b).toNat then powerOff die s else s) := by
  change execIdleGate die s = _
  rw [execIdleGate, hb]

theorem idleGate_gates {s : State} {die : Nat} {b : W64} (hb : Tab.get none s.rgl.idleSince die = some b)
    (hp : policyFlag s 2 = true) (hd : die < 32) (hi : dieIdle s die = true) (hl : die ∉ s.rgl.dark)
    (ht : 1000 * policyWord s 7 ≤ (s.beat - b).toNat) :
    ∃ t, exec (.idleGate die) s = .next t ∧ t.rgl.dark = s.rgl.dark ++ [die] ∧
      t = { s with rgl := t.rgl, cores := t.cores } ∧ ∀ c, c / 8 ≠ die → t.core c = s.core c := by
  obtain ⟨k, hoff, hcores⟩ := powerOff_touches die s
  refine ⟨_, (exec_idleGate hb).trans (congrArg Host.Outcome.next (if_pos ⟨hp, hd, hi, by simpa using hl, ht⟩)), ?_⟩
  rw [hoff]
  exact ⟨rfl, rfl, hcores⟩

theorem idleGate_busy {s : State} {die : Nat} (h : Tab.get none s.rgl.idleSince die = none) : exec (.idleGate die) s = .next s := by
  change execIdleGate die s = _
  rw [execIdleGate, h]

theorem diePowerRestored_restores {s : State} {die : Nat} (hl : die ∈ s.rgl.dark) (hd : die < 32) (ht : s.flag Reg.rglStatus 4 = false)
    (hw : dieWanted s die = true) :
    AnswersKeeping s (.diePowerRestored die) fun t =>
      die ∉ t.rgl.dark ∧ t.reloading = s.reloading ++ [(die, s.beat)] ∧ t.regs = s.regs := by
  refine ⟨_, congrArg Host.Outcome.next (if_neg ?_), ⟨?_, rfl, rfl⟩, ⟨rfl, rfl, rfl, rfl⟩⟩
  · have hc : s.rgl.dark.contains die = true := List.contains_iff_mem.mpr hl
    simp only [hc, ht, hw, Bool.true_eq_false, Bool.false_eq_true, false_or, or_false]
    omega
  · simp [List.mem_filter]

theorem diePowerRestored_lit {s : State} {die : Nat} (h : die ∉ s.rgl.dark) : exec (.diePowerRestored die) s = .next s :=
  congrArg Host.Outcome.next (if_pos (.inl (by simpa using h)))

/-! ## Memory and store Risers (R429, R431) -/

theorem exec_bankSpareDone {s : State} {slice bank : Nat} (h : s.rgl.copying = [(slice, bank)]) :
    exec (.bankSpareDone slice) s = .next (riserIn 6 (32 + slice) bank
      { s.setFlag Reg.rsrBanks slice with rgl := { s.rgl with copying := [] } }) := by
  change execBankSpareDone slice s = _
  simp [execBankSpareDone, h, storeDie]

theorem bankSpareDone_switches {s : State} {slice bank : Nat} (hs : slice < 16) (h : s.rgl.copying = [(slice, bank)]) :
    AnswersKeeping s (.bankSpareDone slice) fun t => t.rgl.copying = [] ∧ t.flag Reg.rsrBanks slice = true ∧
      t.flag Reg.rsrStatus 7 = true ∧ t.rgl.entries = s.rgl.entries ++
        [{ kind := 6, fused := false, die := 32 + slice, index := bank, detail := 0 }] := by
  refine ⟨_, exec_bankSpareDone h, ⟨?_, ?_, riserIn_unsaved .., ?_⟩, .trans ?_ (riserIn_keeps ..)⟩
  · rw [riserIn_rgl]
  · rw [flag_reg (riserIn_reg_ne _ _ _ _ (by decide) (by decide))]
    exact flag_setFlag_self s _ _ (by omega)
  · rw [riserIn_rgl]
  · exact ⟨rfl, rfl, rfl, rfl⟩

theorem pageNotice_noted (full : Bool) (page : Nat) (s : State) : Noted s (pageNotice full page s) := rglNotice_noted ..

/-- What the retirement of a page leaves before its notice (R429): the page is listed, no translation leads to it, no request
waits for it, and its entry joins the record. -/
def pageTaken (page : Nat) (s : State) : State :=
  addEntry { kind := 9, fused := false, die := 48 + page / 2 ^ 15, index := page, detail := s.beat.toNat }
    { s with rgl := { s.rgl with pagesDue := s.rgl.pagesDue.filter fun p => p.1 != page }
             retired := s.retired ++ [page]
             xlat := s.xlat.filter fun e => bits e.2.toNat 47 21 != page }

/-- A page whose stack has room is retired. -/
theorem retirePage_eq {s : State} {page : Nat} (hp : page ∉ s.retired) (hroom : (retiredOf s (page / 2 ^ 15)).length < 512) :
    retirePage page s = pageNotice false page (pageTaken page s) :=
  (if_neg (by simpa using hp)).trans (if_neg (show ¬512 ≤ (retiredOf s (page / 2 ^ 15)).length by omega))

theorem exec_retireRequestTimeout {s : State} {page : Nat} {b : W64} (h : s.rgl.pagesDue = [(page, b)]) :
    exec (.retireRequestTimeout page) s = .next (if 10000000000 ≤ (s.beat - b).toNat then retirePage page s else s) := by
  change execRetireRequestTimeout page s = _
  rw [execRetireRequestTimeout, h, List.find?_cons_of_pos (by simp)]
  rfl

theorem retireRequestTimeout_retires {s : State} {page : Nat} {b : W64} (h : s.rgl.pagesDue = [(page, b)])
    (ht : 10000000000 ≤ (s.beat - b).toNat) (hp : page ∉ s.retired)
    (hroom : (s.retired.filter fun p => p / 2 ^ 15 == page / 2 ^ 15).length < 512) :
    AnswersKeeping s (.retireRequestTimeout page) fun t => t.retired = s.retired ++ [page] ∧ t.rgl.pagesDue = [] ∧
      t.xlat = s.xlat.filter fun e => bits e.2.toNat 47 21 != page := by
  have hn := pageNotice_noted false page (pageTaken page s)
  obtain ⟨hret, hxlat⟩ := hn.pages
  refine ⟨_, (exec_retireRequestTimeout h).trans (congrArg Host.Outcome.next (if_pos ht)), ?_⟩
  rw [retirePage_eq hp hroom]
  refine ⟨⟨hret, ?_, hxlat⟩, .trans ?_ hn.keeps⟩
  · rw [hn.rgl, pageTaken, addEntry_rgl, h]
    simp
  · exact ⟨rfl, rfl, rfl, rfl⟩

theorem retireRequestTimeout_early {s : State} {page : Nat} {b : W64} (h : s.rgl.pagesDue = [(page, b)])
    (ht : (s.beat - b).toNat < 10000000000) : exec (.retireRequestTimeout page) s = .next s :=
  (exec_retireRequestTimeout h).trans (congrArg Host.Outcome.next (if_neg (by omega)))

/-! ## Gate wires (R22, R432) -/

/-- A wire of a gate fails: the group has used up its spares, or one comes in or is advised. -/
theorem exec_gateWireFail (s : State) {die : Nat} (wire : Nat) (hd : die < 64) (ext : Ext) :
    exec (.gateWireFail die wire ext) s = .next (if 4 ≤ wiresUsed s die (wire / 68) then
        uncontained ext 0 die (errLog 0x43 0x900 (die + (wire / 68 % 256) <<< 8 + 1 <<< 16) s)
      else if policyFlag s 0 then wireIn die wire s else advise 12 die wire s) :=
  congrArg Host.Outcome.next (if_neg (show ¬64 ≤ die by omega))

/-- A spare wire of a group that already uses one: RSR_GATES stays (R22). -/
theorem wireIn_again {s : State} {die wire : Nat} (h : 0 < wiresUsed s die (wire / 68)) :
    wireIn die wire s = riserIn 12 die wire (errLog 0x43 0x900 (die + (wire / 68 % 256) <<< 8) s) := by
  unfold wireIn
  dsimp only
  rw [if_neg (show wiresUsed s die (wire / groupWires) ≠ 0 from Nat.ne_of_gt h)]
  rfl

theorem gateWireFail_spare {s : State} {die wire : Nat} (ext : Ext) (hd : die < 64) (h0 : 0 < wiresUsed s die (wire / 68))
    (h4 : wiresUsed s die (wire / 68) < 4) (hp : policyFlag s 0 = true) :
    AnswersKeeping s (.gateWireFail die wire ext) fun t =>
      t.rgl.entries = s.rgl.entries ++ [{ kind := 12, fused := false, die := die, index := wire, detail := 0 }] ∧
      t.flag Reg.rsrStatus 7 = true ∧ t.fld Reg.rsrGates 15 0 = s.fld Reg.rsrGates 15 0 := by
  refine ⟨wireIn die wire s, ?_, ?_⟩
  · rw [exec_gateWireFail s wire hd, if_neg (by omega), if_pos hp]
  · rw [wireIn_again h0]
    have hn := errLog_noted 0x43 0x900 (die + (wire / 68 % 256) <<< 8) s
    refine ⟨⟨?_, riserIn_unsaved .., ?_⟩, hn.keeps.trans (riserIn_keeps ..)⟩
    · rw [riserIn_rgl, hn.rgl]
    · exact fld_reg ((riserIn_reg_ne _ _ _ _ (by decide) (by decide)).trans (hn.reg (by decide))) 15 0

theorem gateWireFail_advised {s : State} {die wire : Nat} (ext : Ext) (hd : die < 64) (h4 : wiresUsed s die (wire / 68) < 4)
    (hp : policyFlag s 0 = false) (hr : s.rgl.reqs = []) :
    AnswersKeeping s (.gateWireFail die wire ext) fun t => t.rgl.entries = s.rgl.entries ∧ t.flag Reg.rglStatus 5 = true ∧
      ∃ est, t.rgl.reqs = [{ id := s.rgl.nextId, kind := 0, die := die, index := wire, est := est, riser := 12 }] := by
  refine ⟨advise 12 die wire s, ?_, advise_asks 12 die wire hr, advises_keeps (advise_touches 12 die wire s)⟩
  rw [exec_gateWireFail s wire hd, if_neg (by omega), hp, if_neg Bool.false_ne_true]

theorem gateWireFail_exhausted {s : State} {die wire : Nat} (ext : Ext) (hd : die < 64) (h4 : 4 ≤ wiresUsed s die (wire / 68))
    (hjob : s.fld Reg.runJob 15 0 = 0) :
    AnswersKeeping s (.gateWireFail die wire ext) fun t => t.flag Reg.rsrStatus 1 = true ∧ t.boot.faultN = true ∧
      t.rgl.entries = s.rgl.entries := by
  have hn := errLog_noted 0x43 0x900 (die + (wire / 68 % 256) <<< 8 + 1 <<< 16) s
  obtain ⟨hfaulted, hfault, hrgl, hkeep, -⟩ := uncontained_faults ((hn.fld (by decide) 15 0).trans hjob) ext 0 die
  refine ⟨_, (exec_gateWireFail s wire hd ext).trans (congrArg Host.Outcome.next (if_pos h4)), ⟨hfaulted, hfault, ?_⟩,
    hn.keeps.trans hkeep⟩
  rw [hrgl, hn.rgl]

/-! ## Repair windows (R442 to R444) -/

/-- The word of RGL_WINDOW: the request's id above the duration. -/
def windowWord (id ms : Nat) : W32 := BitVec.ofNat 32 (id * 2 ^ 16 + ms)

theorem windowWord_toNat {id ms : Nat} (hid : id < 2 ^ 16) (hms : ms < 2 ^ 16) : (windowWord id ms).toNat = id * 2 ^ 16 + ms :=
  Nat.mod_eq_of_lt (by omega)

theorem windowWord_id {id ms : Nat} (hid : id < 2 ^ 16) (hms : ms < 2 ^ 16) : bits (windowWord id ms).toNat 31 16 = id := by
  rw [windowWord_toNat hid hms, bits_eq_div]
  omega

theorem windowWord_ms {id ms : Nat} (hid : id < 2 ^ 16) (hms : ms < 2 ^ 16) : bits (windowWord id ms).toNat 15 0 = ms := by
  rw [windowWord_toNat hid hms, bits_eq_div]
  omega

/-- A write of RGL_WINDOW with a duration acts as `windowWrite` on a state that only counts it. -/
theorem windowGrant_performs {s : State} {rq : Requester} {id ms : Nat} (ha : Admitted s rq Reg.rglWindow (windowWord id ms))
    (hid : id < 2 ^ 16) (hms : ms < 2 ^ 16) (h0 : 0 < ms) :
    Performs s rq (.windowGrant rq (windowWord id ms)) (windowWrite (windowWord id ms)) := by
  refine performs_of ha (congrArg Host.Outcome.next (if_neg ?_))
  rw [windowWord_toNat hid hms]
  omega

/-- A grant names a pending request of the id that no window has. -/
theorem windowWrite_pending {s : State} {v : W32} {q : RepairReq} (h0 : bits v.toNat 15 0 ≠ 0)
    (hf : (s.rgl.reqs.find? fun q => q.id == bits v.toNat 31 16 && !(s.rgl.grants.any fun g => g.req.id == bits v.toNat 31 16)) = some q)
    (hlim : bits v.toNat 15 0 ≤ policyWord s 8) :
    windowWrite v s = { (postWrite Reg.rglWindow v s).clearFlag Reg.rglWindowStatus 0 with
      rgl := { s.rgl with grants := s.rgl.grants ++ [{ req := q, ms := bits v.toNat 15 0, ends := none }] } } := by
  unfold windowWrite
  dsimp only
  rw [if_neg h0, show (postWrite Reg.rglWindow v s).rgl = s.rgl from rfl, hf]
  dsimp only
  rw [if_neg (show ¬policyWord (postWrite Reg.rglWindow v s) 8 < bits v.toNat 15 0 from Nat.not_lt.mpr hlim),
    Nat.min_eq_left (show _ ≤ policyWord (postWrite Reg.rglWindow v s) 8 from hlim)]
  rfl

theorem windowWrite_unknown {s : State} {v : W32} (h0 : bits v.toNat 15 0 ≠ 0) (h : ∀ q ∈ s.rgl.reqs, q.id ≠ bits v.toNat 31 16) :
    windowWrite v s = (postWrite Reg.rglWindow v s).setFld Reg.rglWindowStatus 15 8 3 := by
  have hf : (s.rgl.reqs.find? fun q => q.id == bits v.toNat 31 16 &&
      !(s.rgl.grants.any fun g => g.req.id == bits v.toNat 31 16)) = none := by
    rw [List.find?_eq_none]
    intro q hq
    simp [h q hq]
  unfold windowWrite
  dsimp only
  rw [if_neg h0, show (postWrite Reg.rglWindow v s).rgl = s.rgl from rfl, hf]

/-- A duration of 0 ends the active window, if the id is its own. -/
theorem windowWrite_ends {s : State} {v : W32} {g : RepairWindow} (h0 : bits v.toNat 15 0 = 0) (ha : activeWindow s = some g)
    (hid : g.req.id = bits v.toNat 31 16) : windowWrite v s = endWindow g 4 (postWrite Reg.rglWindow v s) := by
  unfold windowWrite
  dsimp only
  rw [if_pos h0, show activeWindow (postWrite Reg.rglWindow v s) = some g from ha]
  exact if_pos hid

/-- The only pending request of an id, which no window has, is the one that a grant finds. -/
theorem find_pending {reqs : List RepairReq} {grants : List RepairWindow} {id : Nat} {q : RepairReq} (hq : q ∈ reqs) (hid : q.id = id)
    (huniq : ∀ y ∈ reqs, y.id = id → y = q) (hfree : ∀ y ∈ grants, y.req.id ≠ id) :
    (reqs.find? fun q => q.id == id && !(grants.any fun g => g.req.id == id)) = some q := by
  have hnone : (grants.any fun g => g.req.id == id) = false := by
    rw [List.any_eq_false]
    exact fun y hy => by simpa using hfree y hy
  rw [hnone]
  cases hf : reqs.find? fun q => q.id == id && !false with
  | none => exact absurd hid (by simpa using List.find?_eq_none.mp hf q hq)
  | some y => rw [huniq y (List.mem_of_find?_eq_some hf) (by simpa using List.find?_some hf)]

theorem windowGrant_queues {s : State} {rq : Requester} {id ms : Nat} {q : RepairReq} (hq : q ∈ s.rgl.reqs) (hqid : q.id = id)
    (huniq : ∀ y ∈ s.rgl.reqs, y.id = id → y = q) (hfree : ∀ y ∈ s.rgl.grants, y.req.id ≠ id)
    (ha : Admitted s rq Reg.rglWindow (windowWord id ms)) (hid : id < 2 ^ 16) (hms : ms < 2 ^ 16) (h0 : 0 < ms)
    (hlim : ms ≤ policyWord s 8) :
    AnswersKeeping s (.windowGrant rq (windowWord id ms)) fun t =>
      t.rgl.grants = s.rgl.grants ++ [{ req := q, ms := ms, ends := none }] ∧ t.rgl.reqs = s.rgl.reqs ∧
        t.flag Reg.rglWindowStatus 0 = false := by
  obtain ⟨ctr, -, hexec⟩ := windowGrant_performs ha hid hms h0
  have hword := windowWord_ms hid hms
  have hfind := find_pending hq hqid huniq hfree
  rw [← windowWord_id hid hms] at hfind
  have hgrant := windowWrite_pending (s := { s with ctr := ctr }) (v := windowWord id ms) (by omega) hfind
    (Nat.le_trans (Nat.le_of_eq hword) hlim)
  refine ⟨_, hexec.trans (congrArg Host.Outcome.next hgrant), ⟨by rw [hword], rfl, ?_⟩, ⟨rfl, rfl, rfl, rfl⟩⟩
  exact flag_clearFlag_self _ _ _ (by decide)

theorem windowGrant_unknown {s : State} {rq : Requester} {id ms : Nat} (ha : Admitted s rq Reg.rglWindow (windowWord id ms))
    (hid : id < 2 ^ 16) (hms : ms < 2 ^ 16) (h0 : 0 < ms) (hnone : ∀ q ∈ s.rgl.reqs, q.id ≠ id) :
    AnswersKeeping s (.windowGrant rq (windowWord id ms)) fun t => t.fld Reg.rglWindowStatus 15 8 = 3 ∧ t.rgl = s.rgl := by
  obtain ⟨ctr, -, hexec⟩ := windowGrant_performs ha hid hms h0
  have hword := windowWord_ms hid hms
  have hid' := windowWord_id hid hms
  refine ⟨_, hexec.trans (congrArg Host.Outcome.next (windowWrite_unknown (by omega) (hid'.symm ▸ hnone))),
    ⟨?_, setFld_rgl ..⟩, .trans ?_ (setReg_keeps ..)⟩
  · exact fld_setFld_self _ _ (by decide) (by decide)
  · exact ⟨rfl, rfl, rfl, rfl⟩

theorem exec_windowBegin {s : State} {g : RepairWindow} {rest : List RepairWindow} (h : s.rgl.grants = g :: rest) :
    exec .windowBegin s = .next (if (activeWindow s).isSome = true ∨ unitQuiet s g.req = false then s else
      (State.setFlag { s with rgl := { s.rgl with
        grants := { g with ends := some (s.beat + BitVec.ofNat 64 (1000000 * g.ms)) } :: rest } } Reg.rglStatus 6).setFld
          Reg.rglWindowStatus 31 16 g.req.id) := by
  change execWindowBegin s = _
  rw [execWindowBegin, h]

theorem windowBegin_begins {s : State} {g : RepairWindow} {rest : List RepairWindow} (h : s.rgl.grants = g :: rest)
    (hnone : ∀ y ∈ s.rgl.grants, y.ends = none) (hq : unitQuiet s g.req = true) (hid : g.req.id < 2 ^ 16) :
    AnswersKeeping s .windowBegin fun t =>
      t.rgl.grants = { g with ends := some (s.beat + BitVec.ofNat 64 (1000000 * g.ms)) } :: rest ∧
        t.flag Reg.rglStatus 6 = true ∧ t.fld Reg.rglWindowStatus 31 16 = g.req.id := by
  refine ⟨_, (exec_windowBegin h).trans (congrArg Host.Outcome.next (if_neg ?_)), ⟨?_, ?_, ?_⟩,
    .trans ?_ ((setReg_keeps ..).trans (setReg_keeps ..))⟩
  · rw [activeWindow_none hnone, hq]
    simp
  · rw [setFld_rgl, setFlag_rgl]
  · rw [flag_reg (reg_setFld_ne _ _ _ _ (by decide)), flag_setFlag_self _ _ _ (by decide)]
  · exact fld_setFld_self _ _ (by decide) hid
  · exact ⟨rfl, rfl, rfl, rfl⟩

/-- The core whose operand buffer holds the row of a request (KIND 3, INDEX slot · 256 + row). -/
def rowCore (q : RepairReq) : Nat := q.die * 8 + q.index / 256 % 8

/-- An adder self-test (KIND 5) changes nothing that the model holds. -/
theorem repairDone_adderTest {q : RepairReq} (hk : q.kind = 5) (ext : Ext) (s : State) : repairDone ext q [] [] s = s := by
  simp only [repairDone, hk]

/-- A spare row of the operand buffer (KIND 3) comes in while the core has one. -/
theorem repairDone_obRow {q : RepairReq} (hk : q.kind = 3) (hr : q.riser = 0) {s : State}
    (hu : obUsed s (dieOf (rowCore q)) (rowCore q % 8) < 8) (ext : Ext) :
    repairDone ext q [] [] s = riserIn 5 (dieOf (rowCore q)) q.index s := by
  have hc : reqCore q = some (rowCore q) := by simp [reqCore, rowCore, hk, hr]
  simp only [repairDone, hk, hc]
  exact if_pos hu

section
variable {s : State} {g : RepairWindow} {rest : List RepairWindow} {b : W64} (h : Begun s g rest b)
include h

theorem windowBegin_active : exec .windowBegin s = .next s := by
  refine (exec_windowBegin h.grants).trans (congrArg Host.Outcome.next (if_pos (.inl ?_)))
  rw [h.active]
  rfl

theorem exec_repairDone (ok : Bool) (ext : Ext) : exec (.repairDone ok [] [] ext) s =
    .next (if ok then endWindow g 1 (repairDone ext g.req [] [] s) else endWindow g 4 s) := by
  change execRepairDone ok [] [] ext s = _
  rw [execRepairDone, h.active]

theorem repairDone_tested (hh : s.held = []) (hk : g.req.kind = 5) (ext : Ext) :
    AnswersKeeping s (.repairDone true [] [] ext) fun t => WindowEnded rest 1 t ∧
      t.rgl.reqs = s.rgl.reqs.filter fun q => q.id != g.req.id := by
  obtain ⟨hend, hreqs, -, hkeep⟩ := endWindow_ends (result := 1) h (.inl hh) (by decide)
  refine ⟨_, exec_repairDone h true ext, ?_⟩
  rw [repairDone_adderTest hk]
  exact ⟨⟨hend, hreqs⟩, hkeep⟩

theorem repairDone_spareRow (hh : s.held = []) (hk : g.req.kind = 3) (hr : g.req.riser = 0)
    (hu : obUsed s (dieOf (rowCore g.req)) (rowCore g.req % 8) < 8) (ext : Ext) :
    AnswersKeeping s (.repairDone true [] [] ext) fun t => WindowEnded rest 1 t ∧ t.rgl.entries = s.rgl.entries ++
      [{ kind := 5, fused := false, die := dieOf (rowCore g.req), index := g.req.index, detail := 0 }] := by
  have hrgl := riserIn_rgl 5 (dieOf (rowCore g.req)) g.req.index s
  have hbegun : Begun (riserIn 5 (dieOf (rowCore g.req)) g.req.index s) g rest b :=
    ⟨by rw [hrgl, h.grants], h.ends, h.others⟩
  obtain ⟨hend, -, hentries, hkeep⟩ := endWindow_ends (result := 1) hbegun (riserIn_held _ _ _ (.inl hh)) (by decide)
  refine ⟨_, exec_repairDone h true ext, ?_⟩
  rw [repairDone_obRow hk hr hu]
  exact ⟨⟨hend, by rw [if_pos rfl, hentries, hrgl]⟩, (riserIn_keeps ..).trans hkeep⟩

theorem repairDone_failed (hh : s.held = []) (ext : Ext) :
    AnswersKeeping s (.repairDone false [] [] ext) fun t => WindowEnded rest 4 t ∧ t.rgl.reqs = s.rgl.reqs := by
  obtain ⟨hend, hreqs, -, hkeep⟩ := endWindow_ends (result := 4) h (.inl hh) (by decide)
  exact ⟨_, exec_repairDone h false ext, ⟨hend, hreqs⟩, hkeep⟩

theorem exec_windowExpire : exec .windowExpire s = .next (if b.toNat ≤ s.beat.toNat then endWindow g 2 s else s) := by
  change execWindowExpire s = _
  rw [execWindowExpire, h.active]
  dsimp only
  rw [h.ends]

theorem windowExpire_ends (hh : s.held = []) (hb : b.toNat ≤ s.beat.toNat) :
    AnswersKeeping s .windowExpire fun t => WindowEnded rest 2 t ∧ t.rgl.reqs = s.rgl.reqs := by
  obtain ⟨hend, hreqs, -, hkeep⟩ := endWindow_ends (result := 2) h (.inl hh) (by decide)
  exact ⟨_, (exec_windowExpire h).trans (congrArg Host.Outcome.next (if_pos hb)), ⟨hend, hreqs⟩, hkeep⟩

theorem windowExpire_early (hb : s.beat.toNat < b.toNat) : exec .windowExpire s = .next s :=
  (exec_windowExpire h).trans (congrArg Host.Outcome.next (if_neg (by omega)))

theorem windowEndRequest_ends {rq : Requester} (hh : s.held = [])
    (ha : Admitted s rq Reg.rglWindow (windowWord g.req.id 0)) (hid : g.req.id < 2 ^ 16) :
    AnswersKeeping s (.windowEndRequest rq g.req.id) fun t => WindowEnded rest 4 t ∧ t.rgl.reqs = s.rgl.reqs := by
  have hexec : exec (.windowEndRequest rq g.req.id) s =
      .next (writeGate rq Reg.rglWindow (windowWord g.req.id 0) (windowWrite (windowWord g.req.id 0)) s) := by
    change execWindowEndRequest rq g.req.id s = _
    simp only [execWindowEndRequest, windowWord, Nat.mod_eq_of_lt hid, Nat.add_zero]
  obtain ⟨ctr, -, hperf⟩ := performs_of ha hexec
  rw [windowWrite_ends (s := { s with ctr := ctr }) (windowWord_ms hid (by decide)) h.active
    (windowWord_id hid (by decide)).symm] at hperf
  have hbegun : Begun (postWrite Reg.rglWindow (windowWord g.req.id 0) { s with ctr := ctr }) g rest b :=
    ⟨h.grants, h.ends, h.others⟩
  obtain ⟨hend, hreqs, -, hkeep⟩ := endWindow_ends (result := 4) hbegun (.inl hh) (by decide)
  exact ⟨_, hperf, ⟨hend, hreqs⟩, hkeep⟩

end

/-! ## The Riser record (R446) -/

/-- A record that is due, and that Assay can sign where it has to, is written. -/
theorem recordIfDue_due {s : State} (hf : s.flag Reg.rsrStatus 7 = true) (hd : s.rgl.recordDue.toNat ≤ s.beat.toNat)
    (hs : recordSeed s = none ∨ s.assay.op = none) (ext : Ext) : recordIfDue ext s = recordWrite ext (recordSeed s) s := by
  refine if_pos ⟨hf, hd, ?_⟩
  rcases hs with h | h
  · rw [h]; rfl
  · rw [h]; exact Bool.and_false _

theorem recordData_length_ne_zero (s : State) (seed : Option W384) : (recordData s seed).length ≠ 0 := by
  cases seed with
  | none => simp [recordData, recordBytes]
  | some k => simp [recordData, recordBytes]

/-- A companion that maps nothing answers no sector. -/
theorem extAnswer_unmapped (u : Nat) : (extAnswer {} u).toOption.isNone = true := rfl

theorem unitsOf_cons (g a : Nat) {n : Nat} (h : n ≠ 0) : ∃ u l, unitsOf g a n = u :: l := by
  rw [unitsOf, if_neg h]
  exact ⟨_, _, rfl⟩

theorem recordRetry_refused {s : State} (hf : s.flag Reg.rsrStatus 7 = true) (hd : s.rgl.recordDue.toNat ≤ s.beat.toNat)
    (hs : recordSeed s = none ∨ s.assay.op = none) :
    exec (.recordRetry {}) s = .next { s with rgl := { s.rgl with recordDue := s.beat + 1000000000 } } := by
  refine congrArg Host.Outcome.next ((recordIfDue_due hf hd hs {}).trans (if_pos ?_))
  obtain ⟨u, l, hu⟩ := unitsOf_cons 64 (recordHome s) (recordData_length_ne_zero s (recordSeed s))
  rw [hu, List.any_cons, extAnswer_unmapped, Bool.true_or]

/-- What a request of the companion and a change of the window's lines can write. -/
def SprueWrites (s t : State) : Prop := ∃ c p w, t = { s with ctr := c, spr := p, win := w }

theorem SprueWrites.refl (s : State) : SprueWrites s s := ⟨_, _, _, rfl⟩

theorem SprueWrites.trans {s t u : State} (h : SprueWrites s t) (h' : SprueWrites t u) : SprueWrites s u := by
  obtain ⟨c, p, w, rfl⟩ := h
  obtain ⟨c', p', w', rfl⟩ := h'
  exact ⟨c', p', w', rfl⟩

theorem sprRequest_writes (w : SprWait) (s : State) : SprueWrites s (sprRequest w s) := by
  unfold sprRequest
  split
  next tag _ =>
    obtain ⟨c, p, e⟩ := sprSend_touches { w.msg with tag := tag, trailer := s.sealsOffset w.msg.addr } { s with spr := { s.spr with
      reqs := Tab.set none s.spr.reqs tag (some { opc := w.msg.opc, addr := w.msg.addr, waiters := w.waiters, snooped := false,
                                                  sentAt := s.beat, dead := false })
      nextTag := (tag + 1) % 8192 } }
    exact ⟨c, p, s.win, e⟩
  next => exact ⟨_, _, _, rfl⟩

theorem dropSector_writes (a : Nat) (s : State) : SprueWrites s (dropSector a s) := by
  unfold dropSector
  dsimp only
  split
  · exact sprRequest_writes _ _
  · exact sprRequest_writes _ _
  · exact SprueWrites.refl s

theorem modLine_writes (a : Nat) (f : WLine → WLine) (s : State) : SprueWrites s (s.modLine a f) := ⟨_, _, _, rfl⟩

theorem sendPartial_writes (mask bad : Nat → Bool) (a n : Nat) (data : List Byte) (u : Nat) (s : State) :
    SprueWrites s (sendPartial mask bad a n data u s) := by
  unfold sendPartial
  dsimp only
  split
  · exact sprRequest_writes _ _
  · exact sprRequest_writes _ _

theorem SprueWrites.reg {s t : State} (h : SprueWrites s t) (o : Nat) : t.reg o = s.reg o := by
  obtain ⟨c, p, w, rfl⟩ := h
  rfl

theorem SprueWrites.keeps {s t : State} (h : SprueWrites s t) : KeepsWork s t := by
  obtain ⟨c, p, w, rfl⟩ := h
  exact ⟨rfl, rfl, rfl, rfl⟩

/-- A record that the companion takes goes out, and is then saved under the next generation, with a notice. -/
theorem recordWrite_eq {s : State} {ext : Ext} (seed : Option W384)
    (h : ∀ u ∈ unitsOf 64 (recordHome s) (recordData s seed).length, ∃ d, extAnswer ext u = .ok d) :
    ∃ u n, SprueWrites s u ∧ recordWrite ext seed s =
      rglNotice 0x77 3 n ((u.setReg Reg.rsrRecordGen (u.reg Reg.rsrRecordGen + 1)).clearFlag Reg.rsrStatus 7) := by
  have hok : ((unitsOf 64 (recordHome s) (recordData s seed).length).any fun u => (extAnswer ext u).toOption.isNone) = false := by
    rw [List.any_eq_false]
    intro u hu
    obtain ⟨d, hd⟩ := h u hu
    rw [hd]
    exact Bool.false_ne_true
  unfold recordWrite
  dsimp only
  rw [hok, if_neg Bool.false_ne_true]
  refine ⟨_, _, ?_, rfl⟩
  exact forEach_touches SprueWrites SprueWrites.refl (fun _ _ _ => SprueWrites.trans)
    (fun _ _ => ((dropSector_writes _ _).trans (modLine_writes _ _ _)).trans (sendPartial_writes _ _ _ _ _ _ _)) _ _

theorem recordRetry_saves {s : State} {ext : Ext} (hf : s.flag Reg.rsrStatus 7 = true) (hd : s.rgl.recordDue.toNat ≤ s.beat.toNat)
    (hs : recordSeed s = none ∨ s.assay.op = none)
    (h : ∀ u ∈ unitsOf 64 (recordHome s) (recordData s (recordSeed s)).length, ∃ d, extAnswer ext u = .ok d) :
    ∃ t, exec (.recordRetry ext) s = .next t ∧ t.flag Reg.rsrStatus 7 = false ∧
      t.reg Reg.rsrRecordGen = s.reg Reg.rsrRecordGen + 1 ∧ t.cores = s.cores ∧ t.rings = s.rings := by
  obtain ⟨u, n, hsent, hwrite⟩ := recordWrite_eq (recordSeed s) h
  have hn := rglNotice_noted 0x77 3 n ((u.setReg Reg.rsrRecordGen (u.reg Reg.rsrRecordGen + 1)).clearFlag Reg.rsrStatus 7)
  obtain ⟨hcores, hrings, -⟩ := hsent.keeps.trans (((setReg_keeps ..).trans (setReg_keeps ..)).trans hn.keeps)
  refine ⟨_, congrArg Host.Outcome.next ((recordIfDue_due hf hd hs ext).trans hwrite), ?_, ?_, hcores, hrings⟩
  · rw [hn.flag (by decide), flag_clearFlag_self _ _ _ (by decide)]
  · rw [hn.reg (by decide), reg_clearFlag_ne _ _ (by decide), reg_setReg_self, hsent.reg]

theorem recordRetry_saved {s : State} (h : s.flag Reg.rsrStatus 7 = false) (ext : Ext) : exec (.recordRetry ext) s = .next s :=
  congrArg Host.Outcome.next (recordIfDue_saved h ext)

/-- Settles O56: each clause is the lemma of its command. The clauses about an active window take it apart as `Begun`; the
ends of windows, the request that follows an advice and the numbers of gate wires are the model's choices (logs 139, 140
and 189). -/
theorem regulatorEvents : Obligations.RegulatorEvents := by
  unfold Obligations.RegulatorEvents
  intro s rq ext watts die wire page slice bank id ms x g rest b keeps does tele noJob used request unsaved asks active core ended
  have begun : active → Begun s g rest b := fun ⟨hgrants, hends, hothers, _⟩ => ⟨hgrants, hends, hothers⟩
  have idle : active → s.held = [] := fun ⟨_, _, _, hheld⟩ => hheld
  refine ⟨fun hw hd => regulatorSample_shows s x hw hd, fun mv rate ht hok hs => regulatorDecide_sets ht hok hs ext,
    fun h => regulatorDecide_early h ext, fun hd hj hl hjob => thermalTrip_gates ext hd hj hl hjob,
    fun h => thermalTrip_below s h ext, fun hb hp hd hi hl ht => idleGate_gates hb hp hd hi hl ht, idleGate_busy,
    fun hl hd ht hw => diePowerRestored_restores hl hd ht hw, diePowerRestored_lit, bankSpareDone_switches,
    fun h ht hp hroom => retireRequestTimeout_retires h ht hp hroom, retireRequestTimeout_early,
    fun hd h0 h4 hp => gateWireFail_spare ext hd h0 h4 hp, fun hd h4 hp hr => gateWireFail_advised ext hd h4 hp hr,
    fun hd h4 hjob => gateWireFail_exhausted ext hd h4 hjob,
    fun q ⟨hq, hqid, huniq, hfree⟩ ⟨ha, hid, hms⟩ h0 hlim => windowGrant_queues hq hqid huniq hfree ha hid hms h0 hlim,
    fun ⟨ha, hid, hms⟩ h0 hnone => windowGrant_unknown ha hid hms h0 hnone,
    windowBegin_begins, fun h => windowBegin_active (begun h),
    fun h hk _ => repairDone_tested (begun h) (idle h) hk ext,
    fun h hk hr hu => repairDone_spareRow (begun h) (idle h) hk hr hu ext,
    fun h => repairDone_failed (begun h) (idle h) ext, fun h hb => windowExpire_ends (begun h) (idle h) hb,
    fun h hb => windowExpire_early (begun h) hb, ?_,
    fun ⟨hf, hd, hs⟩ => recordRetry_refused hf hd hs, fun ⟨hf, hd, hs⟩ hok => recordRetry_saves hf hd hs hok,
    fun h => recordRetry_saved h ext⟩
  rintro h rfl ⟨ha, hid, -⟩
  exact windowEndRequest_ends (begun h) (idle h) ha hid

end Sys2Proof.Machine
end

section
/-! PROOFS. The scalar float instructions (R91, R122, R204). -/

namespace Sys2Proof.Machine

/-! ## An instruction that only writes its core -/

/-- An instruction whose body retires it at once, after a change of its core. -/
theorem issue_finishes {s : State} {c len : Nat} {op : CoreOp} {w e : W64} {body : Body} {f : Core → Core} {k : Core}
    (h : Issues s c op w e) (hb : body c w.toNat e.toNat (stepTaken c s) = finish c len f (stepTaken c s))
    (hk : f (s.core c) = k) : issue op body c w e s = s.retiring c len k := by
  rw [issue_eq h, hb, finish_stepTaken c len f s h.free, hk]

/-- The same of one that raises conditions, none of which has its trap enabled (R221). -/
theorem issue_finishesWith {s : State} {c len : Nat} {op : CoreOp} {w e : W64} {body : Body} {f : Core → Core} {cd : Conds}
    {k : Core}
    (h : Issues s c op w e) (hb : body c w.toNat e.toNat (stepTaken c s) = finishWith c len cd f (stepTaken c s))
    (ht : (f (s.core c)).arithTrap cd = false) (hk : (f (s.core c)).raise cd = k) :
    issue op body c w e s = s.retiring c len k := by
  rw [issue_eq h, hb, finishWith_stepTaken c len cd f s h.free ht, hk]

@[simp] theorem arithTrap_setX (k : Core) (r : Nat) (v : W64) (cd : Conds) :
    (k.setX r v).arithTrap cd = k.arithTrap cd := by
  unfold Core.setX
  split <;> rfl

@[simp] theorem arithTrap_setF (k : Core) (r : Nat) (v : W32) (cd : Conds) :
    (k.setF r v).arithTrap cd = k.arithTrap cd := rfl

/-! ## The rows -/

theorem scalarFloatOp_retires {s : State} {c : Nat} {w : W64} (h : Issues s c .scalarFloatOp w 0) :
    let k := s.core c
    let r := floatOp (Iw.fn w.toNat) (k.fr (Iw.ra w.toNat)).toNat (k.fr (Iw.rb w.toNat)).toNat (k.fr (Iw.rc w.toNat)).toNat
    k.arithTrap r.2 = false →
      exec (.scalarFloatOp c w) s = .next (s.retiring c 8 ((k.setF (Iw.rd w.toNat) (BitVec.ofNat 32 r.1)).raise r.2)) :=
  fun ht => congrArg Host.Outcome.next (issue_finishesWith h rfl ht rfl)

theorem fcvtFX_retires {s : State} {c : Nat} {w : W64} (h : Issues s c .fcvtFX w 0) :
    exec (.fcvtFX c w) s = .next (s.retiring c 8 ((s.core c).setF (Iw.rd w.toNat)
      (BitVec.ofNat 32 (FFmt.fp32.rne (Val.ofInt ((s.core c).xr (Iw.ra w.toNat)).toInt)).1))) :=
  congrArg Host.Outcome.next (issue_finishes h rfl rfl)

theorem fcvtXF_retires {s : State} {c : Nat} {w : W64} (h : Issues s c .fcvtXF w 0) :
    let k := s.core c
    let r := (IFmt.mk 64 true).encode .rtz 0 (FFmt.fp32.decode (k.fr (Iw.ra w.toNat)).toNat)
    k.arithTrap r.2 = false →
      exec (.fcvtXF c w) s = .next (s.retiring c 8 ((k.setX (Iw.rd w.toNat) (BitVec.ofNat 64 r.1)).raise r.2)) :=
  fun ht => congrArg Host.Outcome.next (issue_finishesWith h rfl ((arithTrap_setX ..).trans ht) rfl)

theorem fmvXF_retires {s : State} {c : Nat} {w : W64} (h : Issues s c .fmvXF w 0) :
    exec (.fmvXF c w) s = .next (s.retiring c 8
      ((s.core c).setX (Iw.rd w.toNat) (((s.core c).fr (Iw.ra w.toNat)).setWidth 64))) :=
  congrArg Host.Outcome.next (issue_finishes h rfl rfl)

theorem fmvFX_retires {s : State} {c : Nat} {w : W64} (h : Issues s c .fmvFX w 0) :
    exec (.fmvFX c w) s = .next (s.retiring c 8
      ((s.core c).setF (Iw.rd w.toNat) (((s.core c).xr (Iw.ra w.toNat)).setWidth 32))) :=
  congrArg Host.Outcome.next (issue_finishes h rfl rfl)

theorem fcmp_retires {s : State} {c : Nat} {w : W64} (h : Issues s c .fcmp w 0) :
    let k := s.core c
    exec (.fcmp c w) s = .next (s.retiring c 8 (k.setP (Iw.rd w.toNat) (ones (floatCond (Iw.fn w.toNat)
      (FFmt.fp32.decode (k.fr (Iw.ra w.toNat)).toNat) (FFmt.fp32.decode (k.fr (Iw.rb w.toNat)).toNat))))) :=
  congrArg Host.Outcome.next (issue_finishes h rfl rfl)

theorem fli_retires {s : State} {c : Nat} {w : W64} (h : Issues s c .fli w 0) :
    exec (.fli c w) s = .next (s.retiring c 8 ((s.core c).setF (Iw.rd w.toNat) (BitVec.ofNat 32 (Iw.imm32 w.toNat)))) :=
  congrArg Host.Outcome.next (issue_finishes h rfl rfl)

/-- Settles O3: each row's body comes down to one retirement; the two rows that raise conditions raise none whose trap is
enabled. -/
theorem scalarFloatResults : Obligations.ScalarFloatResults := by
  unfold Obligations.ScalarFloatResults
  intro s c w
  exact ⟨fun h => scalarFloatOp_retires h, fun h => fcvtFX_retires h, fun h => fcvtXF_retires h, fun h => fmvXF_retires h,
    fun h => fmvFX_retires h, fun h => fcmp_retires h, fun h => fli_retires h⟩

end Sys2Proof.Machine
end

section
/-! PROOFS. The plain matrix product (R112, R115, R131 to R146, R208). -/

namespace Sys2Proof.Machine

/-! ## Lists of numbers and tables written in a loop -/

theorem mem_upFrom_iff {x n : Nat} : ∀ {a : Nat}, x ∈ upFrom a n ↔ a ≤ x ∧ x < a + n := by
  induction n with
  | zero => intro a; simp [upFrom]
  | succ n ih =>
    intro a
    simp only [upFrom, List.mem_cons, ih]
    omega

theorem getD_map_upFrom {α : Type} (f : Nat → α) (d : α) {n i : Nat} (hi : i < n) : ((upFrom 0 n).map f).getD i d = f i := by
  simp [upFrom_range, List.getD, hi]

/-- A loop of writes leaves at a key what each of its writes to that key writes, and keeps the other keys. -/
theorem Tab.get_foldl_set {α β : Type} [DecidableEq α] {d x : α} {key : β → Nat} {val : β → α} {a : Nat} :
    ∀ (l : List β) (t : Tab α), (∀ b ∈ l, key b = a → val b = x) →
      Tab.get d (l.foldl (fun t b => Tab.set d t (key b) (val b)) t) a = if ∃ b ∈ l, key b = a then x else Tab.get d t a := by
  intro l
  induction l with
  | nil => intro t _; simp
  | cons b l ih =>
    intro t h
    rw [List.foldl_cons, ih _ fun b' hb' => h b' (List.mem_cons_of_mem _ hb')]
    have hcons : (∃ b' ∈ b :: l, key b' = a) ↔ key b = a ∨ ∃ b' ∈ l, key b' = a := by
      simp only [List.mem_cons, or_and_right, exists_or, exists_eq_left]
    simp only [hcons]
    by_cases hl : ∃ b' ∈ l, key b' = a
    · rw [if_pos hl, if_pos (Or.inr hl)]
    · rw [if_neg hl]
      by_cases hb : key b = a
      · rw [if_pos (Or.inl hb), ← h b List.mem_cons_self hb, ← hb, Tab.get_set_self]
      · rw [if_neg (not_or.mpr ⟨hb, hl⟩), Tab.get_set_ne (Ne.symm hb)]

/-! ## The tiles and planes of a core -/

@[simp] theorem tile_setTile_self (k : Core) (t : Nat) (v : Tile) : (k.setTile t v).tile t = v := Tab.get_set_self

@[simp] theorem tile_setTile_ne (k : Core) {t x : Nat} (v : Tile) (h : x ≠ t) : (k.setTile t v).tile x = k.tile x :=
  Tab.get_set_ne h

/-- `n` tiles replaced one after another, the one at `acc + t` by what `f t` makes of it. -/
def replaceTiles (acc : Nat) (f : Nat → Tile → Tile) (l : List Nat) (k : Core) : Core :=
  l.foldl (fun k t => k.setTile (acc + t) (f t (k.tile (acc + t)))) k

theorem replaceTiles_tile (acc : Nat) (f : Nat → Tile → Tile) (x n : Nat) : ∀ (a : Nat) (k : Core),
    (replaceTiles acc f (upFrom a n) k).tile x =
      if acc + a ≤ x ∧ x < acc + a + n then f (x - acc) (k.tile x) else k.tile x := by
  induction n with
  | zero => intro a k; rw [if_neg (by omega)]; rfl
  | succ n ih =>
    intro a k
    refine (ih (a + 1) (k.setTile (acc + a) (f a (k.tile (acc + a))))).trans ?_
    by_cases hx : x = acc + a
    · subst hx
      rw [if_neg (by omega), if_pos (by omega), tile_setTile_self, Nat.add_sub_cancel_left]
    · simp only [tile_setTile_ne k _ hx]
      congr 1
      exact propext (by omega)

theorem replaceTiles_touches (acc : Nat) (f : Nat → Tile → Tile) (l : List Nat) (k : Core) :
    ∃ ts, replaceTiles acc f l k = { k with tiles := ts } := by
  refine List.foldlRecOn (motive := fun (k' : Core) => ∃ ts, k' = { k with tiles := ts }) l _ ⟨k.tiles, rfl⟩ ?_
  rintro _ ⟨ts, rfl⟩ t -
  exact ⟨_, rfl⟩

/-- Loading the weight tiles writes the planes alone. -/
theorem mmPlanes_touches (p : MmPlan) (first : Nat) (k : Core) : ∃ ps, mmPlanes p first k = { k with planes := ps } := by
  unfold mmPlanes
  cases p.dw with
  | none => exact ⟨k.planes, rfl⟩
  | some d =>
    refine List.foldlRecOn (motive := fun (k' : Core) => ∃ ps, k' = { k with planes := ps }) _ _ ⟨k.planes, rfl⟩ ?_
    rintro _ ⟨ps, rfl⟩ i -
    split
    · exact ⟨ps, rfl⟩
    · exact ⟨_, rfl⟩

/-! ## An epilogue that is not there (EPI = 0, Table 6.10) -/

theorem epiCheck_zero (k : Core) (m n : Nat) (trans : Bool) : epiCheck k 0 m n trans = .ok () := rfl

theorem raccDest_zero (s : State) (k : Core) : raccDest s k 0 = .ok () := rfl

theorem readBlocked_idle {k : Core} (h : k.dmaQ = []) (l : List ObRange) : k.readBlocked l = false := by
  simp [Core.readBlocked, Core.obBusy, h]

theorem obPoisoned_clean {k : Core} (h : k.obPoison = []) (a n : Nat) : k.obPoisoned a n = false := by
  simp [Core.obPoisoned, h]

/-- An epilogue that is not there has nothing to wait for but the granules of the operands and room in the queue. -/
theorem epiGate_zero {s : State} {c : Nat} (hd : (s.core c).dmaQ = []) (hq : (s.core c).mxeQ.length < 4)
    (w e2 mr nr : Nat) (obs : List ObRange) (go : State → State) : epiGate c w e2 0 mr nr obs [] go s = go s := by
  have hfull : mxeFull (s.core c) = false := decide_eq_false (Nat.not_le.mpr hq)
  have hreads : epiReads (s.core c) 0 mr nr = [] := rfl
  have hstore : Epi.toStore 0 = false := rfl
  have hoperand : Epi.toOperand 0 = false := rfl
  have hracc : Epi.toRacc 0 = false := rfl
  simp [epiGate, hreads, hstore, hoperand, hracc, readBlocked_idle hd, hfull, rangesTrap, rangesNeed, Core.writeBlocked]

/-- An epilogue that is not there writes nothing, raises nothing and is not refused. -/
theorem runEpilogue_zero (c : Nat) (trans isInt : Bool) (tiles mr nr : Nat) (acc : Nat → Nat → Nat) (s : State) :
    runEpilogue c 0 trans isInt tiles mr nr acc s = (s.setCore c (s.core c), .none, none) := rfl

/-! ## The accumulator tiles of a product -/

/-- The value that an `mm` multiplies with the reduction value `r` of its output `j` (R144). -/
def mmWeight (k : Core) (p : MmPlan) (r j : Nat) : Val := match p.dw with
  | some d => if p.trans then k.obVal d r j else k.obVal d j r
  | none => if p.trans then (k.plane p.reuse).val j r else (k.plane p.reuse).val r j

/-- The same of integer weights. -/
def mmWeightInt (k : Core) (p : MmPlan) (r j : Nat) : Int := match p.dw with
  | some d => if p.trans then k.obInt d r j else k.obInt d j r
  | none => if p.trans then (k.plane p.reuse).int j r else (k.plane p.reuse).int r j

/-- What an element starts from when INIT is not LOAD (Table 6.9): zero, or what its tile holds. -/
def mmStart (k : Core) (p : MmPlan) (w i j : Nat) : Nat :=
  if bits w 38 37 = 0 then 0
  else (Tab.get 0 (k.tile (p.acc + j / p.width)).vals (tilePos p.trans i (j % p.width))).toNat

/-- An element of the product and the conditions it raises. -/
def mmResult (k : Core) (p : MmPlan) (w kr i j : Nat) : Nat × Conds :=
  mmElement p kr (k.obVal p.da) (k.obInt p.da) (mmWeight k p) (mmWeightInt k p) i j (mmStart k p w i j)

/-- The live elements of a product, row by row. -/
def mmResults (k : Core) (p : MmPlan) (w mr nr kr : Nat) : List (List (Nat × Conds)) :=
  (upFrom 0 mr).map fun i => (upFrom 0 nr).map fun j => mmResult k p w kr i j

theorem mmResults_getD {k : Core} {p : MmPlan} {w mr nr kr i j : Nat} (hi : i < mr) (hj : j < nr) :
    ((mmResults k p w mr nr kr).getD i []).getD j (0, .none) = mmResult k p w kr i j := by
  rw [mmResults, getD_map_upFrom _ _ hi, getD_map_upFrom _ _ hj]

/-- The live outputs of accumulator tile `t`: row and output. -/
def liveOutputs (p : MmPlan) (mr nr t : Nat) : List (Nat × Nat) :=
  (upFrom 0 mr).flatMap fun i => ((upFrom (t * p.width) p.width).filter (· < nr)).map fun j => (i, j)

/-- Accumulator tile `t` of a plan, with its live outputs written. -/
def mmTile (p : MmPlan) (mr nr : Nat) (out : Nat → Nat → Nat) (t : Nat) (old : Tile) : Tile :=
  { transposed := p.trans, isInt := p.isInt,
    vals := (upFrom 0 mr).foldl (fun v i => ((upFrom (t * p.width) p.width).filter (· < nr)).foldl (fun v j =>
      Tab.set 0 v (tilePos p.trans i (j % p.width)) (BitVec.ofNat 32 (out i j))) v) old.vals }

/-- Its rows written one after another are its live outputs written one after another. -/
theorem mmTile_vals (p : MmPlan) (mr nr : Nat) (out : Nat → Nat → Nat) (t : Nat) (old : Tile) :
    (mmTile p mr nr out t old).vals = (liveOutputs p mr nr t).foldl
      (fun v x => Tab.set 0 v (tilePos p.trans x.1 (x.2 % p.width)) (BitVec.ofNat 32 (out x.1 x.2))) old.vals := by
  simp only [mmTile, liveOutputs, List.foldl_flatMap, List.foldl_map]

theorem mem_liveOutputs {p : MmPlan} {mr nr t i j : Nat} :
    (i, j) ∈ liveOutputs p mr nr t ↔ i < mr ∧ t * p.width ≤ j ∧ j < t * p.width + p.width ∧ j < nr := by
  simp only [liveOutputs, List.mem_flatMap, List.mem_map, List.mem_filter, mem_upFrom_iff, decide_eq_true_eq, Prod.mk.injEq]
  constructor
  · rintro ⟨i', ⟨-, hi⟩, j', ⟨⟨hlo, hhi⟩, hn⟩, rfl, rfl⟩
    exact ⟨by omega, hlo, hhi, hn⟩
  · rintro ⟨hi, hlo, hhi, hn⟩
    exact ⟨i, ⟨Nat.zero_le _, by omega⟩, j, ⟨⟨hlo, hhi⟩, hn⟩, rfl, rfl⟩

/-- What passes a check is what follows it. -/
theorem of_ite_error {α : Type} {b : Prop} [Decidable b] {e : Nat} {x : Except Nat α} {a : α}
    (h : (if b then .error e else x) = .ok a) : x = .ok a := by
  split at h
  · cases h
  · exact h

theorem mmPlan_width {k : Core} {w : Nat} {p : MmPlan} (h : mmPlan k w = .ok p) : p.width = if p.trans then 256 else 64 := by
  unfold mmPlan at h
  dsimp only at h
  split at h
  · cases h
  · cases h
  · iterate 7 replace h := of_ite_error h
    cases h
    rfl

/-- Elements of one tile lie at different positions (R145). -/
theorem tilePos_inj {trans : Bool} {i j i' j' : Nat} (hj : j < if trans then 256 else 64)
    (hj' : j' < if trans then 256 else 64) :
    tilePos trans i j = tilePos trans i' j' ↔ i = i' ∧ j = j' := by
  cases trans <;> simp only [tilePos, Bool.false_eq_true, if_true, if_false] at * <;> omega

/-- The tile of a product holds the live outputs in their places and keeps everything else. -/
theorem mmTile_get {p : MmPlan} (hw : p.width = if p.trans then 256 else 64) (mr nr : Nat) (out : Nat → Nat → Nat)
    (t : Nat) (old : Tile) (i : Nat) {j : Nat} (hj : j < p.width) :
    Tab.get 0 (mmTile p mr nr out t old).vals (tilePos p.trans i j) =
      if i < mr ∧ t * p.width + j < nr then BitVec.ofNat 32 (out i (t * p.width + j))
      else Tab.get 0 old.vals (tilePos p.trans i j) := by
  have hmod : (t * p.width + j) % p.width = j := by rw [Nat.mul_add_mod_of_lt hj]
  have hkey : ∀ x ∈ liveOutputs p mr nr t, tilePos p.trans x.1 (x.2 % p.width) = tilePos p.trans i j →
      x = (i, t * p.width + j) := by
    rintro ⟨i', j'⟩ hx e
    obtain ⟨-, hlo, hhi, -⟩ := mem_liveOutputs.mp hx
    obtain ⟨j', rfl⟩ := Nat.exists_eq_add_of_le hlo
    have hj' : j' < p.width := by omega
    dsimp only at e
    rw [Nat.mul_add_mod_of_lt hj', tilePos_inj (hw ▸ hj') (hw ▸ hj)] at e
    rw [e.1, e.2]
  have hlive : (∃ x ∈ liveOutputs p mr nr t, tilePos p.trans x.1 (x.2 % p.width) = tilePos p.trans i j) ↔
      i < mr ∧ t * p.width + j < nr := by
    constructor
    · rintro ⟨x, hx, e⟩
      obtain ⟨hi, -, -, hn⟩ := mem_liveOutputs.mp (hkey x hx e ▸ hx)
      exact ⟨hi, hn⟩
    · rintro ⟨hi, hn⟩
      exact ⟨_, mem_liveOutputs.mpr ⟨hi, Nat.le_add_right _ _, by omega, hn⟩, by rw [hmod]⟩
  rw [mmTile_vals]
  refine (Tab.get_foldl_set (x := BitVec.ofNat 32 (out i (t * p.width + j))) _ _ fun x hx e => by rw [hkey x hx e]).trans ?_
  simp only [hlive]

theorem mmStart_of_lt (k : Core) {p : MmPlan} (w t i : Nat) {j : Nat} (hj : j < p.width) :
    mmStart k p w i (t * p.width + j) =
      if bits w 38 37 = 0 then 0 else (Tab.get 0 (k.tile (p.acc + t)).vals (tilePos p.trans i j)).toNat := by
  have hdiv : (t * p.width + j) / p.width = t := by
    rw [Nat.add_comm, Nat.add_mul_div_right _ _ (Nat.zero_lt_of_lt hj), Nat.div_eq_of_lt hj, Nat.zero_add]
  rw [mmStart, hdiv, Nat.mul_add_mod_of_lt hj]

/-- An element of the tiles after the passes of an `mm`. -/
theorem replaceTiles_element {k : Core} {p : MmPlan} {w mr nr kr t i j : Nat} {out : Nat → Nat → Nat}
    (hw : p.width = if p.trans then 256 else 64) (hout : ∀ i j, i < mr → j < nr → out i j = (mmResult k p w kr i j).1)
    (ht : t < p.tiles) (hj : j < p.width) :
    Tab.get 0 ((replaceTiles p.acc (mmTile p mr nr out) (upFrom 0 p.tiles) k).tile (p.acc + t)).vals (tilePos p.trans i j) =
      if i < mr ∧ t * p.width + j < nr then
        BitVec.ofNat 32 (mmElement p kr (k.obVal p.da) (k.obInt p.da) (mmWeight k p) (mmWeightInt k p) i
          (t * p.width + j)
          (if bits w 38 37 = 0 then 0 else (Tab.get 0 (k.tile (p.acc + t)).vals (tilePos p.trans i j)).toNat)).1
      else Tab.get 0 (k.tile (p.acc + t)).vals (tilePos p.trans i j) := by
  rw [replaceTiles_tile, if_pos ⟨by omega, by omega⟩, Nat.add_sub_cancel_left, mmTile_get hw _ _ _ _ _ _ hj]
  split
  · rename_i hlive
    obtain ⟨hi, hn⟩ := hlive
    rw [hout _ _ hi hn, mmResult, mmStart_of_lt k w t i hj]
  · rfl

/-! ## The instruction -/

/-- What the passes of an `mm` with these elements make of its core. -/
def mmPassed (p : MmPlan) (first mr nr : Nat) (out : Nat → Nat → Nat) (k : Core) : Core :=
  mmPlanes p first (replaceTiles p.acc (mmTile p mr nr out) (upFrom 0 p.tiles) k)

theorem mmPassed_touches (p : MmPlan) (first mr nr : Nat) (out : Nat → Nat → Nat) (k : Core) :
    ∃ ps, mmPassed p first mr nr out k =
      { k with tiles := (replaceTiles p.acc (mmTile p mr nr out) (upFrom 0 p.tiles) k).tiles, planes := ps } := by
  obtain ⟨ps, hps⟩ := mmPlanes_touches p first (replaceTiles p.acc (mmTile p mr nr out) (upFrom 0 p.tiles) k)
  obtain ⟨ts, hts⟩ := replaceTiles_touches p.acc (mmTile p mr nr out) (upFrom 0 p.tiles) k
  refine ⟨ps, ?_⟩
  rw [mmPassed, hps, hts]

/-- An instruction issued into the queue waits there; nothing else of the part changes. -/
theorem mxeIssue_id (c len : Nat) (cd : Conds) (busy : Nat) (s : State) :
    OthersKeep s (mxeIssue c len cd busy id s) c ∧ (mxeIssue c len cd busy id s).mem = s.mem ∧
    (mxeIssue c len cd busy id s).regs = s.regs ∧ (mxeIssue c len cd busy id s).events = s.events ∧
    (mxeIssue c len cd busy id s).core c = { s.core c with
      hold := none, pc := (s.core c).pc + BitVec.ofNat 64 len, mxeQ := (s.core c).mxeQ ++ [{ pc := (s.core c).pc, conds := cd }],
      mxeBusy := (s.core c).mxeBusy + BitVec.ofNat 64 busy } :=
  ⟨fun _ hj => core_setCore_ne s _ hj, rfl, rfl, rfl, core_setCore_self ..⟩

/-- The passes of an `mm` without epilogue that does not load its tiles change only its core, and the instruction waits in
the queue with what it raises. -/
theorem mmRun_plain {s : State} {c w : Nat} {p : MmPlan} (hp : (s.core c).obPoison = []) (hi : bits w 38 37 ≠ 1)
    (mr nr kr : Nat) : ∃ cd out, (∀ i j, i < mr → j < nr → out i j = (mmResult (s.core c) p w kr i j).1) ∧
      let u := s.modCore c (mmPassed p (b2n (bit w 24)) mr nr out)
      mmRun c w p 0 mr nr kr s = mxeIssue c 8 cd (mmBusy p mr) id (u.setCore c (u.core c)) := by
  have hclean : (mmReads p).any (fun r => (s.core c).obPoisoned r.lo r.n) = false := by simp [obPoisoned_clean hp]
  refine ⟨(Conds.joinAll ((mmResults (s.core c) p w mr nr kr).map fun r => Conds.joinAll (r.map (·.2)))).join .none,
    fun i j => (((mmResults (s.core c) p w mr nr kr).getD i []).getD j (0, .none)).1,
    fun i j hi hj => congrArg Prod.fst (mmResults_getD hi hj), ?_⟩
  unfold mmRun mmInit mmResults mmResult mmStart
  simp only [hclean, if_neg hi, Bool.false_eq_true, if_false, runEpilogue_zero]
  generalize bits w 38 37 = q at hi
  obtain _ | _ | q := q
  · rfl
  · exact absurd rfl hi
  · rfl

/-- What those passes leave: the tiles written, and nothing else changed but the planes and the core's own marks. -/
theorem mmRun_writes {s : State} {c w : Nat} {p : MmPlan} (hp : (s.core c).obPoison = []) (hi : bits w 38 37 ≠ 1)
    (mr nr kr : Nat) : ∃ cd out ps, (∀ i j, i < mr → j < nr → out i j = (mmResult (s.core c) p w kr i j).1) ∧
      let t := mmRun c w p 0 mr nr kr s
      OthersKeep s t c ∧ t.mem = s.mem ∧ t.regs = s.regs ∧ t.events = s.events ∧
      t.core c = { s.core c with
        hold := none, pc := (s.core c).pc + 8, mxeQ := (s.core c).mxeQ ++ [{ pc := (s.core c).pc, conds := cd }],
        mxeBusy := (s.core c).mxeBusy + BitVec.ofNat 64 (mmBusy p mr),
        tiles := (replaceTiles p.acc (mmTile p mr nr out) (upFrom 0 p.tiles) (s.core c)).tiles, planes := ps } := by
  obtain ⟨cd, out, hout, hrun⟩ := mmRun_plain (p := p) hp hi mr nr kr
  obtain ⟨ps, hps⟩ := mmPassed_touches p (b2n (bit w 24)) mr nr out (s.core c)
  refine ⟨cd, out, ps, hout, ?_⟩
  dsimp only at hrun ⊢
  rw [hrun]
  obtain ⟨hothers, hmem, hregs, hevents, hcore⟩ := mxeIssue_id c 8 cd (mmBusy p mr)
    ((s.modCore c (mmPassed p (b2n (bit w 24)) mr nr out)).setCore c
      ((s.modCore c (mmPassed p (b2n (bit w 24)) mr nr out)).core c))
  refine ⟨fun j hj => (hothers j hj).trans ?_, hmem, hregs, hevents, ?_⟩
  · rw [core_setCore_ne _ _ hj, core_modCore_ne _ _ hj]
  · rw [hcore, core_setCore_self, core_modCore_self, hps]
    rfl

/-- The checks of an `mm` with this plan and without epilogue pass (R208). -/
structure PlainMm (k : Core) (w : Nat) (p : MmPlan) : Prop where
  plan : mmPlan k w = .ok p
  init : initCheck k p w = .ok ()
  noEpilogue : k.xr (bits w 29 25) = 0
  rows : (k.kr (bits w 32 30)).m.toNat ≤ p.m
  cols : (k.kr (bits w 32 30)).n.toNat ≤ p.n
  red : (k.kr (bits w 32 30)).k.toNat ≤ p.red

/-- The accumulator rows that an `mm` with INIT = LOAD reads (R146). -/
def mmLoads (k : Core) (w mr nr : Nat) : List (W512 × List (Nat × Nat)) :=
  let d := k.dr (bits w 36 33)
  if bits w 38 37 = 1 then [(d, (upFrom 0 mr).map fun y => (Desc.rowAt d 0 y, 4 * nr))] else []

/-- An empty live part only retires; any other waits for its granules and its place in the queue and then runs its
passes. -/
theorem bodyMm_plain {s : State} {c w : Nat} {p : MmPlan} (e : Nat) (h : PlainMm (s.core c) w p) :
    let ks := (s.core c).kr (bits w 32 30)
    bodyMm c w e s =
      if ks.m.toNat = 0 ∨ ks.n.toNat = 0 then finish c 8 id s
      else epiGate c w 0 0 ks.m.toNat ks.n.toNat (mmReads p) (mmLoads (s.core c) w ks.m.toNat ks.n.toNat)
        (mmRun c w p 0 ks.m.toNat ks.n.toNat ks.k.toNat) s := by
  have hep : ((s.core c).xr (bits w 29 25)).toNat = 0 := by rw [h.noEpilogue]; rfl
  have hfits := not_or.mpr ⟨Nat.not_lt.mpr h.rows, not_or.mpr ⟨Nat.not_lt.mpr h.cols, Nat.not_lt.mpr h.red⟩⟩
  unfold bodyMm
  simp only [h.plan, hep, h.init, epiCheck_zero, raccDest_zero, andThen, if_neg hfits]
  rfl

theorem mm_retires_of_empty {s : State} {c : Nat} {w : W64} {p : MmPlan} (h : Issues s c .mm w 0)
    (hp : PlainMm (s.core c) w.toNat p) :
    let ks := (s.core c).kr (bits w.toNat 32 30)
    ks.m.toNat = 0 ∨ ks.n.toNat = 0 → exec (.mm c w) s = .next (s.retiring c 8 (s.core c)) := by
  intro ks hempty
  have hbody := bodyMm_plain (s := stepTaken c s) 0 hp
  exact congrArg Host.Outcome.next (issue_finishes h (hbody.trans (if_pos hempty)) rfl)

/-- With nothing under way in the operand buffer and room in the queue nothing holds the passes back. -/
theorem mm_runs_of_live {s : State} {c : Nat} {w : W64} {p : MmPlan} (h : Issues s c .mm w 0)
    (hp : PlainMm (s.core c) w.toNat p) (hi : bits w.toNat 38 37 ≠ 1) (hd : (s.core c).dmaQ = [])
    (hq : (s.core c).mxeQ.length < 4) :
    let ks := (s.core c).kr (bits w.toNat 32 30)
    ks.m.toNat ≠ 0 → ks.n.toNat ≠ 0 →
    exec (.mm c w) s = .next (mmRun c w.toNat p 0 ks.m.toNat ks.n.toNat ks.k.toNat (stepTaken c s)) := by
  intro ks hm hn
  have hloads : mmLoads (s.core c) w.toNat ks.m.toNat ks.n.toNat = [] := if_neg hi
  have hbody := (bodyMm_plain (s := stepTaken c s) 0 hp).trans (if_neg (not_or.mpr ⟨hm, hn⟩))
  refine congrArg Host.Outcome.next ((issue_eq h).trans (hbody.trans ?_))
  exact hloads ▸ epiGate_zero (s := stepTaken c s) hd hq ..

/-- Settles O22: the passes write the live outputs of the accumulator tiles one after another, each at a position of its
own, so that each is read back and everything else is kept. -/
theorem matrixProductResults : Obligations.MatrixProductResults := by
  unfold Obligations.MatrixProductResults
  intro s c w p k n shape rows cols plane weight weightInt element width start h hplan hinit hep hm hn hk
  have hplain : PlainMm k n p := ⟨hplan, hinit, hep, hm, hn, hk⟩
  refine ⟨mm_retires_of_empty h hplain, fun hm0 hn0 hi hd hp hq => ?_⟩
  obtain ⟨cd, out, ps, hout, hothers, hmem, hregs, hevents, hcore⟩ :=
    mmRun_writes (s := stepTaken c s) (p := p) hp hi rows cols shape.k.toNat
  refine ⟨mmRun c n p 0 rows cols shape.k.toNat (stepTaken c s), mm_runs_of_live h hplain hi hd hq hm0 hn0,
    hothers, hmem, hregs, hevents, ?_⟩
  have hw : p.width = width := mmPlan_width hplan
  rw [hcore]
  refine ⟨rfl, rfl, rfl, rfl, rfl, rfl, rfl, rfl, List.length_append, fun tile ht => ?_, fun tile i j ht hj _ => ?_⟩
  · exact (replaceTiles_tile ..).trans (if_neg (by omega))
  · rw [← hw] at hj ⊢
    exact replaceTiles_element hw hout ht hj

end Sys2Proof.Machine
end
